-- ==== Sys2Proof/Word.lean ====
section
/-! DEFINITION. The word types of the block: bytes, words of the widths the spec uses, ids of units, and the
one shape of sparse storage (`Map`: pairs of a Nat key and a value, keys strictly rising, no default value listed). -/
namespace Sys2Proof

/-- A byte (R7: multi-byte values are little-endian). -/
abbrev Byte := BitVec 8
/-- 16-bit word: status codes (R10), UNSIGNED16 objects. -/
abbrev W16 := BitVec 16
/-- 32-bit word: registers and lanes of a site, UNSIGNED32 objects. -/
abbrev W32 := BitVec 32
/-- 64-bit word: program words, descriptors, headers. -/
abbrev W64 := BitVec 64
/-- 256-bit word: a beat, a payload, a sector, an AA word. -/
abbrev W256 := BitVec 256
/-- Sparse storage in one canonical form. -/
abbrev Map (α : Type) := List (Nat × α)

/-- Isle I0 to I3 (R1). -/
abbrev IsleId := Fin 4
/-- A logical site: isle × 9,216 + Y × 96 + X (R171, site order R210). -/
abbrev SiteId := Fin 36864
/-- A reef of the package: isle × 36 + 6y + x (R171). -/
abbrev ReefId := Fin 144
/-- An HBM stack M0 to M15 (R20). -/
abbrev StackId := Fin 16
/-- A job (R434). -/
abbrev JobId := Fin 256
/-- A tenant slot (R434). -/
abbrev SlotId := Fin 64
/-- A strait link of the device (R399). -/
abbrev LinkId := Fin 16
/-- A completion or step ring (R490). -/
abbrev RingId := Fin 32
/-- A die of the I/O ring in the order S0 H0 S1 T0 S3 H1 S2 T1 (R22). -/
abbrev RingDie := Fin 8
/-- A bridge direction: 2b is clockwise on bridge b, 2b + 1 counter-clockwise (R14). -/
abbrev BridgeDir := Fin 8
/-- A control-plane endpoint (R474): 0 the EtherCAT endpoint, 1 the mailbox of H0, 2 the mailbox of H1. -/
abbrev EndpointId := Fin 3
/-- A host die H0, H1. -/
abbrev HostDie := Fin 2

end Sys2Proof
end

