-- ==== Sys2Proof/Syntax.lean ====
section
/-! DEFINITION. The commands of the block: one constructor per row of the table of operations and events, with the
operands each needs, and the operand types. What the outside world decides (a measurement, an error pattern, the
outcome of a cryptographic check, bytes in host memory) is an operand; everything else the state holds. -/
namespace Sys2Proof

/-- Whose instruction of a site is executed: one of its four contexts, or setup code (R94, R103). -/
inductive Who where
  | ctx (c : Fin 4)
  | setup
  deriving DecidableEq, Repr

/-- What the DEC-TED check of the 64-bit words a command reads finds (R108, R109): how many of them had one bit in error, how
many two, and whether one could not be corrected. -/
structure Ecc where
  one : Nat := 0
  two : Nat := 0
  bad : Bool := false
  deriving DecidableEq, Repr

/-- No error. -/
def Ecc.clean : Ecc := {}

/-- An operand of a command that reads 64-bit words, and what their check finds. -/
structure Checked (α : Type) where
  val : α
  ecc : Ecc := {}
  deriving DecidableEq, Repr

/-- What a router's check of an arriving flit finds (R174, R183). -/
inductive FlitEcc where
  | clean
  | header
  | payload
  deriving DecidableEq, Repr

/-- A place of the on-die and package networks where flits wait (R173, R195, R22). `stop` is a stop of an isle's
perimeter ring, clockwise: 0 U0, 1 HBM 2, 2 HBM 3, 3 U1, 4 causeway, 5 mask engine, 6 walker, 7 stream arbiter,
8 perimeter control, 9 CW port, 10 transit switch, 11 CCW port, 12 HBM 1, 13 HBM 0. -/
inductive Node where
  | site (s : SiteId)
  | tap (r : ReefId) (row : Fin 16)
  | reef (r : ReefId)
  | stop (i : IsleId) (k : Fin 14)
  | ring (d : RingDie)
  /-- the bypass register at the failed router position of a row, eastward or westward (R206) -/
  | bypass (r : ReefId) (row : Fin 16) (east : Bool)
  deriving DecidableEq, Repr

/-- Input port of a node: mesh N E S W, the local (unit) port, the express or tap side, the two ring directions. -/
inductive Port where
  | n | e | s | w | loc | express | tap | cw | ccw
  deriving DecidableEq, Repr

/-- Buffer class (R178, Table 6-4). -/
inductive Cls where
  | first | last | credit | control
  deriving DecidableEq, Repr

/-- Symbol errors of one stored sector: position among the 36 symbols, error value (R228). -/
abbrev SymErrs := List (Fin 36 × Byte)

/-- Symbol errors that the reads of a command meet: HBM address / 32 of a sector, and its errors; the others have none (R229). -/
abbrev HbmErrs := List (Nat × SymErrs)

/-- Errors of a sector, by its HBM address / 32. -/
def HbmErrs.at (e : HbmErrs) (i : Nat) : SymErrs := ((e.find? fun x => x.1 = i).map (·.2)).getD []

/-- An operand with what the HBM reads of its command meet. -/
structure Reads (α : Type) where
  val : α
  errs : HbmErrs := []
  deriving DecidableEq, Repr

/-- Who makes a dictionary request: an endpoint (R474), or a tenant session of a host die (R485). -/
inductive Via where
  | endpoint (e : EndpointId)
  | session (h : HostDie) (k : Fin 16)
  deriving DecidableEq, Repr

/-- An SDO service (R474, R503, R504). -/
inductive SdoReq where
  | read (idx : W16) (sub : Byte)
  | write (idx : W16) (sub : Byte) (data : List Byte)
  | readAll (idx : W16) (fromZero : Bool)
  | writeAll (idx : W16) (fromZero : Bool) (data : List Byte)
  /-- start of a segmented write -/
  | segStart (idx : W16) (sub : Byte)
  /-- a segment of it -/
  | segData (data : List Byte) (last : Bool)
  /-- an abort by the client -/
  | abort
  deriving DecidableEq, Repr

/-- A record on a strait link (R406). -/
structure StraitRecord where
  fjh : W16
  fepoch : W16
  tag : BitVec 20
  kind : BitVec 4
  rt : BitVec 4
  /-- `CH` or `BUCKET` -/
  ch : W16
  phase : Byte
  /-- `KBITS` or `WOFS` -/
  wofs : W32
  payloads : List W256
  deriving DecidableEq, Repr

/-- Sixteen bytes of the payload of a strait frame, little-endian: a run header, or half a payload (R406). -/
abbrev StraitBeat := BitVec 128

/-- A strait frame (Table 13-1), its payload and credit block in clear. -/
structure StraitFrame where
  txc : W64
  fseq : BitVec 12
  ack : BitVec 12
  nak : Bool
  keysel : Bool
  /-- bytes 16–3,087: 192 beats of the record stream -/
  payload : List StraitBeat
  /-- bytes 3,088–3,183: 24 credit entries (R408) -/
  credits : List W32
  deriving DecidableEq, Repr

/-- EtherCAT AL states (R477), in rising order, and BOOT. -/
inductive AlState where
  | init | preop | safeop | op | boot
  deriving DecidableEq, Repr

/-- Why a site becomes failing in operation (R590, conditions 1 to 4). -/
inductive FailCause where
  | uncorrectable | corrections | ageing | flits
  deriving DecidableEq, Repr

/-- What the ROM self-check finds (R567, Table 19-2). -/
inductive SelfCheck where
  | ok
  | fuses
  | rom
  | entropy
  deriving DecidableEq, Repr

/-- What the ROM finds in the MRAM (R556): which copies are valid. -/
structure MramCheck where
  copy0 : Bool
  copy1 : Bool
  deriving DecidableEq, Repr

/-- TAP instructions (R615). -/
inductive TapInstr where
  | bypass | idcode | samplePreload | extest | extestPulse | extestTrain | clamp | other
  deriving DecidableEq, Repr

/-- One job's row of a sample set (R448, R449). -/
structure SampleRow where
  job : JobId
  alloc : Nat
  busy : Nat
  hbm : Nat
  strait : Nat
  host : Nat
  deriving DecidableEq, Repr

/-- The commands (one per row of the table of operations and events, in its order). -/
inductive Instr where
  /-- POWER_EVALUATION (R32) -/
  | powerEvaluation
  /-- EXCURSION_EVALUATION (R35) -/
  | excursionEvaluation
  /-- EXCURSION_TIMEOUT (R35) -/
  | excursionTimeout
  /-- CORE_EN_DROP (R559) -/
  | coreEnDrop
  /-- TELEMETRY_SAMPLE (R31): W of the four isles, HBM, I/O, trust, package; mV and A of the four isles -/
  | telemetrySample (isles : List W16) (hbm io trust pkg : W16) (vdd idd : List W16)
  /-- RING_SEGMENT_FAILURE (R27): segment from ring position k to k + 1 -/
  | ringSegmentFailure (seg : Fin 8)
  /-- TRUST_FLIT_ARRIVAL (R28): the flit at the head of trust die T0 or T1 -/
  | trustFlitArrival (die : Fin 2)
  /-- NOP (R164) -/
  | nop (s : SiteId) (w : Who) (e : Ecc)
  /-- END (R150) -/
  | end_ (s : SiteId) (w : Who) (e : Ecc)
  /-- ARM (R164) -/
  | arm (s : SiteId) (w : Who) (e : Ecc)
  /-- BR (R164) -/
  | br (s : SiteId) (w : Who) (e : Ecc)
  /-- DBNZ (R164) -/
  | dbnz (s : SiteId) (w : Who) (e : Ecc)
  /-- RDST (R104) -/
  | rdst (s : SiteId) (w : Who) (e : Ecc)
  /-- CLRST (R104) -/
  | clrst (s : SiteId) (w : Who) (e : Ecc)
  /-- SETCTR (R164) -/
  | setctr (s : SiteId) (w : Who) (e : Ecc)
  /-- SOP (R164) -/
  | sop (s : SiteId) (w : Who) (e : Ecc)
  /-- SOPI (R164) -/
  | sopi (s : SiteId) (w : Who) (e : Ecc)
  /-- LI (R164) -/
  | li (s : SiteId) (w : Who) (e : Ecc)
  /-- TAGR (R164) -/
  | tagr (s : SiteId) (w : Who) (e : Ecc)
  /-- LD (R165) -/
  | ld (s : SiteId) (w : Who) (e : Ecc)
  /-- ST (R165) -/
  | st (s : SiteId) (w : Who) (e : Ecc)
  /-- AGRST (R155) -/
  | agrst (s : SiteId) (w : Who) (e : Ecc)
  /-- VOP (R164) -/
  | vop (s : SiteId) (w : Who) (e : Ecc)
  /-- VTR (R164) -/
  | vtr (s : SiteId) (w : Who) (e : Ecc)
  /-- VLD (R164) -/
  | vld (s : SiteId) (w : Who) (e : Ecc)
  /-- VPACK (R164) -/
  | vpack (s : SiteId) (w : Who) (e : Ecc)
  /-- VMX (R164) -/
  | vmx (s : SiteId) (w : Who) (e : Ecc)
  /-- VHRED (R122) -/
  | vhred (s : SiteId) (w : Who) (e : Ecc)
  /-- VPERM (R164) -/
  | vperm (s : SiteId) (w : Who) (e : Ecc)
  /-- VMOV (R164) -/
  | vmov (s : SiteId) (w : Who) (e : Ecc)
  /-- MMA (R166) -/
  | mma (s : SiteId) (w : Who) (e : Ecc)
  /-- TCLR (R164) -/
  | tclr (s : SiteId) (w : Who) (e : Ecc)
  /-- TMOV (R120) -/
  | tmov (s : SiteId) (w : Who) (e : Ecc)
  /-- AADEP (R123) -/
  | aadep (s : SiteId) (w : Who) (e : Ecc)
  /-- AACMB (R123) -/
  | aacmb (s : SiteId) (w : Who) (e : Ecc)
  /-- AACVT (R84) -/
  | aacvt (s : SiteId) (w : Who) (e : Ecc)
  /-- AACLR (R164) -/
  | aaclr (s : SiteId) (w : Who) (e : Ecc)
  /-- SEND (R167) -/
  | send (s : SiteId) (w : Who) (e : Ecc)
  /-- WRITE_DATA_SRAM (R160): operand n − 1, byte address, data words -/
  | writeDataSram (s : SiteId) (n : Fin 4) (addr : W16) (d : List W64)
  /-- WRITE_PROGRAM_STORE (R160): address, four instruction words -/
  | writeProgramStore (s : SiteId) (addr : BitVec 10) (w : List W64)
  /-- WRITE_TRIGGER_ENTRY (R160) -/
  | writeTriggerEntry (s : SiteId) (entry : Fin 32) (w : W64)
  /-- WRITE_TILE_METADATA (R160) -/
  | writeTileMetadata (s : SiteId) (tile : Fin 64) (w : W16)
  /-- BEGIN_EPOCH (R160): what the check of the descriptor area finds as it is copied (R151) -/
  | beginEpoch (s : SiteId) (epoch : BitVec 4) (forced : Checked Bool)
  /-- CONTROL_STOP (R160) -/
  | controlStop (s : SiteId)
  /-- READ_STATUS (R160) -/
  | readStatus (s : SiteId)
  /-- TOKEN_EJECT (R139): the flit at the head of an input buffer of the site's router -/
  | tokenEject (s : SiteId) (p : Port) (c : Cls)
  /-- REDUCE_AA_EJECT (R140): what the check of the entry's words finds, where the token is combined into it -/
  | reduceAaEject (s : SiteId) (p : Port) (c : Checked Cls)
  /-- EMPTY_TOKEN_EJECT (R141) -/
  | emptyTokenEject (s : SiteId) (p : Port) (c : Cls)
  /-- DRAIN_MARKER_EJECT (R142) -/
  | drainMarkerEject (s : SiteId) (p : Port) (c : Cls)
  /-- TRIGGER_FIRE (R148) -/
  | triggerFire (s : SiteId)
  /-- SITE_DRAINED (R145) -/
  | siteDrained (s : SiteId)
  /-- SITE_GATE (R126) -/
  | siteGate (s : SiteId)
  /-- SCRUB_WORD (R110) -/
  | scrubWord (s : SiteId) (e : Ecc)
  /-- SCRUB_OVERDUE (R110) -/
  | scrubOverdue (s : SiteId)
  /-- FLIT_HOP (R176): the flit at the head of an input buffer moves one hop -/
  | flitHop (n : Node) (p : Port) (c : Cls) (e : FlitEcc)
  /-- MULTICAST_ACCEPT (R211) -/
  | multicastAccept (r : ReefId) (p : Port) (c : Cls)
  /-- MC_RESERVE (R212) -/
  | mcReserve (s : SiteId) (p : Port)
  /-- MC_RESERVATION_GRANT (R212): reservation k of the site -/
  | mcReservationGrant (s : SiteId) (k : Fin 4)
  /-- MC_GRANT (R211) -/
  | mcGrant (r : ReefId) (p : Port)
  /-- MC_RELEASE (R212) -/
  | mcRelease (s : SiteId) (p : Port)
  /-- MULTICAST_TIMEOUT (R211) -/
  | multicastTimeout (r : ReefId)
  /-- MULTICAST_RETRY (R211) -/
  | multicastRetry (r : ReefId)
  /-- CHANNEL_WRITE_WINDOW (R190) -/
  | channelWriteWindow (r : ReefId) (p : Port) (c : Cls)
  /-- CHANNEL_READ_WINDOW (R190) -/
  | channelReadWindow (r : ReefId) (p : Port) (c : Cls) (e : Ecc)
  /-- SPILL_STORE (R194) -/
  | spillStore (r : ReefId) (p : Port) (c : Cls)
  /-- SPILL_RETURN (R314): what the check of the token's words finds (R186) -/
  | spillReturn (r : ReefId) (p : Port) (c : Checked Cls)
  /-- LAGOON_CACHE_READ (R192): stream of the lagoon's isle, line (HA / 256) -/
  | lagoonCacheRead (r : ReefId) (sid : Fin 256) (line : BitVec 32) (e : Ecc)
  /-- LAGOON_CACHE_FILL (R192) -/
  | lagoonCacheFill (r : ReefId) (line : BitVec 32)
  /-- LAGOON_SCRUB (R583) -/
  | lagoonScrub (r : ReefId) (e : Ecc)
  /-- SEMAPHORE_READ (R277) -/
  | semaphoreRead (r : ReefId) (p : Port) (c : Cls)
  /-- POST_FULL (R277) -/
  | postFull (r : ReefId) (p : Port) (c : Cls)
  /-- POST_EMPTY (R277) -/
  | postEmpty (r : ReefId) (p : Port) (c : Cls)
  /-- WAIT_FULL (R277) -/
  | waitFull (r : ReefId) (p : Port) (c : Cls)
  /-- WAIT_EMPTY (R277) -/
  | waitEmpty (r : ReefId) (p : Port) (c : Cls)
  /-- ACQ (R277) -/
  | acq (r : ReefId) (p : Port) (c : Cls)
  /-- FETCH (R279) -/
  | fetch (r : ReefId) (p : Port) (c : Cls) (e : Ecc)
  /-- REL (R280) -/
  | rel (r : ReefId) (p : Port) (c : Cls)
  /-- SEMAPHORE_WAIT_SATISFIED (R278): wait k of the bank -/
  | semaphoreWaitSatisfied (r : ReefId) (k : Fin 32)
  /-- ISTHMUS_FRAME_RECEIVE (R200): bridge direction, lane group, bit errors of the frame on the wires -/
  | isthmusFrameReceive (d : BridgeDir) (g : Fin 32) (noise : BitVec 2048)
  /-- TRANSIT_GRANT (R19) -/
  | transitGrant (d : BridgeDir) (g : Fin 32)
  /-- ISTHMUS_NAK (R200) -/
  | isthmusNak (d : BridgeDir) (g : Fin 32)
  /-- ISTHMUS_RETRAIN_END (R203): lanes found failed, and whether the group then trained -/
  | isthmusRetrainEnd (d : BridgeDir) (g : Fin 32) (lanes : Fin 67)
  /-- NARROW_WRITE (R241): symbol errors of the sector, read when the write is partial -/
  | narrowWrite (k : StackId) (p : Port) (c : Cls) (err : SymErrs)
  /-- NARROW_READ (R242) -/
  | narrowRead (k : StackId) (p : Port) (c : Cls)
  /-- ATOMIC_ADD (R244) -/
  | atomicAdd (k : StackId) (p : Port) (c : Cls) (err : SymErrs)
  /-- ATOMIC_COMPARE_REPLACE (R244) -/
  | atomicCompareReplace (k : StackId) (p : Port) (c : Cls) (err : SymErrs)
  /-- AU_COMBINE (R247) -/
  | auCombine (k : StackId) (p : Port) (c : Cls) (err : SymErrs)
  /-- AU_CLEAR (R247) -/
  | auClear (k : StackId) (p : Port) (c : Cls)
  /-- AU_DEPOSIT_FP32 (R247): symbol errors of the eight words, where they are read from the stack -/
  | auDepositFp32 (k : StackId) (p : Port) (c : Cls) (errs : List SymErrs)
  /-- AU_DEPOSIT_INT32 (R247) -/
  | auDepositInt32 (k : StackId) (p : Port) (c : Cls) (errs : List SymErrs)
  /-- COUNTER_WAIT (R250) -/
  | counterWait (k : StackId) (p : Port) (c : Cls)
  /-- COUNTER_WAIT_REPLY (R250): pending wait -/
  | counterWaitReply (k : StackId) (i : Fin 64)
  /-- HBM_REQUEST_ACCEPT (R223): the oldest request that waits for the stack -/
  | hbmRequestAccept (k : StackId)
  /-- HBM_BURST_GRANT (R235): pseudo-channel, and which of its banks are busy -/
  | hbmBurstGrant (k : StackId) (pc : Fin 32) (busy : List (Fin 48))
  /-- HBM_READ_COMPLETE (R229): the i-th granted request; symbol errors of its sectors; corrections of the on-die ECC -/
  | hbmReadComplete (k : StackId) (i : Nat) (errs : List SymErrs) (onDie : Nat)
  /-- CHANNEL_MAP_OUT (R256) -/
  | channelMapOut (k : StackId) (c : Fin 16)
  /-- CHANNEL_MAP_OUT_END (R256) -/
  | channelMapOutEnd (k : StackId)
  /-- HBM_SCRUB_READ (R232) -/
  | hbmScrubRead (k : StackId)
  /-- HBM_SCRUB_PASS_END (R232) -/
  | hbmScrubPassEnd (k : StackId)
  /-- HBM_TEMP_SAMPLE (R252): °C, two's complement -/
  | hbmTempSample (k : StackId) (t : W16)
  /-- HBM_REFRESH (R252) -/
  | hbmRefresh (k : StackId)
  /-- REGION_ZERO_FILL_END (R224) -/
  | regionZeroFillEnd (k : StackId) (region : Fin 256)
  /-- BLOCK_START (R270) -/
  | blockStart (i : IsleId) (sid : Checked (Fin 256))
  /-- GRANULE_COMPLETE (R274): block position among those in progress, granule -/
  | granuleComplete (i : IsleId) (sid : Fin 256) (blk : Fin 2) (granule : Checked Nat)
  /-- BLOCK_DELIVERED (R274) -/
  | blockDelivered (i : IsleId) (sid : Fin 256)
  /-- WRITE_BLOCK_COMPLETE (R274) -/
  | writeBlockComplete (i : IsleId) (sid : Fin 256)
  /-- STREAM_ESCAPE (R284) -/
  | streamEscape (i : Checked IsleId)
  /-- ESCAPE_SPILL_COMPLETE (R284) -/
  | escapeSpillComplete (i : IsleId)
  /-- STREAM_CYCLE_UNRESOLVED (R287) -/
  | streamCycleUnresolved (i : IsleId)
  /-- STREAMS_DRAINED (R288) -/
  | streamsDrained (i : IsleId) (j : JobId)
  /-- TIDE_REPORT (R307) -/
  | tideReport (i : IsleId) (p : Port) (c : Cls)
  /-- TIDE_POINT (R307) -/
  | tidePoint (j : Reads JobId) (stage : Byte)
  /-- PARTITION_DRAINED (R309) -/
  | partitionDrained (j : JobId)
  /-- EPOCH_TRANSITION (R310) -/
  | epochTransition (j : Reads JobId)
  /-- LAGOON_ZERO_END (R188) -/
  | lagoonZeroEnd (r : ReefId) (region : Fin 16)
  /-- CLEARING_PROGRAM_END (R298) -/
  | clearingProgramEnd (s : SiteId)
  /-- DRAIN_TIMEOUT (R312) -/
  | drainTimeout (j : JobId)
  /-- FORCED_QUIET_END (R311) -/
  | forcedQuietEnd (j : JobId)
  /-- GUARD_ITERATION (R305) -/
  | guardIteration (j : JobId)
  /-- QUEUE_SPILL_START (R314): the blocked token at an input buffer of the site's router -/
  | queueSpillStart (s : SiteId) (p : Port) (c : Cls)
  /-- REFILL_PASS (R314) -/
  | refillPass (s : SiteId) (q : Fin 64)
  /-- CONTEXT_SWITCH_OUT (R315) -/
  | contextSwitchOut (j : Checked JobId)
  /-- PLAN_FETCH_COMPLETE (R299): the image as fetched, whether its GCM tag and its signature verify -/
  | planFetchComplete (j : JobId) (image : List Byte) (tagOk sigOk : Bool)
  /-- GOOD_SITE_MAP_CHANGE (R300) -/
  | goodSiteMapChange (j : JobId)
  /-- CAUSEWAY_LOGIT (R347) -/
  | causewayLogit (i : IsleId) (p : Port) (c : Cls)
  /-- CAUSEWAY_LABEL (R351) -/
  | causewayLabel (i : IsleId) (p : Port) (c : Cls)
  /-- REDUCE_ROW (R352): staging slot -/
  | reduceRow (i : IsleId) (slot : Fin 4)
  /-- SOFT_TARGET_RECORD (R355) -/
  | softTargetRecord (i : IsleId) (p : Port) (c : Cls)
  /-- MATCH_ROW (R358): staging slot -/
  | matchRow (i : IsleId) (slot : Checked (Fin 4))
  /-- SUBMIT (R369): ring, descriptor of 64 bytes, request buffer with its ciphertext decrypted, GCM outcome -/
  | submit (r : RingId) (desc buf : List Byte) (gcmOk : Bool)
  /-- CANCEL (R396): ring, descriptor of 64 bytes -/
  | cancel (r : RingId) (desc : List Byte)
  /-- PREFIX_WALK (R381) -/
  | prefixWalk (j : JobId) (req : Reads (BitVec 18))
  /-- FORM_BATCH_STEP (R372) -/
  | formBatchStep (j : JobId)
  /-- MASK_FETCH (R384): staging slot -/
  | maskFetch (i : IsleId) (slot : Reads (Fin 4))
  /-- SAMPLE_ROW (R386): staging slot -/
  | sampleRow (i : IsleId) (slot : Fin 4)
  /-- STEP_COMPLETE (R375) -/
  | stepComplete (j : JobId)
  /-- BOUNDARY (R375) -/
  | boundary (j : JobId)
  /-- STRAIT_FRAME_RECEIVE (R407): frame, whether its GCM tag verifies; the symbols in error of each of its five codewords (R403),
  and the spared lane that their control bits announce (R411) -/
  | straitFrameReceive (l : LinkId) (f : StraitFrame) (tagOk : Bool) (errs : List (List (Fin 544))) (map : Option (Fin 9))
  /-- STRAIT_NAK (R407) -/
  | straitNak (l : LinkId)
  /-- STRAIT_RETRAIN_END (R407) -/
  | straitRetrainEnd (l : LinkId) (trained : Bool)
  /-- STRAIT_LANE_FAIL (R411) -/
  | straitLaneFail (l : LinkId) (lane : Fin 9)
  /-- STRAIT_REKEY (R410) -/
  | straitRekey (l : LinkId)
  /-- STRAIT_LINK_TRAINED (R409): failing lanes, whether the SPDM session is established, peer identity -/
  | straitLinkTrained (l : LinkId) (lanes : List (Fin 9)) (authOk : Bool) (peer : List Byte)
  /-- U0_CHANNEL_TOKEN (R420) -/
  | u0ChannelToken (i : IsleId) (p : Port) (c : Cls)
  /-- COLLECTIVE_COMMAND (R422) -/
  | collectiveCommand (i : Reads IsleId) (p : Port) (c : Cls)
  /-- COLLECTIVE_RECORD (R425): the oldest record the link holds -/
  | collectiveRecord (l : Reads LinkId)
  /-- BKP_WAIT_EXPIRY (R427): instance, rank -/
  | bkpWaitExpiry (n : Reads (Fin 4096)) (rank : W16)
  /-- COLLECTIVE_COMPLETE (R422): instance -/
  | collectiveComplete (n : Fin 4096)
  /-- COLLECTIVE_TIMEOUT (R427): instance -/
  | collectiveTimeout (n : Fin 4096)
  /-- PERMUTE_COMPLETE (R429): instance -/
  | permuteComplete (n : Reads (Fin 4096))
  /-- JOB_MEMBERSHIP (R416): record, whether its signature verifies -/
  | jobMembership (v : Via) (j : JobId) (record : List Byte) (sigOk : Bool)
  /-- JOB_SLOT (R434) -/
  | jobSlot (v : Via) (j : JobId) (val : Byte)
  /-- JOB_ADMIT_REQ (R443) -/
  | jobAdmitReq (v : Via) (j : JobId) (val : Byte)
  /-- ADMISSION_DECISION (R443) -/
  | admissionDecision (j : JobId)
  /-- ADMISSION_REVOKE_TIMEOUT (R445) -/
  | admissionRevokeTimeout (j : JobId)
  /-- SAMPLE_SET_CLOSE (R449): die (0–3 isles, 4–19 controllers, 20–23 straits, 24–25 hosts), its energy in µJ, what the
  device itself moved or left unallocated, and the rows of the jobs present -/
  | sampleSetClose (die : Fin 26) (energy overhead : Nat) (rows : List SampleRow)
  /-- SAMPLE_SET_ARRIVAL (R450): the k-th sample set on its way -/
  | sampleSetArrival (k : Nat)
  /-- WINDOW_SEAL (R472) -/
  | windowSeal
  /-- PPS_EDGE (R467) -/
  | ppsEdge
  /-- PPS_LOST (R466) -/
  | ppsLost
  /-- TIME_REF_LOST (R463) -/
  | timeRefLost
  /-- HOLDOVER_EXPIRY (R463) -/
  | holdoverExpiry
  /-- TIME_REF_RETURN (R463): frequency found, 0 none accepted, 1 25 MHz, 2 10 MHz -/
  | timeRefReturn (freq : Fin 3)
  /-- REPLICA_STROBE_LOSS (R464): die, numbered as `DIE` of the error log -/
  | replicaStrobeLoss (die : Fin 32)
  /-- FRAME_FORWARD (R476): arrival port, whether the other port has link -/
  | frameForward (port : Fin 2) (otherLink : Bool)
  /-- AL_CONTROL (R477) -/
  | alControl (want : AlState)
  /-- PDO_REFRESH (R478) -/
  | pdoRefresh
  /-- MBX_GO (R480): host die, `LEN`, `SEQ`, and the request the host has put into `MBX_REQ` -/
  | mbxGo (h : HostDie) (len : BitVec 12) (seq : Byte) (req : SdoReq)
  /-- SDO_REQUEST (R502) -/
  | sdoRequest (v : Via) (req : SdoReq)
  /-- SEGMENT_TIMEOUT (R504) -/
  | segmentTimeout (v : Via)
  /-- NV_WRITE_COMMIT_TIMEOUT (R505) -/
  | nvWriteCommitTimeout
  /-- CP_AUTH_NONCE (R482) -/
  | cpAuthNonce (v : Via)
  /-- CP_AUTH_RESPONSE (R482): 132 bytes, whether the signature verifies -/
  | cpAuthResponse (v : Via) (resp : List Byte) (sigOk : Bool)
  /-- CP_WRITE_TICKET (R483): 160 bytes, whether the signature verifies -/
  | cpWriteTicket (v : Via) (ticket : List Byte) (sigOk : Bool)
  /-- CP_LOGOUT (R484) -/
  | cpLogout (v : Via)
  /-- IDLE_TIMEOUT (R484) -/
  | idleTimeout (e : EndpointId)
  /-- LOGIN_LOCKOUT_END (R486) -/
  | loginLockoutEnd (e : EndpointId)
  /-- DEVICE_STATE_REQ (R488) -/
  | deviceStateReq (v : Via) (val : Byte)
  /-- HOLD_JOBS_DRAINED (R488) -/
  | holdJobsDrained
  /-- RING_ENABLE (R490) -/
  | ringEnable (v : Via) (r : RingId) (val : Byte)
  /-- HOST_IDX (R491) -/
  | hostIdx (h : HostDie) (r : RingId) (idx : W32)
  /-- DEVICE_RECORD_WRITE (R492): the oldest record of the ring's backlog -/
  | deviceRecordWrite (r : RingId)
  /-- DMA_COMMAND (R496): ring, the entry of 64 bytes at its next index -/
  | dmaCommand (r : RingId) (entry : List Byte)
  /-- DMA_COMPLETE (R496): ring; inbound data (decrypted), whether its tag verifies; errors met by an outbound read -/
  | dmaComplete (r : RingId) (data : List Byte) (tagOk : Bool) (errs : HbmErrs)
  /-- INGRESS_RECORD (R497): ring, the entry of 64 bytes at its next index, and the extent table it names -/
  | ingressRecord (r : RingId) (entry exts : List Byte)
  /-- INGRESS_DISPATCH (R497) -/
  | ingressDispatch (j : JobId)
  /-- INGRESS_COMPLETE (R497) -/
  | ingressComplete (j : JobId)
  /-- JOURNAL_RECORD (R512) -/
  | journalRecord (v : Via)
  /-- ERRLOG_ENTRY (R521) -/
  | errlogEntry (v : Via)
  /-- TXPDO_MAP (R508): sub-index 0 to 32, value -/
  | txpdoMap (v : Via) (sub : Fin 33) (val : W32)
  /-- HBM_CH_RETURN (R517) -/
  | hbmChReturn (v : Via) (val : W16)
  /-- DIAG_PRBS_LINK (R522) -/
  | diagPrbsLink (v : Via) (val : Byte)
  /-- SLOT_TENANT_KEY (R523) -/
  | slotTenantKey (v : Via) (n : SlotId) (key : List Byte)
  /-- OWNER_KEY (R533) -/
  | ownerKey (v : Via) (k : Fin 16) (key : List Byte)
  /-- LOAD (R516) -/
  | load (v : Via) (j : JobId)
  /-- DRAIN (R515) -/
  | drain (v : Via) (j : JobId)
  /-- RESUME (R515) -/
  | resume (v : Via) (j : JobId)
  /-- STOP (R515) -/
  | stop (v : Via) (j : JobId)
  /-- UNLOAD (R515) -/
  | unload (v : Via) (j : JobId)
  /-- SPDM_GET_VERSION (R536) -/
  | spdmGetVersion (h : HostDie)
  /-- SPDM_GET_CAPABILITIES (R536): version of the request, 12 or 13 -/
  | spdmGetCapabilities (h : HostDie) (version : Byte)
  /-- SPDM_NEGOTIATE_ALGORITHMS (R536): whether the requester offers the suite of Table 18-4 -/
  | spdmNegotiateAlgorithms (h : HostDie) (suite : Bool)
  /-- SPDM_GET_DIGESTS (R536) -/
  | spdmGetDigests (h : HostDie)
  /-- SPDM_GET_CERTIFICATE (R536): slot, offset, length -/
  | spdmGetCertificate (h : HostDie) (slot : Byte) (off len : W16)
  /-- SPDM_CHALLENGE (R536): slot -/
  | spdmChallenge (h : HostDie) (slot : Byte)
  /-- GET_MEASUREMENTS (R538): session it is sent in, block index, signature asked -/
  | getMeasurements (h : HostDie) (session : Option (Fin 16)) (index : Byte) (sign : Bool)
  /-- KEY_EXCHANGE (R536): requester half of the session ID -/
  | keyExchange (h : HostDie) (reqHalf : W16)
  /-- FINISH (R537): session, requester's public key when it authenticates mutually, whether the check passes -/
  | finish (h : HostDie) (k : Fin 16) (peerKey : Option (List Byte)) (ok : Bool)
  /-- SPDM_HEARTBEAT (R536) -/
  | spdmHeartbeat (h : HostDie) (k : Fin 16)
  /-- SESSION_HEARTBEAT_TIMEOUT (R536) -/
  | sessionHeartbeatTimeout (h : HostDie) (k : Fin 16)
  /-- KEY_UPDATE (R536) -/
  | keyUpdate (h : HostDie) (k : Fin 16)
  /-- END_SESSION (R536) -/
  | endSession (h : HostDie) (k : Fin 16)
  /-- DOE_ABORT (R535) -/
  | doeAbort (h : HostDie)
  /-- TENANT_SDO (R485) -/
  | tenantSdo (h : HostDie) (k : Fin 16) (req : SdoReq)
  /-- SET_HBM_KEY (R541): key unwrapped, whether the blob unwraps -/
  | setHbmKey (h : HostDie) (k : Fin 16) (key : BitVec 512) (ok : Bool)
  /-- SET_TRANSFER_KEY (R543) -/
  | setTransferKey (h : HostDie) (k : Fin 16) (index : Byte) (key : W256) (ok : Bool)
  /-- OPEN_SERVING (R542): job, serving session, step ring, keys -/
  | openServing (h : HostDie) (k : Fin 16) (j : JobId) (sess : Byte) (ring : Byte) (inKey : W256) (outKey : Option W256)
      (ok : Bool)
  /-- CLOSE_SERVING (R542) -/
  | closeServing (h : HostDie) (k : Fin 16) (j : JobId) (sess : Byte)
  /-- JOURNAL_COMMIT (R553): HOLDUP_SENSE sample before the commit, mV at the capacitor -/
  | journalCommit (sense : W16)
  /-- HOLDUP_RETRY (R558): HOLDUP_SENSE sample, mV at the capacitor -/
  | holdupRetry (sense : W16)
  /-- ENTROPY_FAIL (R527) -/
  | entropyFail
  /-- LOCKSTEP_MISMATCH (R588) -/
  | lockstepMismatch
  /-- POWER_ON_RESET_RELEASE (R567) -/
  | powerOnResetRelease
  /-- VSTBY_LOSS (R564) -/
  | vstbyLoss
  /-- RESET_N (R565): how long the pin was low, ns -/
  | resetN (lowNs : W32)
  /-- PERST (R566) -/
  | perst (h : HostDie)
  /-- IO_PG_RISE (R559) -/
  | ioPgRise
  /-- CORE_PG_RISE (R561) -/
  | corePgRise
  /-- CORE_PG_TIMEOUT (R561) -/
  | corePgTimeout
  /-- POWER_GOOD_FALL (R562): CORE_PG rather than IO_PG; RESET_N falls with it (R614) -/
  | powerGoodFall (core withReset : Bool)
  /-- FOE_WRITE (R570): the file name when the request starts, data, and whether this packet ends the data -/
  | foeWrite (start : Option (List Byte × W32)) (data : List Byte) (last : Bool)
  /-- FW_IMAGE (R571): a segment, and whether it is the last -/
  | fwImage (v : Via) (data : List Byte) (last : Bool)
  /-- FWL_GO (R572): `FWL_ADDR`, `FWL_LEN`, and the bytes the host holds there -/
  | fwlGo (h : HostDie) (addr : W64) (len : W32) (image : List Byte)
  /-- FWL_ABORT (R572) -/
  | fwlAbort (h : HostDie)
  /-- FW_LOAD_TIMEOUT (R569) -/
  | fwLoadTimeout
  /-- FW_VERIFY (R575): whether the image's signature verifies under its own key -/
  | fwVerify (sigOk : Bool)
  /-- CLOCKS_AND_RING_END (R24): trained, UCIe lanes repaired -/
  | clocksAndRingEnd (ok : Bool) (repairs : Nat)
  /-- SITE_BIST_END (R577): physical sites found failed (reef of the isle, row, column), reefs with a failed lagoon bank
  or reef router buffer, a failed perimeter unit -/
  | siteBistEnd (i : IsleId) (failed : List (Fin 36 × Fin 16 × Fin 17)) (badReefs : List (Fin 36)) (badPerimeter : Bool)
  /-- HBM_TRAINING_END (R578): trained, lanes repaired, channels that pass their test -/
  | hbmTrainingEnd (k : StackId) (ok : Bool) (repairs : Nat) (pass : W16)
  /-- ISTHMUS_TRAINING_END (R202): bridge, failing lanes of the 32 groups clockwise, then counter-clockwise -/
  | isthmusTrainingEnd (b : Fin 4) (lanes : List (Fin 67))
  /-- STRAIT_TRAINING_END (R579) -/
  | straitTrainingEnd
  /-- BRINGUP_PHASE_TIMEOUT (R580): phase 2 to 6, and the die, numbered as `DIE` of the error log -/
  | bringupPhaseTimeout (phase : Fin 7) (die : Fin 32)
  /-- SITE_FAILING (R590): physical site, condition -/
  | siteFailing (r : ReefId) (row : Fin 16) (col : Fin 17) (cause : FailCause)
  /-- REPAIR_FIELD_CHANGE (R591) -/
  | repairFieldChange (r : ReefId) (row : Fin 16)
  /-- AGEING_SAMPLE (R595): physical site, margin consumed, % -/
  | ageingSample (r : ReefId) (row : Fin 16) (col : Fin 17) (margin : Fin 101)
  /-- ISLE_TEMP_SAMPLE (R607): °C, two's complement -/
  | isleTempSample (i : IsleId) (t : W16)
  /-- SELF_CHECK_END (R567) -/
  | selfCheckEnd (r : SelfCheck) (m : MramCheck)
  /-- MRAM_COMMIT_END (R553) -/
  | mramCommitEnd
  /-- HOLDUP_SENSE_SAMPLE (R613): mV at the capacitor -/
  | holdupSenseSample (mv : W16)
  /-- CLOCK_GLIDE_STEP (R604) -/
  | clockGlideStep (i : IsleId)
  /-- PCIE_LINK_DOWN (R29) -/
  | pcieLinkDown (h : HostDie)
  /-- PCIE_LINK_UP (R568) -/
  | pcieLinkUp (h : HostDie)
  /-- THERMAL_TRIP (R608): hottest isle, strait-die or host-die sensor, °C, two's complement -/
  | thermalTrip (t : W16)
  /-- WORK_UNIT_RELEASE (R440) -/
  | workUnitRelease (j : JobId)
  /-- MASK_LOGIT_TOKEN (R384) -/
  | maskLogitToken (i : IsleId) (p : Port) (c : Cls)
  /-- IDE_KM (R548): session, key set, receive rather than transmit direction, key -/
  | ideKm (h : HostDie) (k : Fin 16) (keySet rx : Bool) (key : W256)
  /-- TAP_INSTRUCTION (R615) -/
  | tapInstruction (t : TapInstr)
  deriving DecidableEq, Repr

end Sys2Proof
end

