-- ==== Sys2Proof/Decode.lean ====
section
/-! DEFINITION. No row of the table of operations and events gives a bit: the block takes commands, not words. -/
namespace Sys2Proof

/-- The command a word spells by the table's bits: none, because no row gives bits. -/
def decodeTableWord (_nbits _w : Nat) : Option Instr := none

end Sys2Proof
end

