-- ==== Sys2Proof/Config.lean ====
section
/-! DEFINITION. What no rule of the spec fixes: free values, and the functions of standards that the spec names but does
not define (digests, ciphers, random values, fuses). Each is a constant without a body: no proof can rest on a value of
it (assumptions 3 and 7). -/
namespace Sys2Proof.Config

/-- The n-th free value drawn: a result the spec leaves open (assumption 3). -/
opaque freeValue : (w n : Nat) → BitVec w
/-- SHA-384 of bytes, 48 bytes (R291, R483, R514, R531, R547, R551; assumption 7). -/
opaque sha384 : List Byte → List Byte
/-- AES-256-GCM ciphertext and tag: key, initialisation vector, associated data, plaintext (R392, R410, R545; assumption 7). -/
opaque gcm : W256 → List Byte → List Byte → List Byte → List Byte × List Byte
/-- HKDF-SHA-384: secret, label, number of bytes derived (R410; assumption 7). -/
opaque hkdf : (secret label : List Byte) → (n : Nat) → List Byte
/-- A 32-byte data unit under AES-256-XTS: key, tweak, plaintext (R225; assumption 7). -/
opaque xts : (key : BitVec 512) → (tweak : Nat) → W256 → W256
/-- What decryption yields of a sector that was encrypted under another key: that key, the key used, the sector, the
plaintext it was written with (R225; assumption 7). -/
opaque otherKey : (was key : BitVec 512) → (sector : Nat) → W256 → W256
/-- ECDSA P-384 verification with SHA-384: public key, message, signature (R291, R482, R483; assumption 7). -/
opaque ecdsaOk : (key msg sig : List Byte) → Bool
/-- The n-th random value of the entropy source, as bytes (R527; assumption 7). -/
opaque random : (bytes n : Nat) → List Byte
/-- Journal and measurement signature under the device identity key over bytes (R552; assumption 7). -/
opaque dikSign : List Byte → List Byte
/-- Fused values: serial number, silicon revision, firmware root hash, SVN floor thermometer code (R526; assumption 7). -/
opaque serial : List Byte
opaque revision : W16
opaque rootHash : List Byte
opaque svnFloor : Nat
/-- The device's identity digest and its certificate chain (R528; assumption 7). -/
opaque deviceId : List Byte
opaque certChain : List Byte
/-- ROM version and the digest of the boot ROM (R509, R538; assumption 7). -/
opaque romVersion : W32
opaque romDigest : List Byte
/-- The fused voltage table: mV for a cell clock in MHz (R604; assumption 7). -/
opaque avsTable : Nat → Nat
/-- Silicon revision as text (R507; assumption 7). -/
opaque hwVersion : List Byte

/-- The number by which POWER_SEQ_FAIL names a rail group: 0 the I/O group, 1 the core group (R562; assumption 3). -/
opaque railGroup : Nat → Nat

/-- `DIE`, `UNIT` and `WHERE` of an error-log entry of a code for which no rule states them (R520; assumption 3). -/
opaque logDie : Nat → Nat
opaque logUnit : Nat → Nat
opaque logWhere : Nat → Nat
/-- `MFR_SW_VERSION` while the boot ROM runs: 32 bytes (R507; assumption 7). -/
opaque romText : List Byte

end Sys2Proof.Config
end

