-- ==== Sys2Proof/Machine/StateSite.lean ====
section
/-! DEFINITION. State of the compute fabric: sites, the on-die networks, lagoons, isthmus bridges and the I/O ring.
Each field names the rule that gives it; its default is its value at reset. -/
namespace Sys2Proof.Machine

/-- A flit (R132): 64-bit header, 256-bit payload. -/
structure Flit where
  /-- R132, 05 Table 5-1: the header, 64 bits. -/
  hdr : W64 := 0
  /-- R132, 05: the payload, 256 bits. -/
  payload : W256 := 0
  deriving DecidableEq, Repr

/-- The walk of one address generator (R111, R155). -/
structure Walk where
  /-- R111, 04: the next point, counted with i0 fastest. -/
  point : Nat := 0
  /-- R114, R156, 05: the scale last fetched for each row or block of a beat: address and byte. -/
  last : Map (Option (Int × Nat)) := []
  deriving DecidableEq, Repr

/-- An open iteration context, or the copy of setup code (R94, R103). -/
structure Context where
  /-- R148, 05: tag-store entry that opened the context. -/
  trig : Nat := 0
  /-- R148, 05: the iteration tag, 20 bits. -/
  tag : BitVec 20 := 0
  /-- R158, 05: address of the next instruction, 0 to 1,023 (1,024: past the store). -/
  pc : Nat := 0
  /-- R143, 05: read count of each queue. -/
  reads : Map Nat := []
  /-- R155, 05: walk of each slotted or read-only descriptor. -/
  walks : Map Walk := []
  /-- R103, 04: private scalar registers s8 to s15, 32 bits. -/
  sregs : Map W32 := []
  /-- R103, 04: private vector registers v4 to v7, lane l of v at 16v + l, 32 bits. -/
  vregs : Map W32 := []
  /-- R166, R99, 05: beats of the present instruction already done (a beat waits for its operand). -/
  beats : Nat := 0
  /-- R164, 05 (`vld`, `vpack` of two beats): beats of the present instruction already read. -/
  held : List W256 := []
  deriving DecidableEq, Repr

/-- A tag-store entry (R146). -/
structure Trigger where
  /-- R146, 05 Table 5-6: the loader's fields, 64 bits. -/
  word : W64 := 0
  /-- R95, 04: the start counter, 20 bits. -/
  counter : BitVec 20 := 0
  deriving DecidableEq, Repr

/-- What a queue knows of one ring entry; its header and payload stand in the data SRAM (R107). -/
structure Entry where
  /-- R139, R142, 05: the kind of the token held (Table 5-2). -/
  kind : BitVec 4 := 0
  /-- R140, 05: tag of the token, 20 bits. -/
  tag : BitVec 20 := 0
  /-- R140, 05: `SEQ` of the token. -/
  seq : Nat := 0
  /-- R140, 05: running count of contributions (combine mode). -/
  count : Nat := 0
  /-- R212, 06: reserved for a multicast copy, not yet filled. -/
  reserved : Bool := false
  /-- R109, R183, 06: a payload word arrived uncorrectable. -/
  bad : Bool := false
  deriving DecidableEq, Repr

/-- A site queue beside its ring in data SRAM (R136). -/
structure Queue where
  /-- R139, 05: occupied entries by entry index. -/
  entries : Map (Option Entry) := []
  /-- R136, 05: FIFO mode: ring index of the head. -/
  head : Nat := 0
  /-- R136, 05: FIFO mode: entries held. -/
  len : Nat := 0
  /-- R142, R145, 05: drained flag. -/
  drained : Bool := false
  /-- R314, 09: the queue is spilling to its lagoon ring. -/
  spilling : Bool := false
  /-- R314, 09: time-base time at which a blocked token began to wait. -/
  blockedSince : Option Nat := none
  /-- R314, 09: tokens of the present refill pass still to be asked for. -/
  refill : Nat := 0
  /-- R314, 09: the refill request now outstanding. -/
  refillOut : Bool := false
  /-- R314, 09: an entry has been freed while the queue spills: a refill pass is owed. -/
  refillDue : Bool := false
  /-- R314, 09: tokens of the queue in its spill ring, or on the way to it or back. -/
  out : Nat := 0
  /-- R314, 09: QUEUE_SPILL has been recorded this epoch. -/
  spillLogged : Bool := false
  deriving DecidableEq, Repr

/-- A multicast reservation at a target site (R212). -/
structure Reservation where
  /-- R212, 06: the agent's reef within the isle. -/
  agent : Nat := 0
  /-- R212, 06: queue the token is for. -/
  queue : Nat := 0
  /-- R212, 06: tag of the token. -/
  tag : BitVec 20 := 0
  /-- R212, 06: `SEQ` of the token. -/
  seq : Nat := 0
  /-- R212, 06: granted, the entry marked. -/
  granted : Bool := false
  deriving DecidableEq, Repr

/-- Health counters of a physical site (R108, R518, R590). -/
structure SiteHealth where
  /-- R108, 04: corrections of one bit. -/
  single : Nat := 0
  /-- R108, 04: corrections of two bits. -/
  double : Nat := 0
  /-- R590, 20: times (interval counter, ns) of recent double corrections. -/
  doubleTimes : List Nat := []
  /-- R590, 20: times of recent uncorrectable flit headers. -/
  flitTimes : List Nat := []
  /-- R595, 20: last ageing margin measured, percent used. -/
  ageing : Nat := 0
  /-- R590, 20 (condition 1): an uncorrectable word has been met. -/
  hard : Bool := false
  /-- R590, 20: the site is failing; its router position is in bypass (R206). -/
  failing : Bool := false
  deriving DecidableEq, Repr

/-- One compute site (R93). -/
structure Site where
  /-- R158, 05: program store, 1,024 × 64 bits. -/
  prog : Map W64 := []
  /-- R105, 04: data SRAM, byte addresses 0x0000 to 0xBFFF. -/
  sram : Map Byte := []
  /-- R93, R120, 04: accumulator buffer, lane l of tile t at 16t + l, 32 bits. -/
  tiles : Map W32 := []
  /-- R93, 04 Table 4-4: tile metadata, 64 × 16 bits. -/
  tmeta : Map W16 := []
  /-- R93, R102, 04: shared scalar registers s0 to s7, 32 bits. -/
  sregs : Map W32 := []
  /-- R93, R102, 04: shared vector registers v0 to v3, lane l of v at 16v + l, 32 bits. -/
  vregs : Map W32 := []
  /-- R146, 05: tag store, 32 entries. -/
  trigs : Map Trigger := []
  /-- R148, 05: the tag store is armed. -/
  armed : Bool := false
  /-- R94, 04: the four iteration contexts; a missing key is a free context. -/
  ctxs : Map (Option Context) := []
  /-- R100, 04: open contexts, oldest first. -/
  order : List Nat := []
  /-- R103, 05: setup code, while it runs. -/
  setup : Option Context := none
  /-- R155, 05: walk of each ordered-mode descriptor (held by its owning trigger). -/
  walks : Map Walk := []
  /-- R151, 05: working copy of the descriptor area, 176 words from 0xBA80, taken when setup code starts. -/
  work : Map W64 := []
  /-- R136, 05: the 64 queues. -/
  queues : Map Queue := []
  /-- R159, 05 Table 5-10: sticky bits [6:0] of the status word. -/
  sticky : W32 := 0
  /-- R154, R160, 05: epoch register, 4 bits. -/
  epoch : BitVec 4 := 0
  /-- R154, R160, 05: a forced reconfiguration is in progress. -/
  forced : Bool := false
  /-- R154, R182, 05: discard count. -/
  discard : Nat := 0
  /-- R109, R170, 05: why the site stopped, a status code. -/
  stopped : Option W16 := none
  /-- R182, 06: Stop (control operation 5) was executed. -/
  controlStop : Bool := false
  /-- R99, 04: the unit (1 vector pipeline, 2 cube, 3 inject port) at which an issued instruction waits, to who issued it, plus 1
  (context 0 to 3, setup code 4). -/
  units : Map Nat := []
  /-- R126, 04: sequencer and units are gated. -/
  gated : Bool := false
  /-- R110, 04: next scrub word, 0 to 7,679. -/
  scrub : Nat := 0
  /-- R110, 04: the scrub word has waited 64 cell clocks. -/
  scrubOverdue : Bool := false
  /-- R145, 05: drained has been reported this epoch. -/
  drainedReported : Bool := false
  /-- R128, 04: operands waiting at the W port on the forwarding path (tag, beat). -/
  fwdW : List (BitVec 20 × W256) := []
  /-- R128, 04: operands waiting at the N port on the forwarding path. -/
  fwdN : List (BitVec 20 × W256) := []
  /-- R212, 06: multicast reservations held, at most 4. -/
  resv : List Reservation := []
  /-- R298, 09: tenant slot of the site's last epoch; none: no epoch since power-up. -/
  lastSlot : Option Nat := none
  deriving DecidableEq, Repr

/-- Where a flit goes: an isle endpoint by its header, or a die of the I/O ring. -/
inductive Dest where
  | header
  | die (d : RingDie)
  deriving DecidableEq, Repr

/-- A flit in a buffer with what its injecting router fixed (R176). -/
structure Transit where
  flit : Flit := {}
  /-- R176: the unit that injected it. -/
  src : Node := .site 0
  dst : Dest := .header
  /-- R176: the path uses the express network (D ≥ 2, or a lagoon). -/
  express : Bool := false
  /-- R26, R27: direction around the I/O ring. -/
  cw : Bool := true
  /-- R183: a payload word is uncorrectable. -/
  bad : Bool := false
  /-- R314: a token that comes back from a spill ring (how the site tells is not stated). -/
  refill : Bool := false
  /-- R160: the status token of a READ_STATUS (how perimeter control tells is not stated; assumption 119). -/
  answer : Bool := false
  /-- R26, R414: a strait record on its way over the I/O ring to the link that is to send it. -/
  cargo : Option (Nat × StraitRecord) := none
  /-- R211: a multicast agent's copy (how the target tells is not stated; assumption 132). -/
  copy : Bool := false
  /-- R199: edge index by which it entered the sending port of a bridge. -/
  edge : Nat := 0
  deriving DecidableEq, Repr

/-- Flit buffers and hop credits of every network (R178, R179). -/
structure Fabric where
  /-- R178, 06: flit buffers by node, input port and class (`bufKey`), oldest first. -/
  bufs : Map (List Transit) := []
  /-- R179, 06: hop credits that the sender of each link and class has spent: its counter is the receiver's buffer count
  less this. -/
  used : Map Nat := []
  deriving DecidableEq, Repr

/-- A frame of a lane group (R197). -/
structure Frame where
  /-- R197, 06: its 256 bytes, byte 0 at the least significant bits. -/
  bits : BitVec 2048 := 0
  /-- R183, R198: which of its flits have an uncorrectable payload word, bit i for flit i (how the frame says so is not
  stated). -/
  bad : Nat := 0
  /-- R198, 06: the flits that end in it. -/
  sent : List Transit := []
  /-- R203, 06: the lost group whose stream it continues, where it is sent on another group's lanes (how the frame says so is not
  stated; assumption 91). -/
  own : Option Nat := none
  deriving DecidableEq, Repr

/-- One lane group of a bridge direction (R196 to R203). -/
structure LaneGroup where
  /-- R199, 06: flits the port accepted, waiting to be framed, oldest first (local traffic of the sending isle). -/
  localQ : List Transit := []
  /-- R18, 06: transit flits waiting to be framed. -/
  transitQ : List Transit := []
  /-- R198, 06: what is left of the record in progress: the bytes up to the end of each of its flits. -/
  tail : List (List Byte × Transit) := []
  /-- R19, 06: the record in progress is of transit traffic. -/
  tailTransit : Bool := false
  /-- R203, 06: frames of lost groups that this group sends before its own. -/
  early : List Frame := []
  /-- R197, 06: next frame sequence number, modulo 512. -/
  fseq : Nat := 0
  /-- R200, 06: frames sent and not acknowledged, oldest first, at most 64, 256 bytes each. -/
  unacked : List (Nat × Frame) := []
  /-- R200, 06: frames on the wires, oldest first. -/
  wire : List Frame := []
  /-- R201, 06: receive buffers the sender counts free, from 64. -/
  credit : Nat := 64
  /-- R200, 06: a NAK has been received and not yet served. -/
  nakIn : Bool := false
  /-- R200, 06: NAKs of the oldest unacknowledged frame. -/
  naks : Nat := 0
  /-- R200, 06: the group is retraining. -/
  retraining : Bool := false
  /-- R203, 06: spare lanes left, from 2. -/
  spares : Nat := 2
  /-- R202, R203, 06: the group is down. -/
  down : Bool := false
  /-- R200, 06: receiver: next `FSEQ` expected. -/
  expect : Nat := 0
  /-- R198, 06: receiver: the record in progress: its header, the flits delivered, the flits to come. -/
  rxRun : Option (W64 × Nat × Nat) := none
  /-- R198, 06: receiver: bytes of the flit in progress. -/
  rxPart : List Byte := []
  /-- R200, 06: receiver: a NAK is owed. -/
  nakOut : Bool := false
  /-- R200, 06: receiver: discarding until the resent frame arrives. -/
  discarding : Bool := false
  /-- R201, 06: receiver: frame buffers freed and not yet returned in `CRED`. -/
  freed : Nat := 0
  /-- R201, 06: receiver: flits received in order, waiting to leave the port, with the frame buffer each ends. -/
  rx : List (Transit × Bool) := []
  /-- R197, 06: an acknowledgement is owed to the sender. -/
  ackOwed : Bool := false
  deriving DecidableEq, Repr

/-- One direction of an isthmus bridge (R14, R196). -/
structure BridgeState where
  /-- R196, 06: the 32 lane groups. -/
  groups : Map LaneGroup := []
  /-- R19, 01: the last grant at the sending port went to transit. Which source is granted first is not stated: reset lets
  transit go first (DESIGN CHOICE, assumption 117). -/
  lastTransit : Bool := false
  deriving DecidableEq, Repr

/-- The I/O ring and the trust unit's flits (R22 to R28). -/
structure RingState where
  /-- R27, 01: failed ring segments; segment k joins position k and k + 1. -/
  failed : List Nat := []
  /-- R28, 01: flits trust die T0 has consumed, oldest first; its twin consumes each on the same edge. -/
  consumed : List Flit := []
  /-- R28, 01: flits trust die T1 has consumed, oldest first. -/
  consumed1 : List Flit := []
  /-- R28, R160, 05: payload of the last status token each site has returned, as the control cores hold it. -/
  status : Map W256 := []
  /-- R28, 01: trust-clock cycles by which the nearer die delayed its own copy of the last flit. -/
  lastDelay : Nat := 0
  deriving DecidableEq, Repr

/-- An acquired or delivered block of a `DIR` 1 stream (R277, R285). -/
structure Block where
  /-- R269, 08: list position, modulo 2^32. -/
  pos : Nat := 0
  /-- R275, 08: pool slot that holds it, unless escaped. -/
  slot : Nat := 0
  /-- R284, 08: escape chunk that holds it. -/
  chunk : Option Nat := none
  /-- R275, 08: effective tag. -/
  tag : BitVec 20 := 0
  /-- R268, 08: size in 32-byte entries. -/
  entries : Nat := 0
  deriving DecidableEq, Repr

/-- A waiting semaphore operation (R278). -/
structure SemWait where
  /-- R276, 08: the request token. -/
  flit : Flit := {}
  deriving DecidableEq, Repr

/-- The refill of an escaped block in progress (R286). -/
structure Refill where
  /-- R286, 08: route entry of the replies. -/
  route : W64 := 0
  /-- R286, 08: tag of the replies. -/
  tag : BitVec 20 := 0
  /-- R286, 08: `SEQ` of the next reply. -/
  seq : Nat := 0
  /-- R286, 08: stack of the chunk. -/
  stack : Nat := 0
  /-- R286, 08: next sector to read, stack offset / 32. -/
  sector : Nat := 0
  /-- R286, 08: replies still to be sent. -/
  left : Nat := 0
  /-- R286, 08: time of the request, the deadline of its reads. -/
  asked : Nat := 0
  /-- R286, 08: job of the pair's stream. -/
  job : Nat := 0
  deriving DecidableEq, Repr

/-- A `FETCH` accepted while a refill of its pair is outstanding (R279): of an escaped block, or with the entries that it
names as they stood when it was accepted. -/
structure FetchWait where
  /-- R279, 08: route, tag and first `SEQ` of the replies; for an escaped block all of its refill. -/
  refill : Refill := {}
  /-- R279, 08: entries of a block in its slot; none: an escaped block. -/
  data : Option (List W256) := none
  deriving DecidableEq, Repr

/-- One semaphore pair of a bank (R193). -/
structure Pair where
  /-- R193, 06: full counter, 16 bits. -/
  full : W16 := 0
  /-- R193, 06: empty counter, 16 bits. -/
  empty : W16 := 0
  /-- R274, 08: delivered blocks not yet acquired, oldest first. -/
  delivered : List Block := []
  /-- R279, 08: acquired blocks, oldest first, at most 16. -/
  acquired : List Block := []
  /-- R279, R286, 08: the refill of an escaped block that is outstanding. -/
  refill : Option Refill := none
  /-- R279, 08: accepted `FETCH` operations that wait for it, oldest first. -/
  fetches : List FetchWait := []
  /-- R280, R286, 08: chunks of released blocks that a refill still reads. -/
  freeing : List Nat := []
  deriving DecidableEq, Repr

/-- A line of a lagoon cache region (R192). -/
structure CacheLine where
  /-- R192, 06: HA of the line, divided by 256. -/
  line : Nat := 0
  /-- R192, 06: its 256 bytes, as eight sectors. -/
  data : List W256 := []
  deriving DecidableEq, Repr

/-- A lagoon channel (R189). -/
structure Channel where
  /-- R189, 06: word 0. -/
  w0 : W64 := 0
  /-- R189, 06: word 1, a route entry. -/
  w1 : W64 := 0
  /-- R194, 06: spill mode: place in the ring of the oldest spilled token. -/
  first : Nat := 0
  /-- R194, 06: spill mode: spilled tokens that the ring holds. -/
  held : Nat := 0
  deriving DecidableEq, Repr

/-- A multicast in service at an agent (R211). -/
structure McActive where
  /-- R211, 06: the flit being served. -/
  flit : Flit := {}
  /-- R211, 06: start of this attempt, time-base ns. -/
  start : Nat := 0
  /-- R211, 06: targets granted so far. -/
  granted : Nat := 0
  /-- R211, 06: a reservation request for the next target is out. -/
  asked : Bool := false
  /-- R211, 06: the attempt timed out; it restarts 1 µs after this time. -/
  retryAt : Option Nat := none
  deriving DecidableEq, Repr

/-- One lagoon with its semaphore bank and its reef's multicast agent (R186, R193, R210). -/
structure Lagoon where
  /-- R186, 06: 4 MiB as 131,072 entries of 32 bytes, entry address / 32. -/
  mem : Map W256 := []
  /-- R187, 06: the 16 region descriptors, 64 bits. -/
  regions : Map W64 := []
  /-- R189, 06: the 32 channels. -/
  chans : Map Channel := []
  /-- R190, 06: epoch of its partition, 4 bits. -/
  epoch : BitVec 4 := 0
  /-- R190, 06: a forced reconfiguration is in progress. -/
  forced : Bool := false
  /-- R182, 06: flits discarded. -/
  discard : Nat := 0
  /-- R194, 06: regions whose SPILL_REGION_FULL has been recorded this epoch. -/
  spillFull : List Nat := []
  /-- R192, 06: cache sets, most recently used first. -/
  cache : Map (List CacheLine) := []
  /-- R192, 06: reads that wait for a line fetch: line, stream, list position, granule. -/
  fills : List (Nat × Nat × Nat × Nat) := []
  /-- R192, 06: fetched lines that have arrived and not yet filled a way. -/
  fillData : Map (List W256) := []
  /-- R193, 06: the 128 semaphore pairs by bank slot. -/
  pairs : Map Pair := []
  /-- R278, 08: waiting operations, oldest first, at most 32. -/
  waits : List SemWait := []
  /-- R583, 20: next entry to scrub. -/
  scrub : Nat := 0
  /-- R186, 06: corrections counted. -/
  corrected : Nat := 0
  /-- R188, 06: regions being zeroed. -/
  zeroing : List Nat := []
  /-- R210, 06: multicast groups: targets as (site order × 64 + queue), ascending. -/
  groups : Map (List Nat) := []
  /-- R211, 06: multicast queue, at most 16. -/
  mcq : List Flit := []
  /-- R211, 06: the flit in service. -/
  mc : Option McActive := none
  /-- R311, 09: the last job on this reef stopped without a drain: the next Begin epoch has its forced bit set. -/
  mustForce : Bool := false
  deriving DecidableEq, Repr

end Sys2Proof.Machine
end

