-- ==== Sys2Proof/Machine/StateMem.lean ====
section
/-! DEFINITION. State of the memory side: HBM stacks with their controllers, windows and accumulate units, and the
stream arbiters. Each field names the rule that gives it; its default is its value at reset. -/
namespace Sys2Proof.Machine

/-- Who makes an HBM request (R223). -/
inductive Requester where
  | job (slot : Nat) (job : Nat)
  | firmware
  | scrubber
  deriving DecidableEq, Repr

/-- Where the data of a completed read goes, or what a completed write stands for. -/
inductive ReplyTo where
  | none
  /-- R242: reply i of a narrow-read request: window, reorder ticket. -/
  | window (w : Nat) (ticket : Nat)
  /-- R274: granule of a stream block: isle, stream, list position, granule. -/
  | stream (i : IsleId) (sid : Nat) (pos : Nat) (granule : Nat)
  /-- R267: block descriptor of a list: isle, stream, position. -/
  | list (i : IsleId) (sid : Nat) (pos : Nat)
  /-- R286: part of the refill of an escaped block: reef, bank slot. -/
  | refill (r : ReefId) (pair : Nat)
  /-- R284: granule of an escape spill. -/
  | spill (i : IsleId) (granule : Nat)
  /-- R192: lagoon cache line fill. -/
  | fill (r : ReefId) (line : Nat)
  /-- R232: patrol scrub. -/
  | scrub
  /-- R224: overwrite of a region. -/
  | zero (region : Nat)
  /-- R496: outbound transfer of a DMA ring. -/
  | dma (r : RingId)
  /-- an access whose data its requester has: only its burst slots are still owed (R233). -/
  | taken
  deriving DecidableEq, Repr

/-- A request a controller holds (R223, R233). -/
structure HbmReq where
  /-- R233, 07: class P0 to P4. -/
  cls : Nat := 0
  /-- R219, 07: first sector, stack offset / 32. -/
  sector : Nat := 0
  /-- R220, 07: sectors. -/
  count : Nat := 1
  /-- R223, 07: write. -/
  write : Bool := false
  /-- R237, 07: data written, or data read as it stood at acceptance. -/
  data : List W256 := []
  /-- R223, 07: requester. -/
  who : Requester := .firmware
  /-- R230, 07: job for which it is made. -/
  job : Option Nat := none
  /-- R272, 07: deadline, time-base ns. -/
  deadline : Nat := 0
  /-- R235, 07: stream id, for ties. -/
  sid : Nat := 0
  /-- R235, 07: burst slots still to be granted. -/
  slots : Nat := 1
  /-- R231, 07: which of its sectors were poisoned at acceptance. -/
  bad : List Nat := []
  /-- R229, 07: which of its sectors a write accepted after it has overwritten. -/
  overwritten : List Nat := []
  /-- R231, R237, 07: which of its sectors a whole write accepted after it has replaced: they leave the poison table. -/
  replaced : List Nat := []
  /-- R237, 07: its number in the order of acceptance. -/
  seq : Nat := 0
  /-- R274, 07: what waits for it. -/
  reply : ReplyTo := .none
  deriving DecidableEq, Repr

/-- A reply held for window order (R243). -/
structure HeldReply where
  /-- R243, 07: the window. -/
  window : Nat := 0
  /-- R242, 07: tag of the reply. -/
  tag : BitVec 20 := 0
  /-- R242, 07: `SEQ` of the reply. -/
  seq : Nat := 0
  /-- R243, 07: its data, once read; `none` while the read is outstanding. -/
  data : Option W256 := none
  /-- R243, 07: ticket that the read completes. -/
  ticket : Nat := 0
  /-- R242, 07: first ticket of its request. -/
  req : Nat := 0
  deriving DecidableEq, Repr

/-- A controller window (R239). -/
structure Window where
  /-- R239, 07: descriptor word 0. -/
  w0 : W64 := 0
  /-- R239, 07: descriptor word 1. -/
  w1 : W64 := 0
  /-- R239, 07: descriptor word 2, the reply route. -/
  w2 : W64 := 0
  deriving DecidableEq, Repr

/-- A pending counter wait of an AU (R250). -/
structure AuWait where
  /-- R250, 07: window. -/
  window : Nat := 0
  /-- R250, 07: tag of the reply. -/
  tag : BitVec 20 := 0
  /-- R250, 07: target value, 32 bits. -/
  target : W32 := 0
  deriving DecidableEq, Repr

/-- Counts of one HBM channel (R254, R261). -/
structure HbmChannel where
  /-- R254, 07: two-symbol corrections since placed in service. -/
  two : Nat := 0
  /-- R254, 07: uncorrectable sectors since placed in service. -/
  ue : Nat := 0
  /-- R261, 07: one-symbol corrections since the last HBM_CORRECTED entry. -/
  oneSince : Nat := 0
  /-- R261, 07: two-symbol corrections since the last HBM_CORRECTED entry. -/
  twoSince : Nat := 0
  /-- R261, 07: interval time of the last HBM_CORRECTED entry. -/
  lastLog : Option Nat := none
  /-- R255, 07: the channel is failing. -/
  failing : Bool := false
  deriving DecidableEq, Repr

/-- An encrypted sector as an ideal cipher leaves it (R225, assumption 7): the XTS key it is under, and what that key gives
back. Its tweak is its place. Encrypted zeros are the default. -/
structure Sealed where
  /-- R225, 07: XTS key, 512 bits. -/
  key : BitVec 512 := 0
  /-- R225, 07: what decryption under that key and the tweak of its place yields. -/
  plain : W256 := 0
  deriving DecidableEq, Repr

/-- One HBM stack with its controller and accumulate unit (R214 to R261). -/
structure Stack where
  /-- R220, R225, R248, 07: encrypted sectors by stack offset / 32; a sector never written reads as zero. -/
  mem : Map Sealed := []
  /-- R226, 07: the controller's key table: XTS key of each tenant slot, 512 bits; 0: none. -/
  keys : Map (BitVec 512) := []
  /-- R259, 07: escape map: chunk 0 to 63 of the stack to owning slot × 256 + job, plus 1; 0 free. -/
  escMap : Map Nat := []
  /-- R237, 07: requests accepted so far. -/
  accepted : Nat := 0
  /-- R221, 07: 256 region descriptors, 64 bits; an unlisted one has `JOB` 0xFF and all else 0. Descriptor 0 describes the
  escape region: offset 0, 16 MiB, any job, `KIND` 4 (R221, R258). -/
  regions : Map W64 := [(0, 0x4FF000038000#64)]
  /-- R230, 07: poison table, at most 1,024 sectors. -/
  poison : List Nat := []
  /-- R256, 07 (`HBM_CH_ACTIVE_k`): bit c: channel c in service, 16 bits. -/
  active : W16 := 0xFFFF#16
  /-- R252, 07: refresh multiplier in force. -/
  refresh : Nat := 1
  /-- R252, 07: multiplier set, taking effect at the next refresh interval. -/
  refreshSet : Nat := 1
  /-- R235, 07: requests accepted and not yet granted, oldest first. -/
  queue : List HbmReq := []
  /-- R233, 07: requests that wait in their senders for acceptance, oldest first. -/
  arriving : List HbmReq := []
  /-- R235, 07: requests granted, whose data has not yet returned, oldest first. -/
  issued : List HbmReq := []
  /-- R235, 07: `p3_wait` of each pseudo-channel. -/
  p3wait : Map Nat := []
  /-- R235, 07: `p4_wait` of each pseudo-channel. -/
  p4wait : Map Nat := []
  /-- R239, 07: the 64 windows. -/
  windows : Map Window := []
  /-- R240, 07: epoch of each window (R240, 09). -/
  epochs : Map Nat := []
  /-- R243, 07: reorder buffer, at most 256 sectors, in request order. -/
  reorder : List HeldReply := []
  /-- R243, 07: next reorder ticket. -/
  ticket : Nat := 0
  /-- R246, 07: lane buffers: per pseudo-channel at most 16 (sector, word), most recently used first. -/
  lanes : Map (List (Nat × W256)) := []
  /-- R250, 07: the 256 accumulate counters, 32 bits. -/
  counters : Map W32 := []
  /-- R250, 07: pending counter waits, oldest first, at most 64. -/
  waits : List AuWait := []
  /-- R232, 07: next sector of the patrol scrub. -/
  scrub : Nat := 0
  /-- R254, 07: per-channel counts. -/
  chans : Map HbmChannel := []
  /-- R256, 07: channel being mapped out; no request is served. -/
  mapping : Option Nat := none
  /-- R224, 07: regions being zero-filled, by region index. -/
  zeroing : List Nat := []
  /-- R578, 18: firmware HBM key, 64 bytes (Table 18-3). -/
  fwKey : List Byte := []
  /-- R578, 19: trained. -/
  trained : Bool := false
  /-- R510, 17: interval time of the last THERMAL_WARN. -/
  warned : Option Nat := none
  /-- R517, 17: channels the owner has marked for return at power-up, 16 bits. -/
  returning : W16 := 0
  deriving DecidableEq, Repr

/-- A block in progress (R264). -/
structure InBlock where
  /-- R269, 08: list position. -/
  pos : Nat := 0
  /-- R267, 08: its four descriptor words. -/
  words : List W64 := []
  /-- R269, 08: pass. -/
  pass : Nat := 0
  /-- R271, 08: deadline, time-base ns. -/
  deadline : Nat := 0
  /-- R269, 08: effective tag. -/
  tag : BitVec 20 := 0
  /-- R275, 08: pool slot. -/
  slot : Nat := 0
  /-- R272, 08: granules dispatched. -/
  sent : Nat := 0
  /-- R274, 08: granules completed. -/
  doneCount : Nat := 0
  /-- R192, 08: granules of a cacheable range that wait to be read through the lagoon. -/
  cached : List Nat := []
  /-- R274, 08: requests that have completed, not yet placed: granule and data. -/
  got : Map (List W256) := []
  deriving DecidableEq, Repr

/-- One stream of an arbiter (R265). -/
structure Stream where
  /-- R265, 08 Table 8-1: the five descriptor words. -/
  words : List W64 := []
  /-- R269, 08: present pass. -/
  pass : Nat := 0
  /-- R269, 08: next block of the list to start. -/
  next : Nat := 0
  /-- R267, 08: list position up to which blocks have been requested. -/
  asked : Nat := 0
  /-- R267, 08: block descriptors read ahead of issue, at most eight, by list position. -/
  ahead : Map (List W64) := []
  /-- R264, 08: blocks in progress, at most two, in list order. -/
  inprog : List InBlock := []
  /-- R275, 08: pool slots in use. -/
  used : List Nat := []
  /-- R269, 08: the stream is done. -/
  done : Bool := false
  /-- R273, 08: STREAM_LATE has been recorded this epoch. -/
  lateLogged : Bool := false
  /-- R288, 08: stopped by a job stop: nothing further starts. -/
  stopped : Bool := false
  deriving DecidableEq, Repr

/-- An escape spill in progress (R284). -/
structure Escape where
  /-- R284, 08: victim stream. -/
  sid : Nat := 0
  /-- R284, 08: the block. -/
  block : Block := {}
  /-- R284, 08: chunk. -/
  chunk : Nat := 0
  /-- R284, 08: granules accepted by the controller. -/
  accepted : Nat := 0
  deriving DecidableEq, Repr

/-- A cycle of the wait-for graph that is being timed (R283, R284). -/
structure Cycle where
  /-- R283, 08: member streams, ascending. -/
  set : List Nat := []
  /-- R287, 08: their jobs. -/
  jobs : List Nat := []
  /-- R284, 08: interval time since which it has lasted, no member has delivered and no block has escaped. -/
  since : Nat := 0
  /-- R287, 08: interval time since which it has had no victim, or no chunk has been free. -/
  stuck : Option Nat := none
  /-- R289, 08: it has been counted as having reached 4 µs. -/
  counted : Bool := false
  deriving DecidableEq, Repr

/-- The stream arbiter of an isle (R262). -/
structure Arbiter where
  /-- R262, 08: up to 256 streams. -/
  streams : Map Stream := []
  /-- R265, 08: route table, 64 entries. -/
  routes : Map W64 := []
  /-- R193, 06: semaphore map: pair id to (lagoon reef × 128 + bank slot) + 1; 0: not assigned. -/
  semMap : Map Nat := []
  /-- R270, 08: tide count of each stage, keyed job × 256 + stage. -/
  tides : Map Nat := []
  /-- R271, 08: stamps of the last 256 tide points of each stage, newest first (number, stamp). -/
  stamps : Map (List (Nat × Nat)) := []
  /-- R283, R284, 08: cycles being timed. -/
  cycles : List Cycle := []
  /-- R284, 08: the one escape in progress. -/
  escape : Option Escape := none
  deriving DecidableEq, Repr

end Sys2Proof.Machine
end

