-- ==== Sys2Proof/Machine/StateJobs.lean ====
section
/-! DEFINITION. State of jobs and of the engines that serve them: plans and epochs, the causeway, the serving engine,
straits and collectives. Each field names the rule that gives it; its default is its value at reset. -/
namespace Sys2Proof.Machine

/-- A staging slot of a causeway or mask engine (R349, R384). -/
structure Staging where
  /-- R349, 11: 1 teacher, 2 student; 0 free (mask engine: 1 in use). -/
  role : Nat := 0
  /-- R347, R355, 11: number of the row's key in the epoch. -/
  key : Nat := 0
  /-- R347, 11: row within its key. -/
  row : Nat := 0
  /-- R347, 11: BF16 logits by vocabulary id, 16 bits. -/
  logits : Map W16 := []
  /-- R349, 11: tokens received. -/
  got : Nat := 0
  deriving DecidableEq, Repr

/-- Progress of one logit input queue (R347, R356). -/
structure InQueue where
  /-- R356, 11: keys begun in the epoch on this queue. -/
  begun : Nat := 0
  /-- R347, 11: key in progress. -/
  key : Nat := 0
  /-- R347, 11: row in progress. -/
  row : Nat := 0
  /-- R347, 11: tokens of the row received. -/
  tok : Nat := 0
  /-- R350, 11: the key in progress came as an empty token. -/
  empty : Bool := false
  /-- R356, 11: some key has been seen this epoch. -/
  seen : Bool := false
  /-- R359, 11: tags of the tokens of each key (by number) and row, for the gradient. -/
  tags : List (Nat × Nat × BitVec 20) := []
  deriving DecidableEq, Repr

/-- The causeway unit of one isle (R344 to R365). -/
structure Causeway where
  /-- R363, 11 Table 11-5: the causeway record in force, 1,152 bytes; empty: the unit is off. -/
  record : List Byte := []
  /-- R363, 11: job that holds the unit. -/
  job : Option Nat := none
  /-- R154, 11: epoch of its partition. -/
  epoch : BitVec 4 := 0
  /-- R349, 11: the four staging slots. -/
  slots : Map Staging := []
  /-- R347, 11: progress of the 32 input queues. -/
  queues : Map InQueue := []
  /-- R355, 11: keys the reducer has begun. -/
  nR : Nat := 0
  /-- R355, 11: keys the matcher has finished. -/
  nM : Nat := 0
  /-- R356, 11: teacher key number 0 of the epoch. -/
  key0 : Option Nat := none
  /-- R356, 11: student key number 0 of the epoch. -/
  skey0 : Option Nat := none
  /-- R362, 11: number and key of the last key of records that the strait die let through. -/
  strait : Option (Nat × Nat) := none
  /-- R355, 11: records of each ring slot written so far, in row order (their bytes stand in the lagoons). -/
  written : Map Nat := []
  /-- R352, 11: number of the next key to reduce, and its next row. -/
  nextKey : Nat := 0
  nextRow : Nat := 0
  /-- R350, 11: empty keys: number × 4 + role (3: record of the key), with the queues that brought them. -/
  empties : Map (List Nat) := []
  /-- R351, 11: labels by number of the key × 16,384 + row, plus 1 (32 bits). -/
  labels : Map Nat := []
  /-- R351, 11: label tokens received of each key. -/
  labelToks : Map Nat := []
  /-- R358, 11: loss word `KLw` of the key being matched. -/
  kl : W256 := 0
  /-- R358, 11: loss word `CEw` of the key being matched. -/
  ce : W256 := 0
  /-- R358, 11: rows of the present key matched. -/
  rowsDone : Nat := 0
  /-- R359, 11: tokens of the key sent on each gradient route. -/
  dzSeq : Map Nat := []
  /-- R353, 11: bytes of a remote record received so far on queue 63. -/
  partialRec : List Byte := []
  /-- R365, 11: CAUSEWAY_NAN_ROW recorded this epoch. -/
  nanLogged : Bool := false
  /-- R364, 11 (`CW_TEACHER_STALL_n`): interval time from which the present wait of teacher input for ring space is not yet counted. -/
  stallFrom : Option Nat := none
  /-- R364, 11 (`CW_STUDENT_WAIT_n`): the same of a student row that waits for its record. -/
  waitFrom : Option Nat := none
  deriving DecidableEq, Repr

/-- Request states (R370, Table 12-4). -/
inductive ReqState where
  | free | queued | prefill | decode | closing
  deriving DecidableEq, Repr

/-- One tracked request (R366 to R398). -/
structure Request where
  /-- R370, 12 Table 12-4: state. -/
  state : ReqState := .free
  /-- R368, 12 Table 12-1: session. -/
  session : Nat := 0
  /-- R368, 12: `POLICY.LATE`. -/
  policyLate : Bool := false
  /-- R368, 12: `MAXNEW`. -/
  maxNew : Nat := 0
  /-- R368, 12: `DEADLINE`, ns; 0: none. -/
  deadline : Nat := 0
  /-- R368, 12 Table 12-3: the 64-byte parameter block. -/
  params : List Byte := []
  /-- R370, 12: `PLEN`. -/
  plen : Nat := 0
  /-- R370, 12: token history: prompt and accepted output. -/
  tokens : List W32 := []
  /-- R376, 12: KV length. -/
  kv : Nat := 0
  /-- R376, 12: page table: page set of each block of 16 positions, plus 1. -/
  pages : Map Nat := []
  /-- R371, 12: acceptance order. -/
  order : Nat := 0
  /-- R372, 12: in a batch step in flight. -/
  inFlight : Bool := false
  /-- R378, 12: paused. -/
  paused : Bool := false
  /-- R395, 12: late. -/
  late : Bool := false
  /-- R396, 12: marked for cancellation. -/
  cancel : Bool := false
  /-- R388, 12: speculation epoch, 16 bits. -/
  spec : W16 := 0
  /-- R385, 12: automaton state reached by the accepted tokens. -/
  auto : Nat := 0
  /-- R392, 12: record count of the submission. -/
  records : Nat := 0
  /-- R393, 12: generation counter of `REQ`, 32 bits. -/
  gen : Nat := 0
  /-- R394, 12: finish reason, once ended. -/
  fin : Nat := 0
  /-- R381, 12: nodes whose `REFS` the request holds. -/
  nodes : List Nat := []
  /-- R375, 18: production number of its treatment record, which frees the request when committed. -/
  recAt : Option Nat := none
  /-- R398, 12: input hash, 48 bytes. -/
  inHash : List Byte := []
  /-- R551, 18: stamp at which the submission was accepted. -/
  tAccept : Nat := 0
  /-- R551, 18: completion stamp of the step that produced the first token; 0 none. -/
  tFirst : Nat := 0
  /-- R551, 18: model measurement at acceptance, 48 bytes. -/
  model : List Byte := []
  /-- R383, R398, 12: mask hash of the table used, 48 bytes, or none. -/
  maskHash : List Byte := []
  deriving DecidableEq, Repr

/-- A page set's state (R377). -/
inductive PageState where
  | free | priv (req : Nat) | indexed (node : Nat) | provisional (req : Nat) (spec : W16)
  deriving DecidableEq, Repr

/-- A prefix-index node (R380). -/
structure IndexNode where
  /-- R380, 12 Table 12-7: 16 tokens. -/
  toks : List W32 := []
  /-- R380, 12: page set. -/
  set : Nat := 0
  /-- R380, 12: parent. -/
  parent : Nat := 0
  /-- R380, 12: `REFS`. -/
  refs : Nat := 0
  /-- R380, 12: `NCHILD`. -/
  nchild : Nat := 0
  /-- R380, 12: `LAST_USE`. -/
  lastUse : Nat := 0
  deriving DecidableEq, Repr

/-- A prefix-index bucket (R380). -/
structure IndexBucket where
  /-- R380, 12 Table 12-8: fingerprint, 64 bits; 0 empty. -/
  fp : W64 := 0
  /-- R380, 12: child node; 0xFFFF_FFFF deleted. -/
  child : Nat := 0
  /-- R380, 12: parent node. -/
  parent : Nat := 0
  deriving DecidableEq, Repr

/-- A row of a batch step (R373). -/
structure BatchRow where
  /-- R373, 12 Table 12-5: input token. -/
  token : W32 := 0
  /-- R373, 12: position. -/
  pos : Nat := 0
  /-- R373, 12: request. -/
  req : Nat := 0
  /-- R373, 12: `SAMPLE`. -/
  sample : Bool := false
  /-- R373, 12: `DRAFT`. -/
  draft : Bool := false
  /-- R374, 12: mask engine. -/
  engine : Nat := 0
  /-- R373, 12: page set of the row's KV. -/
  set : Nat := 0
  /-- R384, 12: a sample row's number among those of its mask engine since the epoch began. -/
  num : Nat := 0
  /-- R389, 12: the mask engine has processed the sample row. -/
  done : Bool := false
  deriving DecidableEq, Repr

/-- A result entry (R386, Table 12-12). -/
structure ResultEntry where
  /-- R386, 12: request. -/
  req : Nat := 0
  /-- R389, 12: produced tokens. -/
  toks : List W32 := []
  /-- R389, 12: drafts accepted. -/
  accept : Nat := 0
  /-- R389, 12: `FIN`: 0 none, 1 stop token, 2 stop state, 7 no allowed token. -/
  fin : Nat := 0
  /-- R385, 12: automaton state after the tokens. -/
  state : Nat := 0
  /-- R389, 12: verification has ended for this request. -/
  closed : Bool := false
  deriving DecidableEq, Repr

/-- A batch step in flight (R372). -/
structure BatchStep where
  /-- R373, 12: step number. -/
  step : Nat := 0
  /-- R373, 12: rows in batch order. -/
  rows : List BatchRow := []
  /-- R374, 12: its first ingress tag. -/
  tag : Nat := 0
  /-- R386, 12: results so far, one per request, in batch order. -/
  results : List ResultEntry := []
  /-- R386, 12: sample rows sampled so far. -/
  sampled : Nat := 0
  /-- R375, 12: tide count of the job that completes the step. -/
  tide : Nat := 0
  /-- R375, 12: stamp of that tide point, and of the last result write. -/
  tideAt : Option Nat := none
  lastAt : Nat := 0
  deriving DecidableEq, Repr

/-- A serving session (R367, R542). -/
structure SrvSession where
  /-- R367, 12: input key, 256 bits. -/
  inKey : W256 := 0
  /-- R367, 12: output key, 256 bits. -/
  outKey : W256 := 0
  /-- R392, 12: the output key is held. -/
  hasOut : Bool := true
  /-- R367, 12: step ring. -/
  ring : Nat := 0
  /-- R542, 18: closing: ends when its treatment records commit. -/
  closing : Bool := false
  /-- R542, 18: host die and SPDM session that wait for its end. -/
  closer : Option (Nat × Nat) := none
  deriving DecidableEq, Repr

/-- A refusal or a cancellation that waits for a boundary (R391, R396). -/
structure Owed where
  /-- R391, 12: time-base time of the operation. -/
  stamp : Nat := 0
  /-- R367, 12: session. -/
  session : Nat := 0
  /-- R367, 12: request. -/
  req : Nat := 0
  /-- R369, 12: code of the refusal; 0: a cancellation. -/
  code : Nat := 0
  deriving DecidableEq, Repr

/-- Serving state of a job (R366). -/
structure Serving where
  /-- R367, 12: open sessions. -/
  sessions : Map (Option SrvSession) := []
  /-- R366, 12: requests by `REQ`. -/
  reqs : Map Request := []
  /-- R371, 12: next acceptance order. -/
  nextOrder : Nat := 0
  /-- R373, 12: next batch step number. -/
  nextStep : Nat := 0
  /-- R372, 12: steps in flight, oldest first. -/
  steps : List BatchStep := []
  /-- R377, 12: page-set states. -/
  sets : Map PageState := []
  /-- R380, 12: index nodes other than the root, by number. -/
  nodes : Map (Option IndexNode) := []
  /-- R380, 12: index buckets. -/
  buckets : Map IndexBucket := []
  /-- R391, R396, 12: refusals and cancellations that wait for the next boundary, in the order of their arrival. -/
  owed : List Owed := []
  deriving DecidableEq, Repr

/-- The mask engine of an isle (R384). -/
structure MaskEngine where
  /-- R384, 12: job that uses it. -/
  job : Option Nat := none
  /-- R384, 12: staging slots, four. -/
  slots : Map Staging := []
  /-- R384, 12: rows begun on each queue. -/
  queueRow : Map Nat := []
  /-- R384, 12: tokens of the present row on each queue. -/
  queueTok : Map Nat := []
  /-- R384, 12: sample rows assigned to the engine since the epoch began. -/
  rowsTaken : Nat := 0
  /-- R384, 12: rows whose mask has been fetched. -/
  masks : List Nat := []
  /-- R384, 12: cached bitmaps (address / 32), least recently used last, at most 256 KiB. -/
  cache : List Nat := []
  deriving DecidableEq, Repr

/-- A strait link state (R404, Table 13-8). -/
inductive LinkState where
  | down | training | securing | up
  deriving DecidableEq, Repr

/-- A strait frame kept until it is acknowledged (R407). -/
structure SentFrame where
  /-- R405, 13: `FSEQ`. -/
  fseq : Nat := 0
  /-- R406, 13: its payload. -/
  payload : List StraitBeat := []
  /-- R412, 13: the records that end in it. -/
  ends : List StraitRecord := []
  deriving DecidableEq, Repr

/-- A flow of records bound to a link of its rail (R414). -/
structure Flow where
  /-- R413, 13: peer identity. -/
  peer : List Byte
  /-- R406, 13: record type, job handle, and channel or bucket. -/
  rt : Nat
  fjh : Nat
  ch : Nat
  /-- R414, 13: tag of the instance and first unit of the segment; 0 for a channel. -/
  tag : Nat := 0
  seg : Nat := 0
  /-- R414, 13: strait die that sends it, and the number that chooses among the live links. -/
  die : Nat
  sel : Nat
  /-- R414, 13: the link. -/
  link : Nat
  deriving DecidableEq, Repr

/-- One strait link (R402). -/
structure Link where
  /-- R404, 13: state. -/
  state : LinkState := .down
  /-- R413, 13: rail; 15 none. -/
  rail : Nat := 15
  /-- R411, 13: spared lane of the receiving direction; 15 none. -/
  spared : Nat := 15
  /-- R411, 13: spared lane of the sending direction, as the peer announced it; 15 none. -/
  txSpared : Nat := 15
  /-- R411, 13: corrected symbols of the last second: interval time, lane, number. -/
  laneSyms : List (Nat × Nat × Nat) := []
  /-- R405, 13: next `TXC`, 64 bits. -/
  txc : Nat := 0
  /-- R405, 13: `TXC` last received under the receive key. -/
  rxc : Nat := 0
  /-- R405, 13: next `FSEQ`. -/
  fseq : Nat := 0
  /-- R407, 13: unacknowledged frames, oldest first, at most 256. -/
  unacked : List SentFrame := []
  /-- R406, 13: beats of records accepted for sending that no frame has taken yet; the last beat of a record carries it. -/
  txStream : List (StraitBeat × Option StraitRecord) := []
  /-- R406, 13: beats received of a record that is not yet whole. -/
  rxPart : List StraitBeat := []
  /-- R405, R410, 13: the frame last sent, as it left on the lanes. -/
  sent : List Byte := []
  /-- R407, 13: next `FSEQ` expected. -/
  expect : Nat := 0
  /-- R407, 13: an acknowledgement is owed. -/
  ackOwed : Bool := false
  /-- R407, 13: a NAK is owed. -/
  nakOut : Bool := false
  /-- R407, 13: a NAK has been received and waits to be served. -/
  nakIn : Bool := false
  /-- R407, 13: NAKs of the oldest frame. -/
  naks : Nat := 0
  /-- R407, 13: retrains with no frame acknowledged between them. -/
  retrains : Nat := 0
  /-- R407, 13: retraining since interval time. -/
  retraining : Option Nat := none
  /-- R410, 13: key set in use for sending. -/
  keysel : Bool := false
  /-- R410, 13: key-set number of the sending direction. -/
  keySet : Nat := 0
  /-- R410, 13: key set in use for receiving. -/
  rkeysel : Bool := false
  /-- R409, R410, 13: session secret, from which keys and salts are derived. -/
  secret : BitVec 384 := 0
  /-- R408, 13: credits held of each remote pool, keyed `CFJH` × 64 + `CCH`. -/
  credits : Map Nat := []
  /-- R408, 13: slots freed of each inbound pool and not yet returned. -/
  freed : Map Nat := []
  /-- R408, 13: slots of each inbound pool that the peer holds as credits, that wait to be returned or that hold payloads. -/
  offered : Map Nat := []
  /-- R418, 13: records that wait for a newer membership epoch or for room, oldest first. -/
  held : List StraitRecord := []
  /-- R409, 13 (`STRAIT_LINK_PEER_j`): peer identity, 48 bytes. -/
  peer : List Byte := List.replicate 48 0
  /-- R407, 13: receiver: discarding until the resent frame arrives. -/
  discarding : Bool := false
  /-- R408, R412, 13: records that wait for credits or for a place among the unacknowledged frames, oldest first. -/
  sendQ : List StraitRecord := []
  /-- R26, R414, 13: records of other strait dies that wait there for room on the I/O ring, each with its die. -/
  fromRing : List (Nat × StraitRecord) := []
  /-- R433, 13: `STRAIT_REKEY_FRAMES` as taken at the last key change. -/
  rekeyAt : Nat := 1099511627776
  /-- R522, 17: a PRBS31 test runs. -/
  prbs : Bool := false
  /-- R522, 17: bit errors counted by the test. -/
  prbsErrors : Nat := 0
  deriving DecidableEq, Repr

/-- A copy of one rank's contribution (R427). -/
structure Copy where
  /-- R427, 13: rank. -/
  rank : Nat := 0
  /-- R427, 13: backup copy. -/
  backup : Bool := false
  /-- R427, 13: its first unit in `STAGE`, and its units there. -/
  at_ : Nat := 0
  len : Nat := 0
  /-- R427, 13: number of units received. -/
  count : Nat := 0
  /-- R427, 13: interval time at which the copy completed. -/
  doneAt : Option Nat := none
  /-- R427, 13: it has been combined. -/
  used : Bool := false
  deriving DecidableEq, Repr

/-- A record received before the local start of its instance, its payloads in `STAGE` (R423). -/
structure Early where
  /-- R406, 13: the record, without its payloads. -/
  r : StraitRecord
  /-- R409, 13: identity of the peer that sent it. -/
  peer : List Byte
  /-- R423, 13: its first unit in `STAGE`, and their number. -/
  at_ : Nat
  len : Nat
  deriving DecidableEq, Repr

/-- A bucket instance (R422). -/
structure Instance where
  /-- R422, 13: job. -/
  job : Nat := 0
  /-- R422, 13: bucket tag. -/
  bucket : Nat := 0
  /-- R422, 13: tag. -/
  tag : BitVec 20 := 0
  /-- R422, 13: interval time of its local start. -/
  started : Option Nat := none
  /-- R433, 13: `BKP_WAIT` in µs and `COLL_TIMEOUT` in ms as taken at the start. -/
  wait : Nat := 200
  limit : Nat := 1000
  /-- R424, 13: members, by their place in the membership record, that have been sent the bucket header. -/
  hdrs : List Nat := []
  /-- R424, 13: ranks whose bucket header has been received and agreed. -/
  headers : List Nat := []
  /-- R425, 13: combined words by unit offset. -/
  acc : Map W256 := []
  /-- R425, R429, 13: number of ranks combined into each unit of the owned range; permute: 1 once the unit is in `STAGE`. -/
  got : Map Nat := []
  /-- R425, 13: units of `DST` written. -/
  written : Nat := 0
  /-- R425, 13: the owned range is complete and stored; the gather phase, where there is one, has begun. -/
  gathering : Bool := false
  /-- R427, 13: copies of backed-up ranks. -/
  copies : List Copy := []
  /-- R427, 13: BACKUP_USED recorded. -/
  backupUsed : Bool := false
  /-- R423, 13: records received before the local start, oldest first. -/
  early : List Early := []
  /-- R423, R429, 13: permute: first unit in `STAGE` of the new range, and its units. -/
  permAt : Nat := 0
  permLen : Nat := 0
  /-- R427, 13: it has ended, and only compares the copies that still arrive. -/
  done : Bool := false
  /-- R427, R430, 13: interval time of the last contribution. -/
  lastAt : Nat := 0
  deriving DecidableEq, Repr

/-- A membership entry (R415). -/
structure Member where
  id : List Byte
  plan : List Byte
  rank : Nat
  oldRank : Nat
  role : Nat
  backupOf : Nat
  deriving DecidableEq, Repr

/-- A membership record's decoded header and entries (R415). -/
structure Membership where
  /-- R415, 13: `FJH`. -/
  fjh : Nat := 0
  /-- R415, 13: `FEPOCH`, 16 bits. -/
  fepoch : W16 := 0
  /-- R415, 13: `D`. -/
  d : Nat := 0
  /-- R415, 13: `DOLD`. -/
  dold : Nat := 0
  /-- R415, 13: entries. -/
  members : List Member := []
  deriving DecidableEq, Repr

end Sys2Proof.Machine
end

