-- ==== Sys2Proof/Machine/StateCtl.lean ====
section
/-! DEFINITION. State of the control side: time base, power and clocks, device states, firmware load, endpoints,
sessions, rings, non-volatile memory and journal, error log, jobs, slots, scheduler, accounting and health. Each field
names the rule that gives it; its default is its value at reset. -/
namespace Sys2Proof.Machine

/-- The time base in T0 with its servo, its reference and the interval counter (R459 to R468). -/
structure TimeBase where
  /-- R459, 15 (`TIME_NS`): 64-bit count of nanoseconds. -/
  ns : Nat := 0
  /-- R459, 15: 48-bit fraction; its upper 16 bits are `TIME_FRAC`. -/
  frac : Nat := 0
  /-- R461, 15 (`TIME_ELAPSED`): interval counter, ns. -/
  elapsed : Nat := 0
  /-- R461, 15: fraction of the interval counter, 48 bits. -/
  elapsedFrac : Nat := 0
  /-- R459, 15 (`TIME_RATE_ADJ`): 2⁻⁴⁰ ns per cycle. -/
  rateAdj : Int := 0
  /-- R467, 15: integral term of the servo, ppb. -/
  fInt : Int := 0
  /-- R467, 15: the last adjustment was clamped. -/
  prevClamped : Bool := false
  /-- R466, R467, 15: no edge accepted since reset, a write of `TIME_SET_NEXT` or holdover. -/
  first : Bool := true
  /-- R467, 15: consecutive accepted edges within `TIME_ALIGN_TOL`. -/
  alignedCount : Nat := 0
  /-- R467, 15 (`TIME_OFFSET`): offset of the last accepted edge, ns. -/
  offset : Int := 0
  /-- R466, 15: interval time of the last accepted edge. -/
  lastEdge : Option Nat := none
  /-- R466, 15: PPS_LOST has been recorded since the last accepted edge. -/
  ppsLost : Bool := false
  /-- R466, 15: interval time at which PPS_REJECTED was last recorded. -/
  rejectLogged : Option Nat := none
  /-- R467, 15 (`TIME_STEP_COUNT`): steps since power-up, 32 bits. -/
  stepCount : Nat := 0
  /-- R466, 15 (`TIME_PPS_REJECTED`): edges rejected since power-up, 32 bits. -/
  rejected : Nat := 0
  /-- R473, 15 (`TIME_SET_NEXT`): value pending for the next accepted edge. -/
  setNext : Option Nat := none
  /-- R473, 15 (`TIME_STATE` [2:0]): 0 free-running, 1 reference locked, 2 aligning, 3 aligned, 4 holdover. -/
  state : Fin 5 := 0
  /-- R463, 15 (`TIME_STATE` [3]): the reference in use is FN_REFCLK. -/
  fnRef : Bool := false
  /-- R463, 15: interval time at which the PLL entered holdover on loss of TIME_REF. -/
  refLostAt : Option Nat := none
  /-- R464, 15 (`TIME_STATE` [4]): dies whose replica has lost its strobe. -/
  badDies : List Nat := []
  /-- R473, 15: `TIME_REF_SEL` in force. -/
  refSel : Nat := 0
  /-- R473, 15: `TIME_MODE` in force (1 SLEW). -/
  mode : Nat := 1
  /-- R473, 15: `TIME_SLEW_MAX` in force, ppb. -/
  slewMax : Nat := 500000
  /-- R473, 15: `TIME_PPS_COMP` in force, ns. -/
  ppsComp : Int := 3
  /-- R473, 15: `TIME_ALIGN_TOL` in force, ns. -/
  alignTol : Nat := 100
  /-- R473, 15: values written for `TIME_REF_SEL`, `TIME_MODE`, `TIME_SLEW_MAX`, `TIME_PPS_COMP`, `TIME_ALIGN_TOL`,
  in force from the next accepted edge. -/
  wanted : Option (Nat × Nat × Nat × Int × Nat) := none
  deriving DecidableEq, Repr

/-- Clock, power and temperature of one isle (R31 to R37, R455, R604, R607). -/
structure Isle where
  /-- R37, 01 (`ISLE_CLOCK_n`): present cell clock, MHz. -/
  clock : Nat := 800
  /-- R31, 01: clock the running plan requests, MHz. -/
  planClock : Nat := 1650
  /-- R37, 01: operator's cap in force, MHz. -/
  opCap : Nat := 1650
  /-- R32, 01: cap set by the power controller, MHz. -/
  pwrCap : Nat := 1650
  /-- R455, 15: clock the present glide leads to, MHz. -/
  target : Nat := 800
  /-- R604, 21: AVS target, mV. -/
  avs : Nat := 0
  /-- R34, R607, 01: the isle holds at its next tide point for power (R34). -/
  holdPower : Bool := false
  /-- R35, 01: the isle holds for an excursion of package power. -/
  holdExcursion : Bool := false
  /-- R607, 21: the isle holds for temperature. -/
  holdThermal : Bool := false
  /-- R34, 01: the isle has reached a tide point since `holdPower` was set, and holds. -/
  heldPower : Bool := false
  /-- R35, 01: the same of `holdExcursion`. -/
  heldExcursion : Bool := false
  /-- R607, 21: the same of `holdThermal`. -/
  heldThermal : Bool := false
  /-- R607, 21: interval time of the last thermal step. -/
  thermalStep : Option Nat := none
  /-- R510, 17: interval time of the last THERMAL_WARN. -/
  warned : Option Nat := none
  /-- R37, 01 (`ISLE_POWER_n`): last samples of isle power, W, newest first, at most 100. -/
  power : List Nat := []
  /-- R452, 14: the clock changed in the present accounting window. -/
  changed : Bool := false
  /-- R448, 14: thousandths of cell clocks that passed up to `ticksAt`. -/
  ticks : Nat := 0
  /-- R448, 14: interval time of the last change of the clock. -/
  ticksAt : Nat := 0
  deriving DecidableEq, Repr

/-- Package power (R31 to R37). -/
structure Power where
  /-- R32, 01: last samples of package power, W, newest first, at most 100. -/
  samples : List Nat := []
  /-- R35, 01: average of the last 10 ms, W. -/
  avg10 : Nat := 0
  /-- R35, 01: interval time since which package power has stayed above 3,600 W. -/
  above : Option Nat := none
  /-- R32, 01: limit in force since the last evaluation, W. -/
  limit : Nat := 3200
  deriving DecidableEq, Repr

/-- Device states (R487, Table 16-6). -/
inductive DevState where
  | init | boot | preop | safeop | op | fault
  deriving DecidableEq, Repr

/-- Power-up and device state (R487, R559 to R580). -/
structure PowerUp where
  /-- R487, 16 (`DEVICE_STATE`). -/
  state : DevState := .init
  /-- R567, 19: the release of reset has been seen and frames are forwarded; BYPASS_N is high. -/
  forwarding : Bool := false
  /-- R564, 19: VSTBY within its limits. -/
  vstby : Bool := true
  /-- R559, 19: IO_EN, CORE_EN. -/
  ioEn : Bool := false
  coreEn : Bool := false
  /-- R559, 19: IO_PG, CORE_PG. -/
  ioPg : Bool := false
  corePg : Bool := false
  /-- R561, 19: interval time at which CORE_EN rose. -/
  coreEnAt : Nat := 0
  /-- R559, 19: interval time of entry to FAULT. -/
  faultAt : Option Nat := none
  /-- R587, 20: causes of FAULT in the order received. -/
  causes : List W16 := []
  /-- R611, 21: THERMTRIP_N latched low. -/
  thermtrip : Bool := false
  /-- R565, 19: RESET_N has fallen during a commit; the reset waits for its end. -/
  resetPending : Bool := false
  /-- R561, 19: interval time at which CORE_PG rose. -/
  corePgAt : Nat := 0
  /-- R577, 19: phase 2 has ended, at this interval time. -/
  phase2 : Bool := false
  phase2At : Nat := 0
  /-- R577, 19: isles whose phase 3 has ended. -/
  bist : List Nat := []
  /-- R578, 19: stacks whose phase 4 has ended. -/
  trained : List Nat := []
  /-- R580, 19: interval time at which phase 3 of an isle (0 to 3) or phase 4 of stack k (4 + k) ended. -/
  endedAt : Map Nat := []
  /-- R202, 19: bridges whose phase 5 has ended. -/
  bridges : List Nat := []
  /-- R579, 19: phase 6 has ended. -/
  phase6 : Bool := false
  /-- R579, 19: OP has been entered since power-up. -/
  firstOp : Bool := false
  /-- R576, 19: interval time of entry to PREOP. -/
  preopAt : Nat := 0
  /-- R488, 16: OP to SAFEOP has been asked: jobs drain and are held. -/
  toSafeop : Bool := false
  /-- R488, 16: jobs held drained by it. -/
  held : List Nat := []
  /-- R615, 21: TAP instruction in force. -/
  tap : TapInstr := .idcode
  /-- R566, R568, 19: PCIe links of H0 and H1 up. -/
  pcie0 : Bool := false
  pcie1 : Bool := false
  /-- R487, 16 (`CP_HEARTBEAT`): interval time at which the control cores were released (R576). -/
  coresAt : Option Nat := none
  deriving DecidableEq, Repr

/-- A firmware-load window of BAR2 (R572). -/
structure FwWindow where
  /-- R572, 19 (`FWL_ADDR`). -/
  addr : W64 := 0
  /-- R572, 19 (`FWL_LEN`). -/
  len : W32 := 0
  /-- R572, 19 (`FWL_STAT` [1:0]): 0 idle, 1 fetching, 2 verifying, 3 ended. -/
  phase : Fin 4 := 0
  /-- R572, 19 (`FWL_STAT` [2]). -/
  rejected : Bool := false
  /-- R572, 19 (`FWL_STAT` [31:16]). -/
  code : W16 := 0
  /-- R572, 19 (`FWL_RECEIVED`). -/
  received : Nat := 0
  deriving DecidableEq, Repr

/-- Firmware load (R568 to R576). -/
structure FwLoad where
  /-- R568, 19: bytes in the image area. -/
  area : List Byte := []
  /-- R513, 17 (`FW_SOURCE`): 0 none, 1 FoE, 2 BAR2 of H0, 3 BAR2 of H1, 4 SDO. -/
  source : Nat := 0
  /-- R569, 19: a load is in progress. -/
  loading : Bool := false
  /-- R569, 19: the data has ended and verification runs. -/
  verifying : Bool := false
  /-- R513, 17 (`FW_STATUS`). -/
  status : W16 := 0
  /-- R569, 19: interval time of the last byte. -/
  lastByte : Nat := 0
  /-- R571, 19: who writes `FW_IMAGE`. -/
  via : Option Via := none
  /-- R570, 19: last FoE answer: 0 ACK, else the error code. -/
  foe : Nat := 0
  /-- R572, 19: BAR2 windows of H0 and H1. -/
  win0 : FwWindow := {}
  win1 : FwWindow := {}
  /-- R576, 19 (`DEV_FW_VERSION`). -/
  version : W32 := 0
  /-- R531, 18 (`DEV_FW_MEASUREMENT`): 48 bytes. -/
  measurement : List Byte := List.replicate 48 0
  /-- R576, 19 (`MFR_SW_VERSION` once firmware runs): 32 bytes. -/
  verStr : List Byte := []
  /-- R531, 18: `SVN` of the running image, and whether it asks to raise `SEC_FW_SVN`. -/
  svn : Nat := 0
  raiseSvn : Bool := false
  deriving DecidableEq, Repr

/-- An answer of the dictionary server: data read, done, or an abort code. -/
inductive SdoAnswer where
  | data (d : List Byte)
  | ok
  | abort (code : W32)
  /-- The answer waits for a commit to both MRAM copies (R505). -/
  | waiting
  deriving DecidableEq, Repr

/-- A control-plane endpoint, or the per-endpoint values of a tenant session (R474, R482 to R486, R501). -/
structure Endpoint where
  /-- R482, 16 (`CP_AUTH_ROLE`): 0 observer, 1 owner, 2 operator, 3 tenant. -/
  role : Nat := 0
  /-- R482, 16: index of the key used at login. -/
  key : Nat := 0
  /-- R482, 16 (`CP_AUTH_NONCE`): current nonce, 32 bytes. -/
  nonce : Option (List Byte) := none
  /-- R482, 16: session nonce. -/
  sessionNonce : List Byte := []
  /-- R483, 16: ticket counter. -/
  ticketCtr : Nat := 0
  /-- R483, 16: ticket pending for the next request: index, sub-index, hash of the value. -/
  ticket : Option (Nat × Nat × List Byte) := none
  /-- R484, 16: interval time of the last request. -/
  lastReq : Nat := 0
  /-- R486, 16: interval times of recent failed logins. -/
  failed : List Nat := []
  /-- R486, 16: interval time until which logins are refused. -/
  lockout : Option Nat := none
  /-- R511, 17 (`JOURNAL_CURSOR`); none: the default, `JOURNAL_FIRST`. -/
  journalCursor : Option Nat := none
  /-- R520, 17 (`ERRLOG_CURSOR`); none: the default, the oldest entry. -/
  errCursor : Option Nat := none
  /-- R520, 17 (`ERRLOG_FILTER`): 16 bits. -/
  errFilter : W16 := 0
  /-- R504, 17: segmented write in progress: index, sub-index, data so far, interval time of the last segment. -/
  seg : Option (Nat × Nat × List Byte × Nat) := none
  /-- R483, R504: ticket of the request that began the segmented write. -/
  segTicket : Option (Nat × Nat × List Byte) := none
  /-- R479, 16 (`MBX_CTRL`): `LEN`, `SEQ`. -/
  mbxLen : BitVec 12 := 0
  mbxSeq : Byte := 0
  /-- R480, 16 (`MBX_STAT`): `RLEN`, `SEQ`, `BUSY`, `DONE`, `REJECTED`. -/
  rlen : Nat := 0
  rseq : Byte := 0
  busy : Bool := false
  done : Bool := false
  rejected : Bool := false
  /-- R480, R502, 16 (`MBX_RSP`): the last answer. -/
  answer : SdoAnswer := .ok
  deriving DecidableEq, Repr

/-- Field-network interface (R475 to R478). -/
structure FieldNet where
  /-- R477, 16: AL state. -/
  al : AlState := .init
  /-- R477, 16: AL status code. -/
  alStatus : W16 := 0
  /-- R508, 17: process-data mapping in force, entries of 0x1A00. -/
  map : List W32 := []
  /-- R478, 16: SM3 input data of the last refresh. -/
  sm3 : List Byte := []
  /-- R476, 16: port through which the last frame left. -/
  lastOut : Option (Fin 2) := none
  /-- R478, 16: time-base time of the last refresh, ms. -/
  refreshed : Nat := 0
  deriving DecidableEq, Repr

/-- A ring of host memory (R490 to R495). -/
structure Ring where
  /-- R490, 16 (`RING_ENABLE`). -/
  enabled : Bool := false
  /-- R491, 16 (`DEV_IDX_r`): 32 bits. -/
  dev : W32 := 0
  /-- R491, 16 (`HOST_IDX_r`): 32 bits. -/
  host : W32 := 0
  /-- R493, 16 (`RING_BACKLOG`): records waiting, oldest first, at most 4,096. -/
  backlog : List (List Byte) := []
  /-- R493, 16: the ring has stalled and its backlog has not yet fallen below 2,048. -/
  stalled : Bool := false
  /-- R492, 16: entries the device has written into host memory, by slot: 64 bytes. -/
  written : Map (List Byte) := []
  deriving DecidableEq, Repr

/-- A DMA command in progress (R496). -/
structure Dma where
  /-- R496, 16: ring. -/
  ring : Nat := 0
  /-- R496, 16: index of the command. -/
  idx : Nat := 0
  /-- R496, 16: job. -/
  job : Nat := 0
  /-- R496, 16: 1 inbound, 2 outbound. -/
  op : Nat := 0
  /-- R496, 16: bytes. -/
  len : Nat := 0
  /-- R495, 16: `CTX`. -/
  ctx : List Byte := []
  /-- R544, 18: `PA`. -/
  pa : Nat := 0
  /-- R496, 07: stack and stack offset of the extent. -/
  stack : Nat := 0
  off : Nat := 0
  /-- R544, 18: 0 clear, 1 GCM. -/
  pmode : Nat := 0
  /-- R544, 18: `PIV`, `PTAG`. -/
  piv : List Byte := []
  ptag : List Byte := []
  /-- R543, 18: transfer key in force for the command. -/
  key : W256 := 0
  /-- R545, 18: outbound counter used. -/
  counter : Nat := 0
  deriving DecidableEq, Repr

/-- An ingress iteration (R497). -/
structure Ingress where
  /-- R495, 16: `CTX`. -/
  ctx : List Byte := []
  /-- R497, 16: `FENCE`. -/
  fence : Nat := 0
  /-- R497, 16: `TIDES`. -/
  tides : Nat := 0
  /-- R497, 16: extents: guard, `EXT0` to `EXT3`. -/
  exts : List (Nat × List Nat) := []
  /-- R497, 16: tide count at which it completes, once dispatched. -/
  due : Nat := 0
  /-- R497, 16: first tag and chunks, once its tokens have been sent; chunks 0 before. -/
  tag : Nat := 0
  chunks : Nat := 0
  /-- R306, 16: guard and dimension found empty; dimension 0xFF: none. -/
  guard : Nat := 0
  dim : Nat := 0xFF
  deriving DecidableEq, Repr

/-- A set of key installed for a slot (R541, R543). -/
structure TransferKey where
  /-- R543, 18: the key. -/
  key : W256 := 0
  /-- R545, 18: outbound counter. -/
  counter : Nat := 0
  deriving DecidableEq, Repr

/-- A tenant slot beside its dictionary objects (R434, R523, R529). -/
structure Slot where
  /-- R541, 18: the slot's HBM key, 512 bits (`SLOT_HBM_KEY` 1). -/
  hbmKey : Option (BitVec 512) := none
  /-- R541, 18: a key is being installed: no DMA command of the slot starts. -/
  keyNext : Option (BitVec 512) := none
  /-- R541, 18: the zero-fill of the slot's regions under that key has begun. -/
  keyFill : Bool := false
  /-- R541, 18: host die and session that wait for the answer. -/
  keyAns : Option (Nat × Nat) := none
  /-- R543, 18: transfer keys 0 to 7. -/
  keys : Map (Option TransferKey) := []
  /-- R434, 14: the slot's last job has been released and its effects are ending (`SLOT_STATE` 3). -/
  closing : Bool := false
  deriving DecidableEq, Repr

/-- Accounted quantities (R448). -/
structure Account where
  /-- R448, 14: allocated site-cycles. -/
  alloc : Nat := 0
  /-- R448, 14: busy site-cycles. -/
  busy : Nat := 0
  /-- R448, 14: HBM bytes. -/
  hbm : Nat := 0
  /-- R448, 14: strait bytes. -/
  strait : Nat := 0
  /-- R448, 14: host bytes. -/
  host : Nat := 0
  /-- R449, 14: µJ. -/
  energy : Nat := 0
  /-- R450, 14: a late-stamped set was counted. -/
  late : Bool := false
  /-- R440, 14: units late in the window. -/
  lateUnits : Nat := 0
  /-- R452, 14: the job began or ended in the window. -/
  partialW : Bool := false
  /-- R452, 14: an isle that was the job's changed its cell clock before the job left it. -/
  clock : Bool := false
  deriving DecidableEq, Repr

/-- A plan as the loader accepted it: the image, its placement, what the tables say (R290 to R302). -/
structure Plan where
  /-- R290, 09: the accepted image. -/
  image : List Byte := []
  /-- R294, 09: isle rotation and per-isle shift of the placement: ρ, then (Δx, Δy) of each plan isle. -/
  rho : Nat := 0
  shift : List (Nat × Nat) := []
  /-- R291, 09 (`JOB_PLAN_MEASUREMENT`): 48 bytes. -/
  meas : List Byte := []
  deriving DecidableEq, Repr

/-- A job (R434) beside its writable dictionary objects. -/
structure Job where
  /-- R515, 09 Table 9-13 (`JOB_STATE`): 0 empty, 1 loading, 2 running, 3 draining, 4 drained, 5 switched out, 6 stopped. -/
  state : Nat := 0
  /-- R515, 17: state from which the present or last LOAD came, 0 or 6. -/
  fromState : Nat := 0
  /-- R290, 09: the plan held. -/
  plan : Option Plan := none
  /-- R436, 14 (`JOB_PARTITION`): reefs held, ascending, isle × 36 + 6y + x. -/
  reefs : List Nat := []
  /-- R295, 09: HBM regions held: plan region number, stack, first sector, sectors, region index, kind. -/
  regions : List (Nat × Nat × Nat × Nat × Nat × Nat) := []
  /-- R300, 20: map generation at the loader's snapshot. -/
  mapGen : Nat := 0
  /-- R516, 17: bytes of the image staged. -/
  staged : Nat := 0
  /-- R307, 09: tide count of each stage. -/
  stageTides : Map Nat := []
  /-- R307, 09: tide tokens received and not yet counted in a tide point: stage × 36,864 + site of the reporter. -/
  reports : Map Nat := []
  /-- R307, 09: stamps of the complete tide points not yet processed, oldest first, for each stage: time base and interval counter
  when the last token was accepted. -/
  tideStamps : Map (List (Nat × Nat)) := []
  /-- R305, 09: ingress tag counter g. -/
  tag : Nat := 0
  /-- R305, 09: extents of the iterations that wait at the guards, oldest first. -/
  guardQ : List (List (Nat × List Nat)) := []
  /-- R309, 09: units of the partition that have reported drained. -/
  drained : List Nat := []
  /-- R309, 09: occupied queue entries that the drained reports gave. -/
  drainLeft : Nat := 0
  /-- R309, 09: interval time at which the drain began. -/
  drainAt : Option Nat := none
  /-- R312, R317, 09: `DRAIN_TIMEOUT` of the drain under way, ns. -/
  drainLimit : Nat := 0
  /-- R251, R282, 09: discards counted by units of the job other than its sites and lagoons. -/
  discards : Nat := 0
  /-- R311, 09: a forced reconfiguration runs: interval time of its quiet step. -/
  quietAt : Option Nat := none
  /-- R311, 09: interval time at which the network was found to hold nothing of the job. -/
  emptyAt : Option Nat := none
  /-- R311, R317, 09: `FORCED_QUIET` of the forced reconfiguration under way, ns. -/
  quietFor : Nat := 0
  /-- R308, R489, 09: values in force of objects that have been written since the last tide point, by key. -/
  held : List (Nat × List Byte) := []
  /-- R308, 09: what waits for the next tide point: 1 drain by command, 2 stop with the code, 3 preemption, 4 SAFEOP. -/
  atTide : Nat := 0
  /-- R585, 20: code of a stop that waits for a tide point. -/
  stopWait : Option W16 := none
  /-- R585, 20: the job stops: its end waits for the quiet step or the drain. -/
  stopping : Bool := false
  /-- R443, 14: an admission request waits for its decision. -/
  admitReq : Bool := false
  /-- R443, 14 (`JOB_ADMIT_STATE`): 0 none, 1 admitted, 2 refused, 3 revoked. -/
  admSt : Fin 4 := 0
  /-- R440, 14: admission stamp. -/
  admitAt : Nat := 0
  /-- R445, 14: interval time since which a power cap keeps the admission test failing. -/
  failSince : Option Nat := none
  /-- R440, 14: accounting window in which WORK_UNIT_LATE was last recorded. -/
  lateLogged : Option Nat := none
  /-- R440, 14: absolute deadline of the released, unfinished unit; 0: none released. -/
  released : Option Nat := none
  /-- R440, 14: units released since admission. -/
  units : Nat := 0
  /-- R441, 14: interval time of the last switch-in. -/
  inSince : Nat := 0
  /-- R444, 14: N_j, the most sites on one isle, and V_j, the most lagoon-save bytes on one isle. -/
  nMax : Nat := 0
  vMax : Nat := 0
  /-- R447, 14: code of a spill or escape met while the job drains. -/
  drainSpill : Option Nat := none
  /-- R440, R447, 14: interval time at which the present work unit began. -/
  unitStart : Nat := 0
  /-- R442, 14: cell-clock counts of the four isles up to which the site-cycles have entered the virtual time. -/
  cyclesAt : List Nat := []
  /-- R442, 14: site-cycles and effective weight of the unit that ended last, until its drain is counted. -/
  unitCycles : Nat × Nat := (0, 1)
  /-- R447, 14: suspended for overrunning: `JOB_UNIT_MAX_US` at the time. -/
  suspended : Option Nat := none
  /-- R452, 14: totals of the present window. -/
  window : Account := {}
  /-- R497, 16: ingress iterations waiting for fence or dispatch, oldest first. -/
  ingress : List Ingress := []
  /-- R497, 16: dispatched iterations that complete at a later tide point. -/
  dispatched : List Ingress := []
  /-- R496, 16: commands of the job's DMA ring completed. -/
  dmaDone : Nat := 0
  /-- R547, 18: model measurement M, 48 bytes. -/
  model : List Byte := List.replicate 48 0
  /-- R546, 18: `CLEAR_INPUT`. -/
  clearInput : Bool := false
  /-- R366, 12: serving state. -/
  srv : Serving := {}
  /-- R415, 13: membership in force. -/
  mem : Membership := {}
  /-- R416, 13: membership record waiting for the next tide point. -/
  memNext : Option Membership := none
  /-- R429, 13: permute buckets that the membership has still to start. -/
  toPermute : List Nat := []
  /-- R422, 13: last tag under which each bucket started, plus 1. -/
  collTags : Map Nat := []
  /-- R418, 13: STRAIT_EPOCH_STALE has been recorded in this membership epoch. -/
  staleLogged : Bool := false
  /-- R416, 13 (`JOB_MEMBERSHIP` as last stored): bytes. -/
  memBytes : List Byte := []
  /-- R315, 09: tide counts and walk state saved at a switch-out. -/
  saved : Bool := false
  /-- R310, 09: an epoch of the job has begun since the job was created. -/
  begun : Bool := false
  /-- R493, 16: the job holds: it stood at a tide point while a ring it writes to was stalled. -/
  hold : Bool := false
  /-- R310, R311, 09: the epoch transition: 0 none, 1 to be started, 2 steps 1 and 2 under way, 3 a forced one whose sites have
  not all left forced mode. -/
  trans : Nat := 0
  /-- R298, 09: sites that run the clearing program. -/
  clearing : List Nat := []
  deriving DecidableEq, Repr

/-- A temporal group (R436, R441). -/
structure Group where
  /-- R436, 14: reefs of the group. -/
  reefs : List Nat := []
  /-- R441, 14: job loaded. -/
  running : Option Nat := none
  /-- R441, 14: job to be switched in when the loaded one has drained. -/
  next : Option Nat := none
  /-- R447, 14: what delays an admitted member's unit: job, level kept, cause code. -/
  blocked : Option (Nat × Nat × Nat) := none
  deriving DecidableEq, Repr

/-- A sample set on its way to the trust unit (R449, R450). -/
structure SampleSet where
  /-- R449, 14: stamp, time-base ns. -/
  stamp : Nat := 0
  /-- R449, 14: die. -/
  die : Nat := 0
  /-- R449, 14: energy measured, µJ. -/
  energy : Nat := 0
  /-- R448, 14: site-cycles or bytes charged to overhead. -/
  overhead : Nat := 0
  /-- R448, 14: rows of the jobs present. -/
  rows : List SampleRow := []
  deriving DecidableEq, Repr

/-- Scheduler and accounting (R439 to R452). -/
structure Sched where
  /-- R450, 14: start of the present window, time-base ns. -/
  wStart : Nat := 0
  /-- R450, 14: end of the present window, time-base ns. -/
  wEnd : Nat := 1000000000
  /-- R451, 14: the present window is short. -/
  short : Bool := false
  /-- R472, 15: interval time at which the time base reached or passed the window's end. -/
  passed : Option Nat := none
  /-- R450, 14: ACCT_LATE_STAMPED has been recorded in this window. -/
  lateLogged : Bool := false
  /-- R452, 14: overhead account of the window. -/
  overhead : Account := {}
  /-- R449, 14: sample sets on their way, oldest first. -/
  transit : List SampleSet := []
  /-- R450, 14: sample sets that arrived before the seal and belong to the next window. -/
  ahead : List SampleSet := []
  /-- R452, 14: accounts of jobs that were released for good in the window: job, slot, account. -/
  ended : List (Nat × Nat × Account) := []
  deriving DecidableEq, Repr

/-- A journal record waiting for its commit (R551): everything but counter, sequence and chain fields. -/
structure JRec where
  /-- R551, 18: `RTYPE`. -/
  rtype : Nat := 0
  /-- R551, 18: `FLAGS`. -/
  flags : Nat := 0
  /-- R551, 18: `SLOT`. -/
  slot : Nat := 0xFF
  /-- R551, 18: `JOB`. -/
  job : Nat := 0x1FF
  /-- R551, 18: bytes 4 to 15. -/
  b4 : List Byte := []
  /-- R551, 18: bytes 28 to 63. -/
  b28 : List Byte := []
  /-- R551, 18: bytes 160 to 415. -/
  b160 : List Byte := []
  deriving DecidableEq, Repr

/-- One MRAM copy (R550, R556). -/
structure Nvm where
  /-- R550, 18: journal records held, by counter modulo 32,768: 512 bytes. -/
  recs : Map (List Byte) := []
  /-- R550, 18: journal counter: records ever committed. -/
  counter : Nat := 0
  /-- R550, 18: records held, at most 32,768. -/
  held : Nat := 0
  /-- R557, 18: `SLOT_SEQ` of each slot (255: device). -/
  seqs : Map Nat := []
  /-- R551, 18: hash of the newest record of each slot, 48 bytes. -/
  slotHash : Map (List Byte) := []
  /-- R551, 18: hash of the newest record. -/
  hash : List Byte := []
  /-- R500, 17: NV dictionary objects, by index × 256 + sub-index, that differ from their default. -/
  objs : Map (List Byte) := []
  deriving DecidableEq, Repr

/-- An NV write waiting for its commit (R505). -/
structure NvWrite where
  /-- R505, 17: index × 256 + sub-index. -/
  key : Nat := 0
  /-- R505, 17: value. -/
  val : List Byte := []
  /-- R505, 17: dictionary request that waits for it; none: the device's own. -/
  via : Option Via := none
  /-- R505, 17: interval time of the write. -/
  at_ : Nat := 0
  deriving DecidableEq, Repr

/-- Non-volatile memory, journal and hold-up (R505, R550 to R558). -/
structure NvCtl where
  /-- R550, 18: copy of T0. -/
  copy0 : Nvm := {}
  /-- R550, 18: copy of T1. -/
  copy1 : Nvm := {}
  /-- R553, 18 (`JOURNAL_PENDING`): records awaiting commit, at most 4,096. -/
  queue : List JRec := []
  /-- R553, 18: records that wait in firmware for the queue to fall below 2,048. -/
  overflow : List JRec := []
  /-- R505, 17: NV writes awaiting commit. -/
  writes : List NvWrite := []
  /-- R553, 18: a commit is in progress: it writes these to the copy of T1 at its end. -/
  committing : Option (List NvWrite) := none
  /-- R553, 18: the queue has reached 4,096 and not yet fallen below 2,048. -/
  backlog : Bool := false
  /-- R554, 18: accounting window in which JOURNAL_OVERWRITE was last recorded. -/
  overwriteLogged : Option Nat := none
  /-- R558, 18: a run of consecutive deferrals is in progress; interval time of the last. -/
  deferred : Option Nat := none
  deriving DecidableEq, Repr

/-- An error-log entry (R520, Table 17-18). -/
structure ErrEntry where
  /-- R520, 17: `STAMP`. -/
  stamp : Nat := 0
  /-- R520, 17: `SEQ`. -/
  seq : Nat := 0
  /-- R520, 17: `CODE`. -/
  code : W16 := 0
  /-- R520, 17: `JOB`. -/
  job : Nat := 0x1FF
  /-- R520, 17: `SLOT`. -/
  slot : Nat := 0xFF
  /-- R520, 17: `DIE`. -/
  die : Nat := 30
  /-- R520, 17: `UNIT`. -/
  unit : Nat := 8
  /-- R520, 17: `WHERE`. -/
  wh : Nat := 0
  /-- R520, 17: `TAG`. -/
  tag : Nat := 0xFFFFFFFF
  /-- R520, 17: `DETAIL`. -/
  detail : Nat := 0
  deriving DecidableEq, Repr

/-- The error log (R520). -/
structure ErrLog where
  /-- R520, 17: entries held, oldest first, at most 4,096. -/
  entries : List ErrEntry := []
  /-- R520, 17: entries ever recorded since VSTBY rose. -/
  count : Nat := 0
  deriving DecidableEq, Repr

/-- What an SPDM session is bound to (R537). -/
inductive Binding where
  | pending | slot (n : Nat) | operator | nothing
  deriving DecidableEq, Repr

/-- An SPDM session (R536, R537). -/
structure SpdmSession where
  /-- R536, 18: requester half of the session ID. -/
  reqHalf : W16 := 0
  /-- R536, 18: responder half. -/
  rspHalf : W16 := 0
  /-- R537, 18: binding. -/
  binding : Binding := .pending
  /-- R536, 18: interval time of the last message. -/
  lastMsg : Nat := 0
  /-- R536, 18: key updates performed. -/
  updates : Nat := 0
  /-- R501, 17: the session's own dictionary values. -/
  ep : Endpoint := {}
  deriving DecidableEq, Repr

/-- SPDM and DOE state of a host die (R535, R536, R548). -/
structure SpdmDie where
  /-- R536, 18: negotiation reached: 0 none, 1 version, 2 capabilities, 3 algorithms. -/
  stage : Nat := 0
  /-- R536, 18: version negotiated, 12 or 13. -/
  version : Nat := 0
  /-- R536, 18: open sessions. -/
  sessions : Map (Option SpdmSession) := []
  /-- R535, 18: a data object is in progress: its response is not yet sent. -/
  object : Bool := false
  /-- R548, 18: IDE keys by key set × 2 + receive. -/
  ideKeys : Map W256 := []
  /-- R536, R538, 18: last response: kind, content. -/
  response : List Byte := []
  deriving DecidableEq, Repr

/-- Health of the package (R518, R519, R590 to R595). -/
structure Health where
  /-- R519, 17 (`REEF_MAP_r`): `FAIL` field of each reef row, keyed reef × 16 + row; the default is 31. -/
  fail : Map Nat := []
  /-- R591, 20: repair fields that wait until no running job holds the reef: reef × 16 + row, new `FAIL`. -/
  failNext : List (Nat × Nat) := []
  /-- R519, 17 (`REEF_STATE_r`): degraded reefs. -/
  degraded : List Nat := []
  /-- R300, R518, 17: `HEALTH_MAP_GEN` at the last change of each reef's map. -/
  reefGen : Map Nat := []
  /-- R519, 17 (`REEF_WEAR_r`): %. -/
  wear : Map Nat := []
  /-- R595, 20: reefs whose WEAR_WARN has been recorded and has not fallen 5 points below. -/
  wearWarned : List Nat := []
  /-- R590, 20: health of each physical site: reef × 272 + row × 17 + column. -/
  sites : Map SiteHealth := []
  deriving DecidableEq, Repr

end Sys2Proof.Machine
end

