-- ==== Sys2Proof/Machine/State.lean ====
section
/-! DEFINITION. The state of the block, as plain data: the time base, the block's registers, buffers and stores, and
the queue of commands that wait; the state right after reset; the reasons a step can stop. -/
namespace Sys2Proof.Machine

/-- Everything the spec gives the block but its time base: every register, buffer, store, table and counter. Sparse
stores list what differs from the reset value, keys rising (`Map`). -/
structure Dev where
  /-- The model's own: number of free values drawn so far (assumption 3). -/
  free : Nat := 0
  /-- R487, 19: device state, rails, resets, bring-up, diagnostics. -/
  pu : PowerUp := {}
  /-- R568, 19: firmware load. -/
  fw : FwLoad := {}
  /-- R500, 17: the dictionary's stored values of writable objects that differ from their defaults, by index × 256 +
  sub-index, little-endian bytes. -/
  dict : Map (List Byte) := []
  /-- R500, 17: the values the device maintains in numeric RO objects (counts, last samples, states that no other field
  holds) that differ from their defaults, by index × 256 + sub-index. -/
  ctr : Map Nat := []
  /-- R474, 16: the three endpoints. -/
  eps : Map Endpoint := []
  /-- R475, 16: field-network interface. -/
  net : FieldNet := {}
  /-- R535, 18: SPDM and DOE state of H0 and H1. -/
  spdm : Map SpdmDie := []
  /-- R490, 16: rings 0 to 31. -/
  rings : Map Ring := []
  /-- R496, 16: DMA commands in progress, oldest first. -/
  dmas : List Dma := []
  /-- R550, 18: MRAM, journal and hold-up. -/
  nv : NvCtl := {}
  /-- R520, 17: error log. -/
  log : ErrLog := {}
  /-- R31, 01: package power. -/
  power : Power := {}
  /-- R31, 01: clock, power and temperature of the four isles. -/
  isles : Map Isle := []
  /-- R434, 14: the 64 tenant slots. -/
  slots : Map Slot := []
  /-- R434, 14: the 256 jobs. -/
  jobs : Map Job := []
  /-- R436, 14: the 64 temporal groups. -/
  groups : Map Group := []
  /-- R439, 14: scheduler and accounting. -/
  sched : Sched := {}
  /-- R518, 20: health, repair maps, wear. -/
  health : Health := {}
  /-- R93, 04: the 36,864 logical sites. -/
  sites : Map Site := []
  /-- R178, 06: buffers and credits of the networks. -/
  fabric : Fabric := {}
  /-- R196, 06: the eight bridge directions. -/
  bridges : Map BridgeState := []
  /-- R22, 01: the I/O ring. -/
  ring : RingState := {}
  /-- R186, 06: the 144 lagoons with their semaphore banks and multicast agents. -/
  lagoons : Map Lagoon := []
  /-- R214, 07: the 16 stacks with their controllers and accumulate units. -/
  hbms : Map Stack := []
  /-- R262, 08: the four stream arbiters. -/
  arbs : Map Arbiter := []
  /-- R344, 11: the four causeway units. -/
  cause : Map Causeway := []
  /-- R384, 12: the four mask engines. -/
  masks : Map MaskEngine := []
  /-- R402, 13: the 16 strait links. -/
  links : Map Link := []
  /-- R422, 13: bucket instances, at most 4,096. -/
  colls : Map (Option Instance) := []
  /-- R414, 13: the flows bound to strait links. -/
  flows : List Flow := []
  deriving DecidableEq, Repr

/-- The state of the block. -/
structure State where
  /-- R459, 15: the time base and the interval counter. -/
  time : TimeBase := {}
  /-- Everything else the spec gives the block. -/
  dev : Dev := {}
  /-- Commands that wait, first in, first out. -/
  pending : List Instr := []
  deriving DecidableEq, Repr

/-- Reasons to stop with a fault: none. Every error the spec names has an effect on the state (a status code in the
error log, a job or a site that stops, the device state FAULT), so no command ends in a fault. -/
inductive Fault where
  deriving DecidableEq, Repr

/-- Reasons to refuse a command. -/
inductive Refusal where
  /-- Raised by `exec` for a command that has no meaning yet. Safe: the model stops where the device goes on. -/
  | notModelled (mnemonic : String)
  deriving DecidableEq, Repr

/-- The block right after reset (R459, R487, R500, R564): device state INIT, every object at its default, the time
base zero, every store at its reset value, no command waiting. -/
def State.reset : State := {}

end Sys2Proof.Machine
end

