-- ==== Sys2Proof/Machine/Ops.lean ====
section
/-! DEFINITION. The named operations every meaning uses: sparse stores, bit fields and byte order, the units of the
block by number, free values, and the two shapes of a meaning. -/
namespace Sys2Proof.Machine

/-! ### Sparse stores -/

/-- Read of a sparse store: the default where the key is not listed. -/
def mget {α : Type} (d : α) : Map α → Nat → α
  | [], _ => d
  | (j, v) :: r, k => if j = k then v else mget d r k

/-- Removal of a key. -/
def mdel {α : Type} (m : Map α) (k : Nat) : Map α := m.filter fun e => decide (e.1 ≠ k)

/-- Insertion of a key, whatever the value. -/
def mins {α : Type} : Map α → Nat → α → Map α
  | [], k, x => [(k, x)]
  | (j, v) :: r, k, x => if k < j then (k, x) :: (j, v) :: r else if k = j then (k, x) :: r else (j, v) :: mins r k x

/-- Write of a sparse store: writing the default removes the entry, so equal stores are equal data. -/
def mput {α : Type} [DecidableEq α] (d : α) (m : Map α) (k : Nat) (x : α) : Map α :=
  if x = d then mdel m k else mins m k x

/-- The canonical form: keys strictly rising above `lo`, no default listed. -/
def mapOkFrom {α : Type} [DecidableEq α] (d : α) : Nat → Map α → Bool
  | _, [] => true
  | lo, (j, v) :: r => decide (lo ≤ j) && !decide (v = d) && mapOkFrom d (j + 1) r

/-- The canonical form of a sparse store. -/
def mapOk {α : Type} [DecidableEq α] (d : α) (m : Map α) : Bool := mapOkFrom d 0 m

/-- Write of n consecutive cells from k. -/
def mputs {α : Type} [DecidableEq α] (d : α) (m : Map α) (k : Nat) : List α → Map α
  | [] => m
  | x :: xs => mputs d (mput d m k x) (k + 1) xs

/-- Read of n consecutive cells from k. -/
def mgets {α : Type} (d : α) (m : Map α) (k n : Nat) : List α := (List.range n).map fun i => mget d m (k + i)

/-- Removal of every key for which p holds. -/
def mdrop {α : Type} (p : Nat → Bool) (m : Map α) : Map α := m.filter fun e => !p e.1

/-- A function applied to every listed value. -/
def mmap {α : Type} [DecidableEq α] (d : α) (f : Nat → α → α) (m : Map α) : Map α :=
  (m.map fun e => (e.1, f e.1 e.2)).filter fun e => !decide (e.2 = d)

/-! ### Bit fields and byte order -/

/-- Bits [hi:lo] of a number (R6). -/
def bits (x hi lo : Nat) : Nat := x / 2 ^ lo % 2 ^ (hi + 1 - lo)

/-- Bit i of a number. -/
def bit (x i : Nat) : Bool := bits x i i = 1

/-- A number as 0 or 1. -/
def b2n (b : Bool) : Nat := if b then 1 else 0

/-- n bytes of a number, least significant first (R7). -/
def le : Nat → Nat → List Byte
  | 0, _ => []
  | n + 1, x => BitVec.ofNat 8 x :: le n (x / 256)

/-- The number that bytes spell, least significant first (R7). -/
def leNat : List Byte → Nat
  | [] => 0
  | b :: r => b.toNat + 256 * leNat r

/-- A field of n bytes at offset o of a byte list, as a number; bytes past the end read as zero. -/
def fieldAt (b : List Byte) (o n : Nat) : Nat := leNat ((b.drop o).take n)

/-- n bytes at offset o. -/
def bytesAt (b : List Byte) (o n : Nat) : List Byte := (b.drop o).take n

/-- A number as w-bit two's complement. -/
def toTwos (w : Nat) (i : Int) : Nat := (i % (2 ^ w : Nat)).toNat

/-- A w-bit word as a signed number. -/
def ofTwos (w x : Nat) : Int := if x % 2 ^ w < 2 ^ (w - 1) then (x % 2 ^ w : Nat) else (x % 2 ^ w : Nat) - (2 ^ w : Nat)

/-- A byte list of length n: cut, or padded with zeros. -/
def padTo (n : Nat) (b : List Byte) : List Byte := (b ++ List.replicate n 0).take n

/-- Member of a list replaced at an index. -/
def listSet {α : Type} : List α → Nat → α → List α
  | [], _, _ => []
  | _ :: r, 0, x => x :: r
  | y :: r, n + 1, x => y :: listSet r n x

/-- Insertion into an ascending list of numbers without repeats. -/
def insNat : List Nat → Nat → List Nat
  | [], k => [k]
  | j :: r, k => if k < j then k :: j :: r else if k = j then j :: r else j :: insNat r k

/-- Insertion by an order. -/
def insertBy {α : Type} (before : α → α → Bool) (x : α) : List α → List α
  | [] => [x]
  | y :: r => if before x y then x :: y :: r else y :: insertBy before x r

/-- Sum of a list. -/
def sumNat (l : List Nat) : Nat := l.foldl (· + ·) 0

/-- Quotient rounded up. -/
def ceilDiv (a b : Nat) : Nat := (a + b - 1) / b

/-- ⌈log₂ n⌉ within the bound k. -/
def clog2 (n : Nat) : Nat := (List.range 65).foldl (fun a i => if n ≤ 2 ^ i then min a i else a) 65

/-! ### Meanings -/

/-- A command whose effect is on everything but the time base, which it may read. -/
def act (s : State) (f : TimeBase → Dev → Dev) : Host.Outcome State Fault Refusal :=
  .next { s with dev := f s.time s.dev }

/-- A command whose effect is on the time base and on the rest. -/
def actTime (s : State) (f : TimeBase → Dev → TimeBase × Dev) : Host.Outcome State Fault Refusal :=
  .next { s with time := (f s.time s.dev).1, dev := (f s.time s.dev).2 }

/-! ### Free values (assumption 3) -/

/-- A fresh free value of w bits: nothing constrains it. -/
def Dev.fresh (d : Dev) (w : Nat) : BitVec w × Dev := (Config.freeValue w d.free, { d with free := d.free + 1 })

/-! ### Units by number -/

def Dev.site (d : Dev) (i : Nat) : Site := mget {} d.sites i
def Dev.setSite (d : Dev) (i : Nat) (x : Site) : Dev := { d with sites := mput {} d.sites i x }
def Dev.lag (d : Dev) (i : Nat) : Lagoon := mget {} d.lagoons i
def Dev.setLag (d : Dev) (i : Nat) (x : Lagoon) : Dev := { d with lagoons := mput {} d.lagoons i x }
def Dev.stk (d : Dev) (i : Nat) : Stack := mget {} d.hbms i
def Dev.setStk (d : Dev) (i : Nat) (x : Stack) : Dev := { d with hbms := mput {} d.hbms i x }
def Dev.arb (d : Dev) (i : Nat) : Arbiter := mget {} d.arbs i
def Dev.setArb (d : Dev) (i : Nat) (x : Arbiter) : Dev := { d with arbs := mput {} d.arbs i x }
def Dev.cw (d : Dev) (i : Nat) : Causeway := mget {} d.cause i
def Dev.setCw (d : Dev) (i : Nat) (x : Causeway) : Dev := { d with cause := mput {} d.cause i x }
def Dev.mask (d : Dev) (i : Nat) : MaskEngine := mget {} d.masks i
def Dev.setMask (d : Dev) (i : Nat) (x : MaskEngine) : Dev := { d with masks := mput {} d.masks i x }
def Dev.lnk (d : Dev) (i : Nat) : Link := mget {} d.links i
def Dev.setLnk (d : Dev) (i : Nat) (x : Link) : Dev := { d with links := mput {} d.links i x }
def Dev.inst (d : Dev) (i : Nat) : Option Instance := mget none d.colls i
def Dev.setInst (d : Dev) (i : Nat) (x : Option Instance) : Dev := { d with colls := mput none d.colls i x }
def Dev.isle (d : Dev) (i : Nat) : Isle := mget {} d.isles i
def Dev.setIsle (d : Dev) (i : Nat) (x : Isle) : Dev := { d with isles := mput {} d.isles i x }
def Dev.job (d : Dev) (i : Nat) : Job := mget {} d.jobs i
def Dev.setJob (d : Dev) (i : Nat) (x : Job) : Dev := { d with jobs := mput {} d.jobs i x }
def Dev.slot (d : Dev) (i : Nat) : Slot := mget {} d.slots i
def Dev.setSlot (d : Dev) (i : Nat) (x : Slot) : Dev := { d with slots := mput {} d.slots i x }
def Dev.group (d : Dev) (i : Nat) : Group := mget {} d.groups i
def Dev.setGroup (d : Dev) (i : Nat) (x : Group) : Dev := { d with groups := mput {} d.groups i x }
def Dev.rng (d : Dev) (i : Nat) : Ring := mget {} d.rings i
def Dev.setRng (d : Dev) (i : Nat) (x : Ring) : Dev := { d with rings := mput {} d.rings i x }
def Dev.die (d : Dev) (i : Nat) : SpdmDie := mget {} d.spdm i
def Dev.setDie (d : Dev) (i : Nat) (x : SpdmDie) : Dev := { d with spdm := mput {} d.spdm i x }
def Dev.bdir (d : Dev) (i : Nat) : BridgeState := mget {} d.bridges i
def Dev.setBdir (d : Dev) (i : Nat) (x : BridgeState) : Dev := { d with bridges := mput {} d.bridges i x }
def Dev.lgroup (d : Dev) (i g : Nat) : LaneGroup := mget {} (d.bdir i).groups g
def Dev.setLgroup (d : Dev) (i g : Nat) (x : LaneGroup) : Dev :=
  d.setBdir i { d.bdir i with groups := mput {} (d.bdir i).groups g x }

/-- Isle, Y and X of a logical site (R171). -/
def siteIsle (i : Nat) : Nat := i / 9216
def siteY (i : Nat) : Nat := i % 9216 / 96
def siteX (i : Nat) : Nat := i % 96
def siteNo (isle y x : Nat) : Nat := isle * 9216 + y * 96 + x
/-- Reef of a logical site (R171). -/
def siteReef (i : Nat) : Nat := siteIsle i * 36 + siteY i / 16 * 6 + siteX i / 16
/-- The logical sites of a reef (R171). -/
def reefSites (r : Nat) : List Nat :=
  (List.range 256).map fun k => siteNo (r / 36) (r % 36 / 6 * 16 + k / 16) (r % 6 * 16 + k % 16)

end Sys2Proof.Machine
end

