-- ==== Sys2Proof/Machine/Objects.lean ====
section
/-! DEFINITION. The object dictionary's entries: index, type, access class, default and range of every object (chapters
1, 7 to 18), the stored values of the writable ones, and the counting objects. -/
namespace Sys2Proof.Machine

/-- Data types (R498, Table 17-1). Strings and domains carry their length or maximum. -/
inductive ObjTy where
  | u8 | u16 | u32 | u64 | i8 | i16 | i32 | i64 | f32
  | vstr (n : Nat) | oct (n : Nat) | dom (n : Nat)
  deriving DecidableEq, Repr

/-- Access classes (R5, Table 0-2); a WO class names its writers. -/
inductive Access where
  | const | ro | owner | operator | tenant
  | woAny | woOwner | woOperator | woTenant | woOwnerOperator | woTenantOperator
  deriving DecidableEq, Repr

/-- One row of an object table. It covers `n` indices from `idx` by `step`, and `subN` sub-indices from `sub`. -/
structure ObjRow where
  idx : Nat
  sub : Nat
  ty : ObjTy
  acc : Access
  dflt : Int := 0
  lo : Int := 0
  hi : Option Int := none
  n : Nat := 1
  step : Nat := 1
  subN : Nat := 1
  nv : Bool := false
  deriving DecidableEq, Repr

/-- Size in bits of a numeric type; 0 for strings and domains. -/
def ObjTy.width : ObjTy → Nat
  | .u8 | .i8 => 8
  | .u16 | .i16 => 16
  | .u32 | .i32 | .f32 => 32
  | .u64 | .i64 => 64
  | .vstr _ | .oct _ | .dom _ => 0

/-- Signed types. -/
def ObjTy.signed : ObjTy → Bool
  | .i8 | .i16 | .i32 | .i64 => true
  | _ => false

/-- CiA 301 code of a type (Table 17-1). -/
def ObjTy.code : ObjTy → Nat
  | .i8 => 2 | .i16 => 3 | .i32 => 4 | .i64 => 0x15
  | .u8 => 5 | .u16 => 6 | .u32 => 7 | .u64 => 0x1B
  | .f32 => 8 | .vstr _ => 9 | .oct _ => 10 | .dom _ => 15

/-- Table 17-4. -/
def objComm : List ObjRow := [
  { idx := 0x1000, sub := 0, ty := .u32, acc := .const },
  { idx := 0x1008, sub := 0, ty := .vstr 32, acc := .const },
  { idx := 0x1009, sub := 0, ty := .vstr 8, acc := .const },
  { idx := 0x100A, sub := 0, ty := .vstr 32, acc := .ro },
  { idx := 0x1018, sub := 1, ty := .u32, acc := .const, dflt := 0xD4A },
  { idx := 0x1018, sub := 2, ty := .u32, acc := .const, dflt := 0x4832 },
  { idx := 0x1018, sub := 3, ty := .u32, acc := .const },
  { idx := 0x1018, sub := 4, ty := .u32, acc := .const },
  { idx := 0x1600, sub := 0, ty := .u8, acc := .const },
  { idx := 0x1A00, sub := 0, ty := .u8, acc := .operator, dflt := 6, hi := some 32 },
  { idx := 0x1A00, sub := 1, subN := 32, ty := .u32, acc := .operator },
  { idx := 0x1C00, sub := 1, subN := 4, ty := .u8, acc := .const },
  { idx := 0x1C12, sub := 0, ty := .u8, acc := .const },
  { idx := 0x1C13, sub := 0, ty := .u8, acc := .const, dflt := 1 },
  { idx := 0x1C13, sub := 1, ty := .u16, acc := .const, dflt := 0x1A00 }]

/-- Tables 17-5 and 16-12. -/
def objIdentity : List ObjRow := [
  { idx := 0x2000, sub := 1, ty := .vstr 16, acc := .const },
  { idx := 0x2000, sub := 2, ty := .oct 16, acc := .const },
  { idx := 0x2000, sub := 3, ty := .u16, acc := .const },
  { idx := 0x2000, sub := 4, ty := .u32, acc := .const },
  { idx := 0x2000, sub := 5, ty := .u32, acc := .ro },
  { idx := 0x2000, sub := 6, ty := .oct 48, acc := .ro },
  { idx := 0x2000, sub := 7, ty := .u32, acc := .ro, nv := true },
  { idx := 0x2000, sub := 8, ty := .u32, acc := .const, dflt := 36864 },
  { idx := 0x2000, sub := 9, ty := .u32, acc := .const, dflt := 39168 },
  { idx := 0x2000, sub := 0xA, ty := .u32, acc := .const, dflt := 0x17FFF },
  { idx := 0x2000, sub := 0xB, ty := .u8, acc := .const, dflt := 64 },
  { idx := 0x2000, sub := 0xC, ty := .u16, acc := .const, dflt := 256 },
  { idx := 0x2000, sub := 0xD, ty := .u32, acc := .const, dflt := 1179648 },
  { idx := 0x2000, sub := 0xE, ty := .u32, acc := .const, dflt := 65536 },
  { idx := 0x2000, sub := 0xF, ty := .u32, acc := .const, dflt := 0x06720320 },
  { idx := 0x2000, sub := 0x10, ty := .u8, acc := .ro, dflt := 1 },
  { idx := 0x2000, sub := 0x11, ty := .u8, acc := .woOwner },
  { idx := 0x2000, sub := 0x12, ty := .u32, acc := .ro }]

/-- Tables 1-8 and 17-6. -/
def objPower : List ObjRow := [
  { idx := 0x2100, sub := 1, ty := .u16, acc := .owner, dflt := 3200, lo := 1600, hi := some 3200 },
  { idx := 0x2100, sub := 2, ty := .u16, acc := .ro },
  { idx := 0x2100, sub := 3, ty := .u16, acc := .ro },
  { idx := 0x2100, sub := 4, ty := .u32, acc := .ro },
  { idx := 0x2100, sub := 5, ty := .u64, acc := .ro },
  { idx := 0x2100, sub := 6, ty := .u32, acc := .ro },
  { idx := 0x2100, sub := 0x10, subN := 4, ty := .u16, acc := .ro },
  { idx := 0x2100, sub := 0x14, subN := 4, ty := .u16, acc := .ro },
  { idx := 0x2100, sub := 0x18, subN := 4, ty := .u16, acc := .operator, dflt := 1650, lo := 800, hi := some 1650 },
  { idx := 0x2100, sub := 0x1C, ty := .u16, acc := .ro },
  { idx := 0x2100, sub := 0x1D, ty := .u16, acc := .ro },
  { idx := 0x2100, sub := 0x1E, ty := .u16, acc := .ro },
  { idx := 0x2100, sub := 0x20, subN := 4, ty := .i16, acc := .ro },
  { idx := 0x2100, sub := 0x24, subN := 4, ty := .u16, acc := .ro },
  { idx := 0x2100, sub := 0x28, subN := 4, ty := .u16, acc := .ro },
  { idx := 0x2100, sub := 0x2C, ty := .i16, acc := .owner, dflt := 95, lo := 60, hi := some 105 }]

/-- Table 15-5. -/
def objTime : List ObjRow := [
  { idx := 0x2200, sub := 1, ty := .u64, acc := .ro },
  { idx := 0x2200, sub := 2, ty := .u16, acc := .ro },
  { idx := 0x2200, sub := 3, ty := .u8, acc := .owner, hi := some 3 },
  { idx := 0x2200, sub := 4, ty := .u8, acc := .operator, dflt := 1, hi := some 1 },
  { idx := 0x2200, sub := 5, ty := .u64, acc := .woOperator },
  { idx := 0x2200, sub := 6, ty := .u8, acc := .ro },
  { idx := 0x2200, sub := 7, ty := .i64, acc := .ro },
  { idx := 0x2200, sub := 8, ty := .i32, acc := .ro },
  { idx := 0x2200, sub := 9, ty := .u32, acc := .owner, dflt := 500000, lo := 1000, hi := some 500000 },
  { idx := 0x2200, sub := 0xA, ty := .u32, acc := .ro },
  { idx := 0x2200, sub := 0xB, ty := .i16, acc := .owner, dflt := 3, lo := -1000, hi := some 1000 },
  { idx := 0x2200, sub := 0xC, ty := .u32, acc := .owner, dflt := 100, lo := 10, hi := some 1000000 },
  { idx := 0x2200, sub := 0xD, ty := .u32, acc := .ro },
  { idx := 0x2200, sub := 0xE, ty := .u32, acc := .ro },
  { idx := 0x2200, sub := 0x10, ty := .u16, acc := .const, dflt := 2000 },
  { idx := 0x2200, sub := 0x11, ty := .u64, acc := .ro }]

/-- Tables 17-7, 17-8 and 17-9, and the authentication objects of Table 16-12. -/
def objTrust : List ObjRow := [
  { idx := 0x2300, sub := 1, ty := .u32, acc := .owner, hi := some 1000000, nv := true },
  { idx := 0x2300, sub := 2, ty := .u16, acc := .owner, dflt := 3000, lo := 2000, hi := some 15000, nv := true },
  { idx := 0x2300, sub := 3, ty := .u16, acc := .ro },
  { idx := 0x2300, sub := 4, ty := .u32, acc := .ro },
  { idx := 0x2300, sub := 5, ty := .u32, acc := .const, dflt := 4000 },
  { idx := 0x2300, sub := 6, ty := .u32, acc := .ro },
  { idx := 0x2300, sub := 7, ty := .u16, acc := .owner, dflt := 10, lo := 1, hi := some 1000 },
  { idx := 0x2300, sub := 0x10, ty := .u32, acc := .const, dflt := 32768 },
  { idx := 0x2300, sub := 0x11, ty := .u32, acc := .ro, nv := true },
  { idx := 0x2300, sub := 0x12, ty := .u64, acc := .ro, nv := true },
  { idx := 0x2300, sub := 0x13, ty := .u64, acc := .ro, nv := true },
  { idx := 0x2300, sub := 0x14, ty := .u64, acc := .woAny },
  { idx := 0x2300, sub := 0x15, ty := .oct 512, acc := .ro },
  { idx := 0x2300, sub := 0x16, ty := .u32, acc := .ro },
  { idx := 0x2400, sub := 1, ty := .dom 16777216, acc := .woAny },
  { idx := 0x2400, sub := 2, ty := .u16, acc := .ro },
  { idx := 0x2400, sub := 3, ty := .u32, acc := .ro },
  { idx := 0x2400, sub := 4, ty := .u8, acc := .ro },
  { idx := 0x2400, sub := 5, ty := .u32, acc := .const, dflt := 16777216 },
  { idx := 0x2400, sub := 6, ty := .u16, acc := .ro },
  { idx := 0x2500, sub := 1, ty := .u8, acc := .const, dflt := 1 },
  { idx := 0x2500, sub := 2, ty := .oct 48, acc := .const },
  { idx := 0x2500, sub := 3, ty := .oct 48, acc := .const },
  { idx := 0x2500, sub := 4, ty := .dom 16384, acc := .ro },
  { idx := 0x2500, sub := 5, ty := .u32, acc := .ro, nv := true },
  { idx := 0x2500, sub := 6, ty := .u32, acc := .ro },
  { idx := 0x2500, sub := 7, ty := .u8, acc := .ro },
  { idx := 0x2500, sub := 0x10, subN := 16, ty := .oct 97, acc := .owner, nv := true },
  { idx := 0x2500, sub := 0x20, subN := 16, ty := .oct 97, acc := .owner, nv := true },
  { idx := 0x2500, sub := 0x40, ty := .oct 32, acc := .ro },
  { idx := 0x2500, sub := 0x41, ty := .oct 132, acc := .woAny },
  { idx := 0x2500, sub := 0x42, ty := .u8, acc := .ro },
  { idx := 0x2500, sub := 0x43, ty := .u8, acc := .woAny },
  { idx := 0x2500, sub := 0x44, ty := .oct 160, acc := .woOwnerOperator },
  { idx := 0x2500, sub := 0x45, ty := .u32, acc := .owner, dflt := 600, lo := 10, hi := some 86400 }]

/-- Tables 14-5, 17-10 and 9-13, and 16-7. -/
def objSched : List ObjRow := [
  { idx := 0x2600, sub := 1, ty := .u8, acc := .operator, dflt := 1, hi := some 1 },
  { idx := 0x2600, sub := 2, ty := .u8, acc := .operator, dflt := 5, hi := some 50 },
  { idx := 0x2600, sub := 3, ty := .u32, acc := .operator, dflt := 2000, lo := 100, hi := some 1000000 },
  { idx := 0x2600, sub := 4, ty := .u16, acc := .ro },
  { idx := 0x2600, sub := 5, ty := .u32, acc := .ro },
  { idx := 0x2600, sub := 6, ty := .u64, acc := .ro },
  { idx := 0x2700, sub := 1, ty := .u64, acc := .const, dflt := 4294967296 },
  { idx := 0x2700, sub := 2, ty := .u16, acc := .ro },
  { idx := 0x2700, sub := 3, ty := .u8, acc := .ro, dflt := 144 },
  { idx := 0x2700, sub := 4, ty := .u64, acc := .ro },
  { idx := 0x2700, sub := 0x10, ty := .u16, acc := .operator, dflt := 100, lo := 1, hi := some 10000 },
  { idx := 0x2700, sub := 0x11, ty := .u16, acc := .owner, dflt := 10, lo := 10, hi := some 1000 },
  { idx := 0x2710, n := 32, sub := 1, ty := .u8, acc := .operator, hi := some 6 },
  { idx := 0x2710, n := 32, sub := 2, ty := .u64, acc := .operator },
  { idx := 0x2710, n := 32, sub := 3, ty := .u8, acc := .operator, dflt := 6, lo := 6, hi := some 16 },
  { idx := 0x2710, n := 32, sub := 4, ty := .u8, acc := .operator, hi := some 1 },
  { idx := 0x2710, n := 32, sub := 5, ty := .u8, acc := .operator, dflt := 0xFF },
  { idx := 0x2710, n := 32, sub := 6, ty := .u8, acc := .operator, hi := some 1 },
  { idx := 0x2710, n := 32, sub := 7, ty := .u16, acc := .ro },
  { idx := 0x2710, n := 32, sub := 8, ty := .u64, acc := .ro },
  { idx := 0x2800, sub := 1, ty := .u32, acc := .operator, dflt := 1000, lo := 1, hi := some 3600000 },
  { idx := 0x2800, sub := 2, ty := .u16, acc := .operator, dflt := 256, hi := some 1024 },
  { idx := 0x2800, sub := 3, ty := .u64, acc := .ro },
  { idx := 0x2800, sub := 4, ty := .u64, acc := .ro },
  { idx := 0x2800, sub := 5, ty := .u64, acc := .ro }]

/-- Tables 12-16, 11-6 and 13-8. -/
def objEngines : List ObjRow := [
  { idx := 0x2900, sub := 1, ty := .u32, acc := .const, dflt := 262144 },
  { idx := 0x2900, sub := 2, ty := .u32, acc := .ro },
  { idx := 0x2900, sub := 3, ty := .u8, acc := .const, dflt := 8 },
  { idx := 0x2900, sub := 4, ty := .u32, acc := .const, dflt := 65536 },
  { idx := 0x2900, sub := 5, ty := .u8, acc := .const, dflt := 16 },
  { idx := 0x2900, sub := 6, ty := .u32, acc := .const, dflt := 1048576 },
  { idx := 0x2900, sub := 7, ty := .u16, acc := .const, dflt := 512 },
  { idx := 0x2900, sub := 0x10, subN := 8, ty := .u64, acc := .ro },
  { idx := 0x2900, sub := 0x20, ty := .u8, acc := .operator, dflt := 1, hi := some 1 },
  { idx := 0x2A00, sub := 1, ty := .u32, acc := .const, dflt := 262144 },
  { idx := 0x2A00, sub := 2, ty := .u16, acc := .const, dflt := 256 },
  { idx := 0x2A00, sub := 3, ty := .u16, acc := .const, dflt := 512 },
  { idx := 0x2A00, sub := 0x10, subN := 8, ty := .u64, acc := .ro },
  { idx := 0x2A00, sub := 0x18, subN := 8, ty := .u32, acc := .ro },
  { idx := 0x2A00, sub := 0x20, subN := 4, ty := .u16, acc := .ro },
  { idx := 0x2A00, sub := 0x24, subN := 8, ty := .u64, acc := .ro },
  { idx := 0x2B00, sub := 1, ty := .u8, acc := .const, dflt := 16 },
  { idx := 0x2B00, sub := 2, ty := .u8, acc := .ro },
  { idx := 0x2B00, sub := 3, ty := .u16, acc := .const, dflt := 4096 },
  { idx := 0x2B00, sub := 4, ty := .u16, acc := .ro },
  { idx := 0x2B00, sub := 5, ty := .u64, acc := .owner, dflt := 1099511627776, lo := 16777216, hi := some 1099511627776 },
  { idx := 0x2B00, sub := 6, ty := .u16, acc := .operator, dflt := 1000, lo := 1, hi := some 60000 },
  { idx := 0x2B00, sub := 7, ty := .u32, acc := .operator, dflt := 200, lo := 10, hi := some 100000 },
  { idx := 0x2B00, sub := 9, ty := .u64, acc := .ro },
  { idx := 0x2B00, sub := 0x10, subN := 16, ty := .u16, acc := .ro },
  { idx := 0x2B00, sub := 0x20, subN := 16, ty := .oct 48, acc := .ro },
  { idx := 0x2B00, sub := 0x30, subN := 48, ty := .u64, acc := .ro },
  { idx := 0x2B00, sub := 0x60, subN := 8, ty := .u16, acc := .ro }]

/-- Tables 7-7, 17-14, 17-15, 17-16, 17-17 and 17-19. -/
def objHealth : List ObjRow := [
  { idx := 0x2C00, sub := 1, ty := .u64, acc := .ro, dflt := 618475290624 },
  { idx := 0x2C00, sub := 2, ty := .u8, acc := .owner, dflt := 24, lo := 1, hi := some 24 },
  { idx := 0x2C00, sub := 3, ty := .u16, acc := .owner, dflt := 256, lo := 16, hi := some 4096 },
  { idx := 0x2C00, sub := 4, ty := .u8, acc := .owner, dflt := 2, lo := 1, hi := some 16 },
  { idx := 0x2C00, sub := 5, ty := .u8, acc := .const, dflt := 8 },
  { idx := 0x2C00, sub := 6, ty := .u16, acc := .const, dflt := 256 },
  { idx := 0x2C00, sub := 7, ty := .u32, acc := .ro },
  { idx := 0x2C00, sub := 0x10, subN := 16, ty := .i16, acc := .ro },
  { idx := 0x2C00, sub := 0x20, subN := 16, ty := .u32, acc := .ro, dflt := 36864 },
  { idx := 0x2C00, sub := 0x30, subN := 16, ty := .u8, acc := .ro, dflt := 1 },
  { idx := 0x2C00, sub := 0x40, subN := 16, ty := .u16, acc := .ro, dflt := 0xFFFF },
  { idx := 0x2C00, sub := 0x50, subN := 16, ty := .u64, acc := .ro },
  { idx := 0x2C00, sub := 0x60, subN := 16, ty := .u32, acc := .ro },
  { idx := 0x2C00, sub := 0x70, subN := 16, ty := .u16, acc := .ro },
  { idx := 0x2C00, sub := 0x80, subN := 16, ty := .u32, acc := .ro },
  { idx := 0x2C00, sub := 0x90, ty := .u16, acc := .woOwner, hi := some 255, nv := true },
  { idx := 0x2C10, n := 16, sub := 1, subN := 16, ty := .u16, acc := .ro, nv := true },
  { idx := 0x2C10, n := 16, sub := 0x11, subN := 16, ty := .u8, acc := .ro, nv := true },
  { idx := 0x2C10, n := 16, sub := 0x21, subN := 16, ty := .u16, acc := .ro },
  { idx := 0x2C10, n := 16, sub := 0x31, subN := 16, ty := .u8, acc := .ro, nv := true },
  { idx := 0x2D00, sub := 1, ty := .u32, acc := .ro, dflt := 36864 },
  { idx := 0x2D00, sub := 2, ty := .u8, acc := .ro, nv := true },
  { idx := 0x2D00, sub := 3, ty := .u16, acc := .ro, nv := true },
  { idx := 0x2D00, sub := 4, ty := .u32, acc := .ro },
  { idx := 0x2D00, sub := 5, ty := .u8, acc := .ro },
  { idx := 0x2D00, sub := 6, subN := 4, ty := .f32, acc := .ro },
  { idx := 0x2D00, sub := 0xA, ty := .u16, acc := .ro },
  { idx := 0x2D00, sub := 0x10, subN := 8, ty := .u32, acc := .ro },
  { idx := 0x2D00, sub := 0x18, subN := 8, ty := .u64, acc := .ro },
  { idx := 0x2D00, sub := 0x20, subN := 8, ty := .u64, acc := .ro },
  { idx := 0x2D00, sub := 0x30, ty := .u8, acc := .owner, dflt := 80, lo := 50, hi := some 100 },
  { idx := 0x2D10, n := 4, sub := 1, subN := 36, ty := .oct 16, acc := .ro, nv := true },
  { idx := 0x2D10, n := 4, sub := 0x41, subN := 36, ty := .u8, acc := .ro, nv := true },
  { idx := 0x2D10, n := 4, sub := 0x81, subN := 36, ty := .u8, acc := .ro },
  { idx := 0x2E00, sub := 1, ty := .u16, acc := .const, dflt := 4096 },
  { idx := 0x2E00, sub := 2, ty := .u32, acc := .ro, dflt := 0xFFFFFFFF },
  { idx := 0x2E00, sub := 3, ty := .u32, acc := .ro },
  { idx := 0x2E00, sub := 4, ty := .u32, acc := .woAny },
  { idx := 0x2E00, sub := 5, ty := .u16, acc := .woAny },
  { idx := 0x2E00, sub := 6, ty := .oct 32, acc := .ro },
  { idx := 0x2F00, sub := 1, ty := .u8, acc := .ro },
  { idx := 0x2F00, sub := 2, subN := 3, ty := .u16, acc := .ro },
  { idx := 0x2F00, sub := 5, ty := .u8, acc := .owner, hi := some 16 },
  { idx := 0x2F00, sub := 6, ty := .u64, acc := .ro }]

/-- Tables 14-1 and 17-20. -/
def objSlots : List ObjRow := [
  { idx := 0x3000, n := 64, step := 0x10, sub := 1, ty := .u8, acc := .ro },
  { idx := 0x3000, n := 64, step := 0x10, sub := 2, ty := .u16, acc := .operator, dflt := 100, lo := 1 },
  { idx := 0x3000, n := 64, step := 0x10, sub := 3, ty := .u8, acc := .operator, dflt := 144, hi := some 144 },
  { idx := 0x3000, n := 64, step := 0x10, sub := 4, ty := .u32, acc := .operator, dflt := 589824, hi := some 589824 },
  { idx := 0x3000, n := 64, step := 0x10, sub := 5, ty := .u8, acc := .operator, hi := some 1 },
  { idx := 0x3000, n := 64, step := 0x10, sub := 6, ty := .u8, acc := .ro },
  { idx := 0x3000, n := 64, step := 0x10, sub := 7, ty := .u32, acc := .ro },
  { idx := 0x3000, n := 64, step := 0x10, sub := 8, ty := .u64, acc := .ro },
  { idx := 0x3000, n := 64, step := 0x10, sub := 9, ty := .u64, acc := .ro },
  { idx := 0x3001, n := 64, step := 0x10, sub := 1, ty := .oct 97, acc := .owner, nv := true },
  { idx := 0x3001, n := 64, step := 0x10, sub := 2, ty := .vstr 32, acc := .owner, nv := true },
  { idx := 0x3002, n := 64, step := 0x10, sub := 1, subN := 8, ty := .oct 97, acc := .tenant, nv := true },
  { idx := 0x3003, n := 64, step := 0x10, sub := 1, ty := .u8, acc := .ro },
  { idx := 0x3003, n := 64, step := 0x10, sub := 2, ty := .u16, acc := .ro },
  { idx := 0x3003, n := 64, step := 0x10, sub := 3, ty := .u32, acc := .ro, nv := true }]

/-- Tables 14-6, 17-13, 9-13, 8-8, 12-16 and 13-8: the objects of a job (Table 17-11). -/
def objJobs : List ObjRow := [
  { idx := 0x4000, n := 256, sub := 1, ty := .u8, acc := .operator, dflt := 0xFF },
  { idx := 0x4000, n := 256, sub := 2, ty := .u8, acc := .woTenantOperator, lo := 1, hi := some 5 },
  { idx := 0x4000, n := 256, sub := 3, ty := .u8, acc := .operator, hi := some 1 },
  { idx := 0x4000, n := 256, sub := 4, ty := .u16, acc := .operator, dflt := 100, lo := 1 },
  { idx := 0x4000, n := 256, sub := 5, ty := .u32, acc := .tenant, hi := some 10000000 },
  { idx := 0x4000, n := 256, sub := 6, ty := .u16, acc := .tenant, dflt := 1500, lo := 800, hi := some 1650 },
  { idx := 0x4000, n := 256, sub := 7, ty := .u32, acc := .tenant, hi := some 100000000 },
  { idx := 0x4000, n := 256, sub := 8, ty := .u32, acc := .tenant, hi := some 100000000 },
  { idx := 0x4000, n := 256, sub := 9, ty := .u8, acc := .woTenant, hi := some 1 },
  { idx := 0x4000, n := 256, sub := 0xA, ty := .u8, acc := .ro },
  { idx := 0x4000, n := 256, sub := 0xB, ty := .oct 18, acc := .ro },
  { idx := 0x4000, n := 256, sub := 0xC, ty := .u8, acc := .operator, dflt := 0xFF },
  { idx := 0x4000, n := 256, sub := 0xD, ty := .u64, acc := .ro },
  { idx := 0x4000, n := 256, sub := 0xE, ty := .u32, acc := .ro },
  { idx := 0x4000, n := 256, sub := 0xF, ty := .f32, acc := .ro },
  { idx := 0x4000, n := 256, sub := 0x10, ty := .u8, acc := .ro },
  { idx := 0x4000, n := 256, sub := 0x11, ty := .u16, acc := .ro },
  { idx := 0x4000, n := 256, sub := 0x12, ty := .u32, acc := .ro },
  { idx := 0x4000, n := 256, sub := 0x13, ty := .u8, acc := .ro },
  { idx := 0x4000, n := 256, sub := 0x14, ty := .oct 48, acc := .ro },
  { idx := 0x4000, n := 256, sub := 0x15, ty := .u64, acc := .ro },
  { idx := 0x4000, n := 256, sub := 0x16, ty := .u64, acc := .ro },
  { idx := 0x4000, n := 256, sub := 0x17, ty := .u32, acc := .ro },
  { idx := 0x4000, n := 256, sub := 0x18, ty := .u64, acc := .tenant },
  { idx := 0x4000, n := 256, sub := 0x19, ty := .u64, acc := .tenant, lo := 256, hi := some 4294967296 },
  { idx := 0x4000, n := 256, sub := 0x1A, ty := .oct 32, acc := .tenant },
  { idx := 0x4000, n := 256, sub := 0x1B, ty := .u8, acc := .tenant, hi := some 1 },
  { idx := 0x4000, n := 256, sub := 0x1C, ty := .u16, acc := .ro },
  { idx := 0x4000, n := 256, sub := 0x1D, ty := .u32, acc := .ro },
  { idx := 0x4000, n := 256, sub := 0x20, subN := 6, ty := .u64, acc := .ro },
  { idx := 0x4000, n := 256, sub := 0x30, subN := 3, ty := .u32, acc := .ro },
  { idx := 0x4000, n := 256, sub := 0x33, ty := .u16, acc := .ro },
  { idx := 0x4000, n := 256, sub := 0x40, ty := .u32, acc := .ro },
  { idx := 0x4000, n := 256, sub := 0x41, ty := .u32, acc := .ro },
  { idx := 0x4000, n := 256, sub := 0x42, ty := .u32, acc := .ro, dflt := 1 },
  { idx := 0x4000, n := 256, sub := 0x43, ty := .u32, acc := .ro },
  { idx := 0x4000, n := 256, sub := 0x44, ty := .u64, acc := .ro },
  { idx := 0x4000, n := 256, sub := 0x50, ty := .dom 262304, acc := .tenant },
  { idx := 0x4000, n := 256, sub := 0x51, ty := .u16, acc := .ro },
  { idx := 0x4000, n := 256, sub := 0x52, ty := .u16, acc := .ro, dflt := 0xFFFF },
  { idx := 0x4000, n := 256, sub := 0x53, ty := .u16, acc := .ro },
  { idx := 0x4000, n := 256, sub := 0x54, ty := .u32, acc := .ro },
  { idx := 0x4000, n := 256, sub := 0x55, ty := .u32, acc := .ro },
  { idx := 0x4000, n := 256, sub := 0x56, ty := .u64, acc := .ro }]

/-- Every object of the dictionary but the sub-index 0 of records (R506). -/
def objTable : List ObjRow :=
  objComm ++ objIdentity ++ objPower ++ objTime ++ objTrust ++ objSched ++ objEngines ++ objHealth ++ objSlots ++ objJobs

/-- The row covers the index. -/
def ObjRow.hasIdx (r : ObjRow) (idx : Nat) : Bool :=
  decide (r.idx ≤ idx) && decide ((idx - r.idx) % r.step = 0) && decide ((idx - r.idx) / r.step < r.n)

/-- The row covers index and sub-index. -/
def ObjRow.has (r : ObjRow) (idx sub : Nat) : Bool :=
  r.hasIdx idx && decide (r.sub ≤ sub) && decide (sub < r.sub + r.subN)

/-- The index exists (R506). -/
def idxExists (idx : Nat) : Bool := objTable.any (·.hasIdx idx)

/-- Highest sub-index of an index (R498). -/
def maxSub (idx : Nat) : Nat := (objTable.filter (·.hasIdx idx)).foldl (fun m r => max m (r.sub + r.subN - 1)) 0

/-- The row of an object; sub-index 0 of a record is UNSIGNED8, CONST (R498). -/
def findObj (idx sub : Nat) : Option ObjRow :=
  match objTable.find? (·.has idx sub) with
  | some r => some r
  | none =>
    if sub = 0 ∧ idxExists idx then
      some { idx := idx, sub := 0, ty := .u8, acc := .const, dflt := (maxSub idx : Nat) }
    else none

/-- The key of an object in the stores. -/
def objKey (idx sub : Nat) : Nat := idx * 256 + sub

/-- Highest value of an unsigned object (R500). -/
def objMax (idx sub : Nat) : Nat :=
  match findObj idx sub with
  | some r => 2 ^ r.ty.width - 1
  | none => 2 ^ 64 - 1

/-- Default of a numeric object, as the number its bytes spell. -/
def objDflt (idx sub : Nat) : Nat :=
  match findObj idx sub with
  | some r => toTwos r.ty.width r.dflt
  | none => 0

/-- Default TxPDO entries (R508). -/
def txpdoDefault : List Nat := [0x20001008, 0x20001220, 0x22000140, 0x21000210, 0x29000220, 0x26000410]

/-- Default value of an object, as bytes. -/
def objDefault (idx sub : Nat) : List Byte :=
  match findObj idx sub with
  | some r =>
    match r.ty with
    | .oct n => List.replicate n 0
    | .vstr n => List.replicate n 0
    | .dom _ => []
    | t =>
      if idx = 0x1A00 ∧ 1 ≤ sub then le 4 (txpdoDefault.getD (sub - 1) 0)
      else if idx = 0x1C00 ∧ 1 ≤ sub then le 1 sub
      else le (t.width / 8) (toTwos t.width r.dflt)
  | none => []

/-- Stored value of a writable object. -/
def Dev.obj (d : Dev) (idx sub : Nat) : List Byte := mget (objDefault idx sub) d.dict (objKey idx sub)

/-- Stored value of a writable unsigned object. -/
def Dev.objN (d : Dev) (idx sub : Nat) : Nat := leNat (d.obj idx sub)

/-- Store of a writable object. -/
def Dev.setObj (d : Dev) (idx sub : Nat) (v : List Byte) : Dev :=
  { d with dict := mput (objDefault idx sub) d.dict (objKey idx sub) v }

/-- Value of a maintained numeric RO object. -/
def Dev.ctrN (d : Dev) (idx sub : Nat) : Nat := mget (objDflt idx sub) d.ctr (objKey idx sub)

/-- Set of a maintained numeric RO object. -/
def Dev.setCtr (d : Dev) (idx sub v : Nat) : Dev := { d with ctr := mput (objDflt idx sub) d.ctr (objKey idx sub) v }

/-- Addition to a counting object: it holds at its maximum (R500). -/
def Dev.bump (d : Dev) (idx sub n : Nat) : Dev := d.setCtr idx sub (min (objMax idx sub) (d.ctrN idx sub + n))

/-- A job's slot; 0xFF none (R434). -/
def Dev.slotOf (d : Dev) (j : Nat) : Nat := if j < 256 then d.objN (0x4000 + j) 1 else 0xFF

/-- Jobs whose slot is n, ascending. -/
def Dev.jobsOf (d : Dev) (n : Nat) : List Nat := (List.range 256).filter fun j => d.slotOf j = n

/-- An NV object's committed value, as served (R500). -/
def Dev.nvObj (d : Dev) (idx sub : Nat) : List Byte := d.obj idx sub

/-- A public key object is empty (R514). -/
def emptyKey (b : List Byte) : Bool := b.all (· = 0)

/-- A record of a slot awaits its commit: in the queue, in firmware, or in the commit in progress (R434, R553). -/
def NvCtl.slotWaits (v : NvCtl) (n : Nat) : Bool :=
  (v.queue ++ v.overflow).any (fun r => decide (r.slot = n)) ||
    v.committing.isSome && (List.range (v.copy0.counter - v.copy1.counter)).any fun i =>
      decide (fieldAt (mget [] v.copy0.recs ((v.copy1.counter + i) % 32768)) 2 1 = n)

/-- `SLOT_STATE` (R434, R523). -/
def Dev.slotState (d : Dev) (n : Nat) : Nat :=
  if emptyKey (d.obj (0x3001 + 0x10 * n) 1) then 0
  else if (d.jobsOf n) ≠ [] then 2
  else if (d.slot n).closing ∧ (d.nv.slotWaits n ∨
      d.hbms.any (fun e => e.2.zeroing.any fun i => decide (bits (mget 0 e.2.regions i).toNat 35 30 = n))) then 3
  else 1

/-- An entry in the error log (R520), stamped with the present time base. When the ring is full the oldest is replaced. -/
def Dev.logErr (d : Dev) (t : TimeBase) (code : Nat) (job : Nat := 0x1FF) (die : Nat := Config.logDie code) (unit : Nat := Config.logUnit code)
    (wh : Nat := Config.logWhere code)
    (tag : Nat := 0xFFFFFFFF) (detail : Nat := 0) (slot : Nat := 0x1FF) : Dev :=
  let sl := if slot < 0x100 then slot else if job < 256 then d.slotOf job else 0xFF
  let e : ErrEntry := ⟨t.ns, d.log.count % 2 ^ 32, BitVec.ofNat 16 code, job, sl, die, unit, wh, tag, detail⟩
  let full := decide (4096 ≤ d.log.entries.length)
  let d1 : Dev := { d with log :=
    { entries := (if full then d.log.entries.drop 1 else d.log.entries) ++ [e], count := d.log.count + 1 } }
  let d2 := if full then d1.bump 0x2E00 3 1 else d1
  if job < 256 then d2.bump (0x4000 + job) 0x1D 1 else d2

end Sys2Proof.Machine
end

