-- ==== Sys2Proof/Machine/Plan.lean ====
section
/-! DEFINITION. Reading an accepted plan image (R290 to R297): sections, records, and the translation of isles, reefs
and sites by the placement offset (R294). -/
namespace Sys2Proof.Machine

/-- Offset and size of the section of a type (Table 9-2). -/
def sectionOf (img : List Byte) (ty : Nat) : Option (Nat × Nat) :=
  ((List.range (fieldAt img 26 2)).filterMap fun i =>
    let o := 128 + 32 * i
    if fieldAt img o 2 = ty then some (fieldAt img (o + 8) 8, fieldAt img (o + 16) 8) else none).head?

/-- The bytes of a section; empty when absent. -/
def sectionBytes (img : List Byte) (ty : Nat) : List Byte :=
  match sectionOf img ty with
  | some (o, n) => bytesAt img o n
  | none => []

/-- Fixed-size records of a byte string. -/
def recordsOf (b : List Byte) (size : Nat) : List (List Byte) :=
  (List.range (b.length / size)).map fun i => bytesAt b (i * size) size

/-- Isles in ring order I0, I1, I3, I2 (R294). -/
def ringIsles : List Nat := [0, 1, 3, 2]

/-- Device isle of a plan isle under rotation ρ (R294). -/
def rotIsle (rho i : Nat) : Nat := ringIsles.getD ((ringIsles.idxOf i + rho) % 4) 0

/-- Device reef (package number) of a plan reef 6y + x of plan isle i (R294). -/
def Plan.reef (p : Plan) (i r : Nat) : Nat :=
  let (dx, dy) := p.shift.getD i (0, 0)
  rotIsle p.rho i * 36 + (r / 6 + dy) * 6 + (r % 6 + dx)

/-- Device site of plan site (X, Y) of plan isle i (R294). -/
def Plan.site (p : Plan) (i x y : Nat) : Nat :=
  let (dx, dy) := p.shift.getD i (0, 0)
  siteNo (rotIsle p.rho i) (y + 16 * dy) (x + 16 * dx)

/-- Header flags (Table 9-1): `INVARIANT`, `DISTILL`, `RESUME`; plan seed; slot. -/
def Plan.flag (p : Plan) (b : Nat) : Bool := bit (fieldAt p.image 6 2) b
def Plan.seed (p : Plan) : Nat := fieldAt p.image 16 8

/-- A stage record (Table 9-5). -/
structure StageRec where
  stage : Nat
  isle : Nat
  part : Nat
  jobTide : Bool
  reefs : List Nat
  planes : List Nat
  deriving DecidableEq, Repr

/-- Ones of a 36-bit mask. -/
def ones36 (x : Nat) : List Nat := (List.range 36).filter fun i => bit x i

/-- The stage records (section 0x01). -/
def stageRecs (img : List Byte) : List StageRec :=
  (recordsOf (sectionBytes img 1) 32).map fun r =>
    { stage := fieldAt r 0 1, isle := fieldAt r 1 1, part := fieldAt r 2 1, jobTide := decide (fieldAt r 3 1 = 1),
      reefs := ones36 (fieldAt r 8 8), planes := ones36 (fieldAt r 16 8) }

/-- The job's tide stage (R296). -/
def Plan.tideStage (p : Plan) : Nat := ((stageRecs p.image).find? (·.jobTide)).elim 0 (·.stage)

/-- An epoch record (Table 9-9). -/
structure EpochRec where
  rtype : Nat
  stage : Nat
  x : Nat
  y : Nat
  isle : Nat
  trig : Nat
  perUnit : Nat
  ctr0 : Nat
  savePa : Nat
  deriving DecidableEq, Repr

/-- The epoch records (section 0x0B). -/
def epochRecs (img : List Byte) : List EpochRec :=
  (recordsOf (sectionBytes img 0xB) 32).map fun r =>
    { rtype := fieldAt r 0 1, stage := fieldAt r 1 1, x := fieldAt r 2 2, y := fieldAt r 4 2, isle := fieldAt r 6 1,
      trig := fieldAt r 7 1, perUnit := fieldAt r 8 4, ctr0 := fieldAt r 12 4, savePa := fieldAt r 16 8 }

/-- The tide reporters of a stage, as device sites (R307). -/
def Plan.reporters (p : Plan) (stage : Nat) : List Nat :=
  ((epochRecs p.image).filter fun e => e.rtype = 1 ∧ e.stage = stage).map fun e => p.site e.isle e.x e.y

/-- A site record with its body (Table 9-6). -/
structure SiteRec where
  x : Nat
  y : Nat
  isle : Nat
  stage : Nat
  prog : List W64
  trigs : List W64
  desc : List W64
  /-- (byte address, words) -/
  extents : List (Nat × List W64)
  deriving DecidableEq, Repr

/-- n 64-bit words at an offset. -/
def words (b : List Byte) (o n : Nat) : List W64 :=
  (List.range n).map fun i => BitVec.ofNat 64 (fieldAt b (o + 8 * i) 8)

/-- n data extents from an offset; the offset after them. -/
def readExtents (b : List Byte) : Nat → Nat → List (Nat × List W64) × Nat
  | 0, o => ([], o)
  | n + 1, o =>
    let h := fieldAt b o 8
    let len := bits h 31 16
    let (r, e) := readExtents b n (o + 8 + 8 * len)
    ((bits h 15 0, words b (o + 8) len) :: r, e)

/-- Site records from an offset, at most `fuel` of them. -/
def readSites (b : List Byte) : Nat → Nat → List SiteRec
  | 0, _ => []
  | fuel + 1, o =>
    if b.length ≤ o then []
    else
      let np := fieldAt b (o + 6) 2
      let d := o + 16 + 8 * np + 256
      let (ex, e) := readExtents b (fieldAt b (o + 8) 2) (d + 1408)
      { x := fieldAt b o 2, y := fieldAt b (o + 2) 2, isle := fieldAt b (o + 4) 1, stage := fieldAt b (o + 5) 1,
        prog := words b (o + 16) np, trigs := words b (o + 16 + 8 * np) 32, desc := words b d 176, extents := ex }
        :: readSites b fuel e

/-- The site records (section 0x02). -/
def siteRecs (img : List Byte) : List SiteRec :=
  let b := sectionBytes img 2
  readSites b (b.length / 1696 + 1) 0

/-- Memory-map region record (Table 9-7, section 0x05). -/
structure MapRec where
  region : Nat
  isle : Nat
  stack : Nat
  kind : Nat
  size : Nat
  initOfs : Nat
  initLen : Nat
  deriving DecidableEq, Repr

/-- The memory map (section 0x05). -/
def mapRecs (img : List Byte) : List MapRec :=
  let b := sectionBytes img 5
  (List.range (if b = [] then 0 else min 256 (fieldAt b 0 4))).map fun i =>
    let o := 16 + 32 * i
    { region := fieldAt b o 1, isle := fieldAt b (o + 1) 1, stack := fieldAt b (o + 2) 1, kind := fieldAt b (o + 3) 1,
      size := fieldAt b (o + 4) 4, initOfs := fieldAt b (o + 8) 8, initLen := fieldAt b (o + 16) 8 }

/-- A link record (Table 9-8, section 0x0A). -/
structure LinkRec where
  ptype : Nat
  pisle : Nat
  px : Nat
  py : Nat
  ptrig : Nat
  proute : Nat
  cisle : Nat
  feedback : Bool
  clear : Bool
  cx : Nat
  cy : Nat
  cq : Nat
  tokens : Nat
  depth : Nat
  deriving DecidableEq, Repr

/-- The link records. -/
def linkRecs (img : List Byte) : List LinkRec :=
  (recordsOf (sectionBytes img 0xA) 32).map fun r =>
    { ptype := fieldAt r 0 1, pisle := fieldAt r 1 1, px := fieldAt r 2 2, py := fieldAt r 4 2, ptrig := fieldAt r 6 1,
      proute := fieldAt r 7 1, cisle := fieldAt r 8 1, feedback := bit (fieldAt r 9 1) 0, clear := bit (fieldAt r 9 1) 1,
      cx := fieldAt r 10 2, cy := fieldAt r 12 2, cq := fieldAt r 14 1, tokens := fieldAt r 16 4, depth := fieldAt r 20 4 }

/-- A shape guard (Table 9-10, section 0x08). -/
structure GuardRec where
  id : Nat
  split : Bool
  ndim : Nat
  splitDim : Nat
  nroute : Nat
  route0 : Nat
  maxes : List Nat
  isle : Nat
  deriving DecidableEq, Repr

/-- The guards, ascending in `GUARD`, and the route tables of the four plan isles (R618). -/
def guardRecs (img : List Byte) : List GuardRec :=
  let b := sectionBytes img 8
  let gs := (List.range (if b = [] then 0 else min 1024 (fieldAt b 0 2))).map fun i =>
    let o := 16 + 32 * i
    ({ id := fieldAt b o 2, split := decide (fieldAt b (o + 2) 1 = 1), ndim := bits (fieldAt b (o + 3) 1) 2 0,
       splitDim := fieldAt b (o + 4) 1, nroute := fieldAt b (o + 5) 1, route0 := fieldAt b (o + 6) 2,
       maxes := (List.range 4).map fun k => fieldAt b (o + 8 + 4 * k) 4, isle := fieldAt b (o + 24) 1 } : GuardRec)
  gs.mergeSort fun a c => a.id ≤ c.id

/-- Guard route entry j of plan isle i (R618). -/
def guardRoute (img : List Byte) (i j : Nat) : Nat :=
  let b := sectionBytes img 8
  let ng := fieldAt b 0 2
  let before := sumNat ((List.range i).map fun k => fieldAt b (4 + 2 * k) 2)
  fieldAt b (16 + 32 * ng + 8 * (before + j)) 8

end Sys2Proof.Machine
end

