-- ==== Sys2Proof/Machine/Records.lean ====
section
/-! DEFINITION. Records that many commands write: records into rings (R492 to R494), the journal queue (R553), and what a
serving request leaves: its step records (R391, R392) and its treatment record (R398). -/
namespace Sys2Proof.Machine

/-! ### Records -/

/-- The enabled ring of a kind and a job (R490, R494). -/
def Dev.findRing (d : Dev) (kind job : Nat) : Option Nat :=
  (List.range 32).find? fun r =>
    (d.rng r).enabled && decide (d.objN (0x2710 + r) 1 = kind) && decide (d.objN (0x2710 + r) 5 = job)

/-- A record enters a ring's backlog; at 4,096 records the ring stalls (R493). -/
def Dev.pushRec (d : Dev) (t : TimeBase) (r : Nat) (rec : List Byte) : Dev :=
  let g := d.rng r
  let g' : Ring := { g with backlog := g.backlog ++ [rec] }
  if 4096 ≤ g'.backlog.length ∧ ¬ g.stalled then
    (d.setRng r { g' with stalled := true }).logErr t 0x01A0 (unit := 7) (wh := r)
  else d.setRng r g'

/-- A record of a job goes to the completion ring of the job, else to that of no job, else to no ring (R494). -/
def Dev.emit (d : Dev) (t : TimeBase) (job : Nat) (rec : List Byte) : Dev :=
  match (d.findRing 1 job).orElse fun _ => d.findRing 1 0xFF with
  | some r => d.pushRec t r rec
  | none => d.bump 0x2700 4 1

/-- A completion record (Table 16-9). -/
def complRec (kind status job slot : Nat) (ctx : List Byte) (stamp : Nat) (tail : List Byte) : List Byte :=
  le 1 kind ++ [0] ++ le 2 status ++ le 1 job ++ le 1 slot ++ [0, 0] ++ padTo 8 ctx ++ le 8 stamp ++ padTo 40 tail

/-- The rings a job writes to that have stalled (R493): the job holds at its next tide point. -/
def Dev.ringHold (d : Dev) (j : Nat) : Bool :=
  (List.range 32).any fun r =>
    (d.rng r).stalled && (decide (d.objN (0x2710 + r) 1 = 3) || decide (d.objN (0x2710 + r) 5 = j) ||
      decide (d.objN (0x2710 + r) 1 = 1 ∧ d.objN (0x2710 + r) 5 = 0xFF ∧ d.findRing 1 j = none))

/-! ### The journal queue -/

/-- A record enters the journal queue; while the queue has been full and not yet below 2,048, it waits in firmware
(R553). -/
def Dev.journal (d : Dev) (t : TimeBase) (r : JRec) : Dev :=
  if d.nv.backlog then { d with nv := { d.nv with overflow := d.nv.overflow ++ [r] } }
  else
    let q := d.nv.queue ++ [r]
    if 4096 ≤ q.length then ({ d with nv := { d.nv with queue := q, backlog := true } } : Dev).logErr t 0x7002
    else { d with nv := { d.nv with queue := q } }

/-- The flags of a job's journal records: `INVARIANT`, `CLEAR_INPUT` (Table 18-8). -/
def Dev.jobFlags (d : Dev) (j : Nat) : Nat :=
  let b := d.job j
  b2n (b.plan.elim false (·.flag 0)) + 2 * b2n b.clearInput

/-- A job record (Table 18-9, type 5): event 1 load accepted, 2 stopped, 3 unloaded. -/
def Dev.jobRecord (d : Dev) (t : TimeBase) (j event code : Nat) : Dev :=
  let b := d.job j
  d.journal t
    { rtype := 5, flags := d.jobFlags j, slot := d.slotOf j, job := j,
      b4 := [0, 0] ++ le 1 event ++ List.replicate 9 0,
      b28 := le 4 0 ++ le 8 t.ns ++ List.replicate 24 0,
      b160 := padTo 48 (b.plan.elim [] (·.meas)) ++ padTo 48 b.model ++ List.replicate 152 0 ++ le 2 code ++ List.replicate 6 0 }

/-- A key-event record (Table 18-9, type 3). -/
def Dev.keyRecord (d : Dev) (t : TimeBase) (slot job table index : Nat) (emptied commissioning : Bool) (key : List Byte) : Dev :=
  d.journal t
    { rtype := 3, flags := 4 * b2n commissioning, slot := slot, job := job,
      b4 := le 1 table ++ le 1 index ++ le 1 (if emptied then 2 else 1) ++ List.replicate 9 0,
      b28 := le 4 0 ++ le 8 t.ns ++ List.replicate 24 0,
      b160 := padTo 48 (if table ≤ 4 then Config.sha384 key else []) ++ List.replicate 208 0 }

/-! ### SPDM responses (R535, R539) -/

/-- The response to the data object in progress on a host die: its SPDM code, then its content. -/
def Dev.spdmRespond (d : Dev) (h : Nat) (b : List Byte) : Dev := d.setDie h { d.die h with response := b, object := false }

/-- A VENDOR_DEFINED_RESPONSE: opcode and status (R539). -/
def vendorResponse (op status : Nat) : List Byte := [0x7E] ++ le 1 op ++ le 2 status

/-- The response that a session waits for is sent, when the session is still open. -/
def Dev.lateResponse (d : Dev) (to_ : Option (Nat × Nat)) (op status : Nat) : Dev :=
  match to_ with
  | some (h, k) => if (mget none (d.die h).sessions k).isSome then d.spdmRespond h (vendorResponse op status) else d
  | none => d

/-! ### Step records (R391, R392) -/

def Serving.req (v : Serving) (n : Nat) : Request := mget {} v.reqs n
def Serving.setReq (v : Serving) (n : Nat) (q : Request) : Serving := { v with reqs := mput {} v.reqs n q }
def Dev.setReq (d : Dev) (j n : Nat) (q : Request) : Dev :=
  let b := d.job j
  d.setJob j { b with srv := b.srv.setReq n q }

/-- Bytes 0 to 23 of a step record (Table 12-13). -/
def stepHead (kind ntok status reqField session step stamp : Nat) : List Byte :=
  le 1 kind ++ le 1 ntok ++ le 2 status ++ le 4 reqField ++ le 1 session ++ [0, 0, 0] ++ le 4 step ++ le 8 stamp

/-- Bytes 4 to 7: request, drafts accepted, finish reason, late. -/
def reqField (req accept fin : Nat) (late : Bool) : Nat := req % 2 ^ 18 + accept * 2 ^ 18 + fin * 2 ^ 22 + b2n late * 2 ^ 26

/-- The payload of a step record: tokens of 18 bits and the position of the first. -/
def stepPayload (toks : List W32) (pos : Nat) : List Byte :=
  le 24 (sumNat (toks.zipIdx.map fun (x, i) => x.toNat % 2 ^ 18 * 2 ^ (18 * i)) + (if toks.isEmpty then 0 else pos % 2 ^ 30 * 2 ^ 162))

/-- A record goes to the step ring of its session, or to no ring (R494). -/
def Dev.toStepRing (d : Dev) (t : TimeBase) (ring : Option Nat) (rec : List Byte) : Dev :=
  match ring with
  | some r => if (d.rng r).enabled ∧ d.objN (0x2710 + r) 1 = 2 then d.pushRec t r rec else d.bump 0x2700 4 1
  | none => d.bump 0x2700 4 1

/-- The step ring of a session of a job. -/
def Serving.ringOf (v : Serving) (session : Nat) : Option Nat := (mget none v.sessions session).map (·.ring)

/-- A record of kind 1, 3 or 4 of a request: its payload goes encrypted under the session's output key, and counts among
the records of the submission. -/
def Dev.putStep (d : Dev) (t : TimeBase) (j session req : Nat) (head payload : List Byte) : Dev :=
  let v := (d.job j).srv
  let q := v.req req
  let body : List Byte := match mget none v.sessions session with
    | some x =>
      if x.hasOut then
        let (ct, tag) := Config.gcm x.outKey (le 4 q.records ++ le 4 req ++ le 4 q.gen) head payload
        padTo 24 ct ++ padTo 16 tag
      else List.replicate 40 0
    | none => List.replicate 40 0
  (d.setReq j req { q with records := q.records + 1 }).toStepRing t (v.ringOf session) (head ++ body)

/-! ### The end of a request (R394 to R398, R551) -/

/-- Outcome of a deadline (Table 18-8). -/
def Request.outcome (q : Request) (fin : Nat) : Nat :=
  if q.deadline = 0 then 0 else if ¬ q.late then 1 else if fin = 6 then 3 else 2

/-- The tokens emitted. -/
def Request.emitted (q : Request) : List W32 := q.tokens.drop q.plen

/-- The treatment record of a request that ends (Table 18-8). -/
def Dev.treatment (d : Dev) (j req fin status stamp : Nat) : JRec :=
  let b := d.job j
  let q := b.srv.req req
  { rtype := 1, flags := d.jobFlags j, slot := d.slotOf j, job := j,
    b4 := le 1 q.session ++ le 1 fin ++ le 1 (q.outcome fin) ++ [0] ++ le 4 req ++ le 4 q.gen,
    b28 := le 4 q.emitted.length ++ le 8 q.tAccept ++ le 8 q.tFirst ++ le 8 stamp ++ le 8 q.deadline,
    b160 := padTo 48 (b.plan.elim [] (·.meas)) ++ padTo 48 q.model ++ padTo 48 q.maskHash ++ padTo 48 q.inHash ++
      padTo 48 (Config.sha384 (q.emitted.flatMap (fun x => le 4 x.toNat) ++ le 1 fin)) ++ padTo 8 (q.params.take 8) ++ le 2 status ++
      List.replicate 6 0 }

/-- What a request holds returns: private and provisional page sets are free, the nodes it uses lose a reference. -/
def Serving.release (v : Serving) (req : Nat) : Serving :=
  let q := v.req req
  { v with
    sets := mmap .free (fun _ s => match s with
      | .priv r => if r = req then .free else s
      | .provisional r _ => if r = req then .free else s
      | s => s) v.sets,
    nodes := q.nodes.foldl (fun m n => match mget none m n with
      | some x => mput none m n (some { x with refs := x.refs - 1 })
      | none => m) v.nodes }

/-- A request ends: its final record has been written; its treatment record is queued, and the request is closing until that
record commits. -/
def Dev.closeRequest (d : Dev) (t : TimeBase) (j req fin status stamp : Nat) : Dev :=
  let r := d.treatment j req fin status stamp
  let b := d.job j
  let q := b.srv.req req
  let v := (b.srv.release req).setReq req { q with
    state := .closing, fin := fin, inFlight := false, paused := false, cancel := false, nodes := [], pages := [],
    recAt := some (d.nv.copy0.counter + d.nv.queue.length + d.nv.overflow.length) }
  (d.setJob j { b with srv := v }).journal t r

/-- The status of a request's record: that of its finish reason, else that of a missed deadline (R395, Table 12-14). -/
def statusOf (fin : Nat) (late : Bool) : Nat :=
  if fin = 7 then 0x6013 else if fin = 8 then 0x6014 else if late then 0x6001 else 0

/-- A request ends without tokens: a record of kind 4, then the treatment record. -/
def Dev.finalRecord (d : Dev) (t : TimeBase) (j req fin status step stamp : Nat) : Dev :=
  let q := (d.job j).srv.req req
  let h := stepHead 4 0 status (reqField req 0 fin q.late) q.session step stamp
  (d.putStep t j q.session req h (stepPayload [] 0)).closeRequest t j req fin status stamp

/-- A refusal record (R369). -/
def Dev.refusalRecord (d : Dev) (t : TimeBase) (j : Nat) (o : Owed) (step stamp : Nat) : Dev :=
  d.putStep t j o.session o.req (stepHead 3 0 o.code (reqField o.req 0 0 false) o.session step stamp) (stepPayload [] 0)

/-- A serving job stops (R397), or its partition is released, with a code: the refusals that wait are written, and every busy request that is not closing ends with
`FIN` 9 and that code. `STEP` of these records is a free value (assumption 3). -/
def Dev.endServing (d : Dev) (t : TimeBase) (j code : Nat) : Dev :=
  let v := (d.job j).srv
  let d1 := (v.owed.filter fun o => decide (o.code ≠ 0)).foldl (fun d o =>
    let (s, d1) := d.fresh 32
    d1.refusalRecord t j o s.toNat t.ns) d
  let d2 := v.reqs.foldl (fun d e =>
    if e.2.state = .free ∨ e.2.state = .closing then d
    else
      let (s, d1) := d.fresh 32
      d1.finalRecord t j e.1 9 code s.toNat t.ns) d1
  let b := d2.job j
  d2.setJob j { b with srv := { b.srv with owed := [], steps := [] } }

end Sys2Proof.Machine
end

