-- ==== Sys2Proof/Machine/Image.lean ====
section
/-! DEFINITION. The table sections of a plan image (R292, R295, R618, chapters 11 to 13) and their translation to the device
(R294). The layouts of sections 0x03, 0x04 and 0x06, which no rule states, are the model's (assumption 9). -/
namespace Sys2Proof.Machine

/-- Offsets of variable-size records of a section, and where the last one ends. -/
def recOffsets (size : Nat → Nat) (len : Nat) : Nat → Nat → List Nat × Nat
  | 0, o => ([], o)
  | n + 1, o =>
    if len ≤ o then ([], o)
    else let (l, e) := recOffsets size len n (o + size o); (o :: l, e)

def padUp (m n : Nat) : Nat := ceilDiv n m * m

/-! ### Sections 0x03, 0x04 and 0x06 (assumption 9) -/

/-- Tables of one reef (section 0x03). -/
structure ReefRec where
  isle : Nat
  reef : Nat
  regions : List W64
  chans : List (W64 × W64)
  /-- multicast groups: targets as (site order Y × 96 + X, queue) -/
  groups : List (List (Nat × Nat))
  deriving DecidableEq, Repr

def reefRecSize (b : List Byte) (o : Nat) : Nat := padUp 8 (1168 + 4 * fieldAt b (o + 2) 2)

/-- A list cut into pieces of the sizes given. -/
def cutList {α : Type} : List Nat → List α → List (List α)
  | [], _ => []
  | n :: r, l => l.take n :: cutList r (l.drop n)

def reefRecAt (b : List Byte) (o : Nat) : ReefRec :=
  let tg := (List.range (fieldAt b (o + 2) 2)).map fun i =>
    let w := fieldAt b (o + 1168 + 4 * i) 4
    (bits w 13 0, bits w 19 14)
  { isle := fieldAt b o 1, reef := fieldAt b (o + 1) 1, regions := words b (o + 16) 16,
    chans := (List.range 32).map fun i =>
      (BitVec.ofNat 64 (fieldAt b (o + 144 + 16 * i) 8), BitVec.ofNat 64 (fieldAt b (o + 152 + 16 * i) 8)),
    groups := cutList ((List.range 256).map fun i => fieldAt b (o + 656 + 2 * i) 2) tg }

/-- Offsets of the records of section 0x03, and their end. -/
def reefOffs (img : List Byte) : List Nat × Nat :=
  let b := sectionBytes img 3
  recOffsets (reefRecSize b) b.length (b.length / 1168 + 1) 0

def reefRecs (img : List Byte) : List ReefRec := (reefOffs img).1.map (reefRecAt (sectionBytes img 3))

/-- A stream of the image with its block list. -/
structure StreamRec where
  sid : Nat
  words : List W64
  blocks : List (List W64)
  deriving DecidableEq, Repr

/-- Streams of one isle (section 0x04). -/
structure StreamsRec where
  isle : Nat
  routes : List W64
  streams : List StreamRec
  deriving DecidableEq, Repr

def streamRecSize (b : List Byte) (o : Nat) : Nat := 48 + 32 * (bits (fieldAt b (o + 8) 8) 55 40 + 1)

/-- Offsets of n stream records from o, and where they end. -/
def streamOffs (b : List Byte) : Nat → Nat → List Nat × Nat
  | 0, o => ([], o)
  | n + 1, o => let (l, e) := streamOffs b n (o + streamRecSize b o); (o :: l, e)

def streamsRecSize (b : List Byte) (o : Nat) : Nat :=
  if b.length < o + 528 then 528 else (streamOffs b (fieldAt b (o + 2) 2) (o + 528)).2 - o

def streamRecAt (b : List Byte) (o : Nat) : StreamRec :=
  { sid := fieldAt b o 1, words := words b (o + 8) 5,
    blocks := (List.range (bits (fieldAt b (o + 8) 8) 55 40 + 1)).map fun i => words b (o + 48 + 32 * i) 4 }

def streamsRecAt (b : List Byte) (o : Nat) : StreamsRec :=
  { isle := fieldAt b o 1, routes := words b (o + 16) 64,
    streams := ((streamOffs b (fieldAt b (o + 2) 2) (o + 528)).1).map (streamRecAt b) }

def streamsOffs (img : List Byte) : List Nat × Nat :=
  let b := sectionBytes img 4
  recOffsets (streamsRecSize b) b.length (b.length / 528 + 1) 0

def streamsRecs (img : List Byte) : List StreamsRec := (streamsOffs img).1.map (streamsRecAt (sectionBytes img 4))

/-- Semaphore map of one isle (section 0x06): pair id, reef, bank slot. -/
structure SemRec where
  isle : Nat
  pairs : List (Nat × Nat × Nat)
  deriving DecidableEq, Repr

def semRecSize (b : List Byte) (o : Nat) : Nat := padUp 8 (16 + 4 * fieldAt b (o + 2) 2)

def semRecAt (b : List Byte) (o : Nat) : SemRec :=
  { isle := fieldAt b o 1,
    pairs := (List.range (fieldAt b (o + 2) 2)).map fun i =>
      let w := fieldAt b (o + 16 + 4 * i) 4
      (bits w 11 0, bits w 17 12, bits w 24 18) }

def semOffs (img : List Byte) : List Nat × Nat :=
  let b := sectionBytes img 6
  recOffsets (semRecSize b) b.length (b.length / 16 + 1) 0

def semRecs (img : List Byte) : List SemRec := (semOffs img).1.map (semRecAt (sectionBytes img 6))

/-! ### Sections 0x07 and 0x09 (R618) -/

/-- A window record. -/
structure WinRec where
  isle : Nat
  k : Nat
  win : Nat
  w : List W64
  deriving DecidableEq, Repr

def winRecs (img : List Byte) : List WinRec :=
  let b := sectionBytes img 7
  (List.range (if b = [] then 0 else min 1024 (fieldAt b 0 4))).map fun i =>
    let o := 16 + 32 * i
    { isle := fieldAt b o 1, k := fieldAt b (o + 1) 1, win := fieldAt b (o + 2) 1, w := words b (o + 8) 3 }

/-- A window descriptor of the image, decoded (Table 7-5): region, offset within it, bytes, mode, counter, reply route. -/
structure WinImg where
  region : Nat
  off : Nat
  mode : Nat
  slots : Nat
  per : Nat
  counter : Nat
  route : W64
  deriving DecidableEq, Repr

def WinRec.d (r : WinRec) : WinImg :=
  let w (i : Nat) : Nat := (r.w.getD i 0).toNat
  { region := bits (w 0) 31 24, off := bits (w 0) 23 0 * 256, mode := bits (w 0) 34 32, slots := bits (w 0) 54 35 + 1,
    per := bits (w 1) 9 0 + 1, counter := bits (w 1) 17 10, route := r.w.getD 2 0 }

/-- Bytes of a window. -/
def WinImg.bytes (w : WinImg) : Nat := w.slots * w.per * (if w.mode = 5 ∨ w.mode = 6 then 256 else 32)

/-- A budget record. -/
structure BudRec where
  x : Nat
  y : Nat
  isle : Nat
  tiles : List W16
  aa : List Nat
  deriving DecidableEq, Repr

def budRecs (img : List Byte) : List BudRec :=
  let b := sectionBytes img 9
  (List.range (if b = [] then 0 else fieldAt b 0 4)).map fun i =>
    let o := 16 + 208 * i
    { x := fieldAt b o 2, y := fieldAt b (o + 2) 2, isle := fieldAt b (o + 4) 1,
      tiles := (List.range 64).map fun k => BitVec.ofNat 16 (fieldAt b (o + 8 + 2 * k) 2),
      aa := (List.range 64).map fun k => fieldAt b (o + 136 + k) 1 }

/-! ### Causeway records (Table 11-5) -/

/-- A causeway record, decoded. -/
structure CwRec where
  isle : Nat
  reducer : Bool
  matcher : Bool
  shT : Nat
  shS : Nat
  v : Nat
  k : Nat
  r : Nat
  invT : W32
  aT : W32
  b : W32
  gscale : W32
  w : Nat
  kps : Nat
  nreg : Nat
  dzFp32 : Bool
  recDest : Nat
  recIsle : Nat
  peer : Nat
  lroute : Nat
  ltagd : Nat
  ring : List (Nat × Nat)
  inputs : List (Nat × Nat × Nat × Nat)
  routes : List W64
  deriving DecidableEq, Repr

def cwRecOf (r : List Byte) : CwRec :=
  let f := fieldAt r
  { isle := f 0 1, reducer := bit (f 1 1) 0, matcher := bit (f 1 1) 1, shT := f 2 1, shS := f 3 1, v := f 4 4, k := f 8 2, r := f 10 2,
    invT := BitVec.ofNat 32 (f 12 4), aT := BitVec.ofNat 32 (f 16 4), b := BitVec.ofNat 32 (f 20 4), gscale := BitVec.ofNat 32 (f 24 4),
    w := f 28 1, kps := f 29 1, nreg := f 30 1, dzFp32 := decide (f 31 1 = 1), recDest := f 32 1, recIsle := f 33 1, peer := f 34 2,
    lroute := f 36 1, ltagd := f 37 1, ring := (List.range 16).map fun i => (f (48 + 4 * i) 1, f (49 + 4 * i) 1),
    inputs := (List.range 32).map fun q => (f (112 + 16 * q) 1, f (113 + 16 * q) 1, f (120 + 16 * q) 4, f (124 + 16 * q) 4),
    routes := words r 624 64 }

/-- The causeway records of an image, as bytes. -/
def cwBytes (img : List Byte) : List (List Byte) := recordsOf (sectionBytes img 0xC) 1152

/-! ### The serving section (R400) -/

/-- The serving section, decoded; plan addresses as they stand. -/
structure SrvRec where
  maxReq : Nat
  maxCtx : Nat
  v : Nat
  budget : Nat
  pchunk : Nat
  inflight : Nat
  kvg : Nat
  nme : Nat
  nsets : Nat
  guard : Nat
  idxLog2 : Nat
  nnodes : Nat
  /-- `REQTAB`, `PAGETAB`, `TOKBUF`, `BATCH`, `RESULT`, `NODES`, `BUCKETS` -/
  addrs : List Nat
  engines : List (Nat × Nat)
  pools : List Nat
  /-- mask tables: plan address, type, size -/
  masks : List (Nat × Nat × Nat)
  deriving DecidableEq, Repr

def srvRec (img : List Byte) : Option SrvRec :=
  let r := sectionBytes img 0xD
  let f := fieldAt r
  if r.length < 128 then none
  else some
    { maxReq := f 0 4, maxCtx := f 4 4, v := f 8 4, budget := f 12 2, pchunk := f 14 2, inflight := f 16 1, kvg := f 17 1,
      nme := f 18 1, nsets := f 20 4, guard := f 24 2, idxLog2 := f 26 1, nnodes := f 28 4,
      addrs := (List.range 7).map fun i => f (32 + 8 * i) 8,
      engines := (List.range (f 18 1)).map fun i => (f (88 + 4 * i) 1, f (89 + 4 * i) 1),
      pools := (List.range (f 17 1)).map fun i => f (128 + 8 * i) 8,
      masks := (List.range (f 19 1)).map fun i =>
        let o := 128 + 8 * f 17 1 + 16 * i
        (f o 8, f (o + 8) 1, f (o + 12) 4) }

/-! ### The collectives section (Table 13-7) -/

structure OutRec where
  isle : Nat
  queue : Nat
  peer : Nat
  ch : Nat
  deriving DecidableEq, Repr

structure InRec where
  ch : Nat
  icred : Nat
  route : W64
  deriving DecidableEq, Repr

structure BucketRec where
  bucket : Nat
  op : Nat
  alg : Nat
  isle : Nat
  cmdq : Nat
  agfmt : Nat
  bkpok : Bool
  src : Nat
  dst : Nat
  len : Nat
  croute : W64
  stage : Nat
  stageLen : Nat
  deriving DecidableEq, Repr

structure CollRec where
  /-- absolute rank (0) or offset (1), value -/
  peers : List (Nat × Nat)
  outs : List OutRec
  ins : List InRec
  buckets : List BucketRec
  deriving DecidableEq, Repr

def collRec (img : List Byte) : Option CollRec :=
  let r := sectionBytes img 0xE
  let f := fieldAt r
  if r.length < 32 then none
  else
    let np := f 0 1
    let no := f 1 1
    let ni := f 2 2
    let nb := f 4 2
    let o1 := 32 + 8 * np
    let o2 := o1 + 16 * no
    let o3 := o2 + 16 * ni
    some
      { peers := (List.range np).map fun i => (f (32 + 8 * i) 1, f (34 + 8 * i) 2),
        outs := (List.range no).map fun i =>
          let o := o1 + 16 * i
          { isle := f o 1, queue := f (o + 1) 1, peer := f (o + 2) 1, ch := f (o + 3) 1 },
        ins := (List.range ni).map fun i =>
          let o := o2 + 16 * i
          { ch := f o 1, icred := f (o + 2) 2, route := BitVec.ofNat 64 (f (o + 4) 8) },
        buckets := (List.range nb).map fun i =>
          let o := o3 + 64 * i
          { bucket := f o 2, op := f (o + 2) 1, alg := f (o + 3) 1, isle := f (o + 4) 1, cmdq := f (o + 5) 1, agfmt := f (o + 6) 1,
            bkpok := bit (f (o + 7) 1) 0, src := f (o + 8) 8, dst := f (o + 16) 8, len := f (o + 24) 4,
            croute := BitVec.ofNat 64 (f (o + 28) 8), stage := f (o + 36) 8, stageLen := f (o + 44) 4 } }

/-! ### Translation (R294) -/

/-- Device reef within its isle of a plan reef 6y + x; 36 and above stand. -/
def Plan.reefIn (p : Plan) (i r : Nat) : Nat :=
  let (dx, dy) := p.shift.getD i (0, 0)
  if r < 36 then (r / 6 + dy) * 6 + (r % 6 + dx) else r

/-- A route entry in device coordinates. -/
def Plan.route (p : Plan) (e : W64) : W64 :=
  let n := e.toNat
  let i := bits n 1 0
  let (dx, dy) := p.shift.getD i (0, 0)
  let x := bits n 8 2
  let y := bits n 15 9
  let mid :=
    if bit n 22 then bits n 9 2 * 4 + p.reefIn i (bits n 15 10) * 1024
    else if x < 96 then (x + 16 * dx) * 4 + (y + 16 * dy) * 512
    else if x = 0x60 then x * 4 + p.reefIn i y * 512
    else x * 4 + y * 512
  if bit n 23 then BitVec.ofNat 64 (rotIsle p.rho i + mid + n / 65536 * 65536) else e

/-- A region descriptor record of a plan: reefs, in package numbers, of every stage. -/
def Plan.partition (p : Plan) : List Nat :=
  ((stageRecs p.image).flatMap fun s => s.reefs.map (p.reef s.isle)).foldl insNat []

/-! ### Regions and plan addresses (R295) -/

/-- Region and offset of a plan address. -/
def paRegion (pa : Nat) : Nat := bits pa 39 32
def paOff (pa : Nat) : Nat := bits pa 31 0

/-- Bytes of a region of the memory map. -/
def MapRec.bytes (m : MapRec) : Nat := (m.size + 1) * 2097152

/-- The region record that a plan address names. -/
def mapOf (ms : List MapRec) (pa : Nat) : Option MapRec := ms.find? fun m => m.region = paRegion pa

/-- n bytes from a plan address lie within its region. -/
def paFits (ms : List MapRec) (pa n : Nat) : Bool :=
  decide (pa < 2 ^ 40) && (match mapOf ms pa with | some m => decide (paOff pa + n ≤ m.bytes) | none => false)

/-- HA of a plan address, by the regions a job holds. -/
def Job.ha (b : Job) (pa : Nat) : Nat :=
  match b.regions.find? fun r => r.1 = paRegion pa with
  | some (_, k, s, _, _, _) => k * 2 ^ 36 + s * 32 + paOff pa
  | none => 0

end Sys2Proof.Machine
end

