-- ==== Sys2Proof/Machine/Sector.lean ====
section
/-! DEFINITION. The inside of an HBM stack (sections 7.1 to 7.4): the address map, regions, encryption, the sector code. -/
namespace Sys2Proof.Machine

/-! ### The address map (R217 to R220) -/

/-- Pseudo-channels in service, ascending (R219). -/
def Stack.pcs (k : Stack) : List Nat := (List.range 32).filter fun p => k.active.getLsbD (p / 2)

/-- Sectors in service: N × 9 × 2²⁷ bytes (R218). -/
def Stack.sectors (k : Stack) : Nat := k.pcs.length * 9 * 2 ^ 22

/-- The place of a sector (R219). -/
structure HbmLoc where
  pc : Nat
  bank : Nat
  bg : Nat
  sid : Nat
  row : Nat
  column : Nat
  deriving DecidableEq, Repr

/-- `locate` of R219, for the sector at stack offset / 32, over the active pseudo-channels. -/
def locate (active : List Nat) (sector : Nat) : HbmLoc :=
  let n := max 1 active.length
  let g := sector / 8
  let s := g % n
  let r := g / n
  { pc := active.getD ((s + bits r 4 0) % n) 0, bank := bits r 3 2 ^^^ bits r 9 8, bg := bits r 5 4 ^^^ bits r 11 10,
    sid := r / 64 % 3, row := r / 64 / 3, column := bits r 1 0 * 8 + sector % 8 }

/-- Physical pseudo-channel of a sector. -/
def Stack.pcOf (k : Stack) (sector : Nat) : Nat := (locate k.pcs sector).pc
/-- Channel of a sector (R214). -/
def Stack.chanOf (k : Stack) (sector : Nat) : Nat := k.pcOf sector / 2
/-- Bank of a sector among the 48 of its pseudo-channel. -/
def Stack.bankOf (k : Stack) (sector : Nat) : Nat :=
  let l := locate k.pcs sector
  l.sid * 16 + l.bg * 4 + l.bank

/-! ### Regions (R221 to R224) -/

/-- Fields of a descriptor, in sectors where they are lengths. -/
def regBase (w : W64) : Nat := bits w.toNat 14 0 * 65536
def regSize (w : W64) : Nat := (bits w.toNat 29 15 + 1) * 65536
def regSlot (w : W64) : Nat := bits w.toNat 35 30
def regJob (w : W64) : Nat := bits w.toNat 43 36
def regKind (w : W64) : Nat := bits w.toNat 46 44

/-- A descriptor: base and size in 2 MiB units. -/
def mkRegion (base size slot job kind : Nat) : W64 :=
  BitVec.ofNat 64 (base % 2 ^ 15 + (size - 1) % 2 ^ 15 * 2 ^ 15 + slot % 64 * 2 ^ 30 + job % 256 * 2 ^ 36 + kind % 8 * 2 ^ 44)

/-- An unlisted region descriptor: `JOB` 0xFF, all else 0 (Table 7-2). -/
def regionReset : W64 := 0xFF000000000#64

def Stack.region (k : Stack) (i : Nat) : W64 := mget regionReset k.regions i
def Stack.setRegion (k : Stack) (i : Nat) (w : W64) : Stack := { k with regions := mput regionReset k.regions i w }

/-- The region that holds a whole extent. -/
def Stack.regionAt (k : Stack) (sector count : Nat) : Option (Nat × W64) :=
  k.regions.find? fun (_, w) => decide (1 ≤ regKind w ∧ regKind w ≤ 4) && decide (regBase w ≤ sector) &&
    decide (sector + count ≤ regBase w + regSize w)

/-! ### Encryption (R225 to R227) -/

/-- The key under which a sector stands (R225): that of its region's slot, the firmware key in a region of kind 3, in the
escape region that of the slot which the escape map names. -/
def Stack.keyOf (k : Stack) (sector : Nat) : BitVec 512 :=
  match k.regionAt sector 1 with
  | some (_, w) =>
    if regKind w = 3 then BitVec.ofNat 512 (leNat k.fwKey)
    else if regKind w = 4 then mget 0 k.keys ((mget 0 k.escMap (sector / 8192) - 1) / 256)
    else mget 0 k.keys (regSlot w)
  | none => BitVec.ofNat 512 (leNat k.fwKey)

/-- A word encrypted under a key. -/
def encrypted (key : BitVec 512) (w : W256) : Sealed := if w = 0 then {} else { key := key, plain := w }

/-- What decryption under a key yields. -/
def decrypted (key : BitVec 512) (sector : Nat) (c : Sealed) : W256 :=
  if c = {} ∨ c.key = key then c.plain else Config.otherKey c.key key sector c.plain

/-- A word is encrypted into its sector. -/
def Stack.store (k : Stack) (m : Map Sealed) (sector : Nat) (w : W256) : Map Sealed := mput {} m sector (encrypted (k.keyOf sector) w)

/-- A sector as it is decrypted. -/
def Stack.load (k : Stack) (sector : Nat) : W256 := decrypted (k.keyOf sector) sector (mget {} k.mem sector)

/-! ### The sector code (R228, R229) -/

/-- Multiplication by α in GF(2⁸) over 0x11D. -/
def gfX (a : Nat) : Nat := if 2 * a < 256 then 2 * a else (2 * a) ^^^ 0x11D

/-- Product in GF(2⁸). -/
def gfMul (a b : Nat) : Nat :=
  ((List.range 8).foldl (fun (acc : Nat × Nat) i => (if bit b i then acc.1 ^^^ acc.2 else acc.1, gfX acc.2)) (0, a)).1

/-- α to the n. -/
def gfExp (n : Nat) : Nat := (List.range (n % 255)).foldl (fun a _ => gfX a) 1

/-- Inverse of a nonzero element: its 254th power. -/
def gfInv (a : Nat) : Nat := (List.range 253).foldl (fun x _ => gfMul x a) a

/-- The check symbols of data bytes: the remainder of D(x) · x⁴ modulo g(x) = x⁴ + 0x0F x³ + 0x36 x² + 0x78 x + 0x40,
coefficients of x³ down to x⁰, by division byte after byte (R228). -/
def rsCheck (b : List Byte) : List Nat :=
  b.foldl (fun r x =>
    let f := x.toNat ^^^ r.getD 0 0
    [r.getD 1 0 ^^^ gfMul f 0x0F, r.getD 2 0 ^^^ gfMul f 0x36, r.getD 3 0 ^^^ gfMul f 0x78, gfMul f 0x40]) [0, 0, 0, 0]

/-- The codeword of 36 symbols of a ciphertext sector (R228): its bytes, then the check symbols in the ECC-bit capacity. -/
def rsEncode (b : List Byte) : List Byte := b ++ (rsCheck b).map (BitVec.ofNat 8)

/-- What the cells of a sector hold (R225, R228): the codeword of its ciphertext, tweak HA[39:5]. -/
def Stack.codeword (k : Stack) (number sector : Nat) : List Byte :=
  let c := mget {} k.mem sector
  rsEncode (le 32 (Config.xts (if c = {} then k.keyOf sector else c.key) (number * 2 ^ 31 + sector) c.plain).toNat)

/-- Syndromes of an error pattern: symbol i is the coefficient of x^(35−i) (R228). The code is linear and the syndromes of a
codeword are zero, so they are those of the word read. -/
def rsSyndromes (e : SymErrs) : List Nat :=
  (List.range 4).map fun m => e.foldl (fun s x => s ^^^ gfMul x.2.toNat (gfExp (m * (35 - x.1.val)))) 0

/-- The errors of one symbol that syndromes name. -/
def rsOne (s : List Nat) : Option (List (Nat × Nat)) :=
  let s0 := s.getD 0 0
  ((List.range 36).find? fun i =>
    (List.range 3).all fun m => decide (gfMul (s.getD m 0) (gfExp (35 - i)) = s.getD (m + 1) 0)).bind fun i =>
      if s0 = 0 then none else some [(i, s0)]

/-- The errors of two symbols that syndromes name. -/
def rsTwo (s : List Nat) : Option (List (Nat × Nat)) :=
  (List.range 36).findSome? fun i => (List.range 36).findSome? fun j =>
    if j ≤ i then none
    else
      let x := gfExp (35 - i)
      let y := gfExp (35 - j)
      let b := gfMul (s.getD 1 0 ^^^ gfMul (s.getD 0 0) x) (gfInv (x ^^^ y))
      let a := s.getD 0 0 ^^^ b
      if a ≠ 0 ∧ b ≠ 0 ∧
          s.getD 2 0 = gfMul a (gfMul x x) ^^^ gfMul b (gfMul y y) ∧
          s.getD 3 0 = gfMul a (gfMul x (gfMul x x)) ^^^ gfMul b (gfMul y (gfMul y y)) then some [(i, a), (j, b)]
      else none

/-- What the decoder makes of a sector (R229). -/
inductive RsOut where
  /-- the stored data; so many symbols corrected -/
  | good (n : Nat)
  /-- other data: the pattern of three or more errors looks like n of them -/
  | wrong (n : Nat)
  | bad
  deriving DecidableEq, Repr

/-- The decoder (R229). -/
def rsDecode (e : SymErrs) : RsOut :=
  let s := rsSyndromes e
  let found : Option (List (Nat × Nat)) :=
    if s = [0, 0, 0, 0] then some [] else (rsOne s).orElse fun _ => rsTwo s
  match found with
  | none => .bad
  | some l => if l = e.map fun x => (x.1.val, x.2.toNat) then .good l.length else .wrong l.length

end Sys2Proof.Machine
end

