-- ==== Sys2Proof/Machine/JobOps.lean ====
section
/-! DEFINITION. Operations many commands share: job states and job events (R515), stopping a job (R585), the device state
FAULT (R587). -/
namespace Sys2Proof.Machine

/-! ### Job states -/

/-- The state of a job changes and a job event is written (R492, R515). -/
def Dev.jobTo (d : Dev) (t : TimeBase) (j st status : Nat) : Dev :=
  let d1 := d.setJob j { d.job j with state := st }
  d1.emit t j (complRec 8 status j (d.slotOf j) [] t.ns (le 1 st ++ [0, 0, 0] ++ le 4 (d.ctrN (0x4000 + j) 0x12)))

/-- The job loaded on a reef: one in state 1 to 4, else a stopped one that still holds it (R436, R584). -/
def Dev.jobAt (d : Dev) (reef : Nat) : Option Nat :=
  let on (p : Nat → Bool) := (d.jobs.filterMap fun (j, b) => if b.reefs.contains reef ∧ p b.state then some j else none).head?
  (on fun s => decide (1 ≤ s ∧ s ≤ 4)).orElse fun _ => on fun s => decide (s = 6)

/-- The job of a logical site. -/
def Dev.jobOfSite (d : Dev) (s : Nat) : Option Nat := d.jobAt (siteReef s)

/-- The logical sites of a job's partition, ascending. -/
def Job.sites (b : Job) : List Nat := b.reefs.flatMap reefSites

/-- Stop (control operation 5): contexts close, issuing stops, queue entries are freed (R160, R182). -/
def Site.ctlStop (x : Site) : Site :=
  { x with ctxs := [], order := [], setup := none, armed := false, controlStop := true, units := [], fwdW := [], fwdN := [], resv := [],
           queues := mmap {} (fun _ v => { v with
             entries := [], len := 0, spilling := false, refill := 0, refillOut := false, refillDue := false, out := 0,
             blockedSince := none }) x.queues }

/-- Slot and job of a stream (Table 8-1). -/
def Stream.slot (s : Stream) : Nat := bits (s.words.getD 4 0).toNat 45 40
def Stream.job (s : Stream) : Nat := bits (s.words.getD 4 0).toNat 53 46

/-- Job of a controller window (Table 7-5). -/
def Stack.winJob (k : Stack) (w : Nat) : Nat := bits (mget {} k.windows w).w1.toNat 31 24

/-- Every lane buffer is written back (R246). -/
def Stack.flush (k : Stack) : Stack :=
  { k with mem := k.lanes.foldl (fun m e => e.2.foldl (fun m x => k.store m x.1 x.2) m) k.mem, lanes := [] }

/-- The lane buffers of every stack that holds a region of the job are written back (R246, R584). -/
def Dev.flushJob (d : Dev) (j : Nat) : Dev :=
  (d.job j).regions.foldl (fun d r => d.setStk r.2.1 (d.stk r.2.1).flush) d

/-- The job's stream, AU, semaphore and multicast waits are discarded and counted (R251, R282, R288); its bucket instances and flows
end with it. -/
def Dev.dropWaits (d : Dev) (j : Nat) : Dev :=
  let b := d.job j
  let lag := mmap {} (fun r l => if b.reefs.contains r then { l with waits := [], mcq := [], mc := none } else l) d.lagoons
  let stk := mmap {} (fun _ (k : Stack) => { k with waits := k.waits.filter fun w => !decide (k.winJob w.window = j) }) d.hbms
  let arb := mmap {} (fun _ (a : Arbiter) => { a with
    streams := mmap {} (fun _ (s : Stream) => if s.job = j then { s with stopped := true } else s) a.streams }) d.arbs
  let n := sumNat (d.lagoons.map fun e => if b.reefs.contains e.1 then e.2.waits.length + e.2.mcq.length + b2n e.2.mc.isSome else 0) +
    sumNat (d.hbms.map fun e => (e.2.waits.filter fun w => decide (e.2.winJob w.window = j)).length)
  let colls := d.colls.filter fun e => match e.2 with | some x => decide (x.job ≠ j) | none => true
  let d1 : Dev := { d with
    lagoons := lag, hbms := stk, arbs := arb, colls := colls, flows := d.flows.filter fun f => decide (f.fjh ≠ b.mem.fjh) }
  d1.setJob j { b with discards := b.discards + n, toPermute := [], collTags := [] }

/-- The discard counts of a job's partition are added to `JOB_DISCARDS`, and recorded when they are not zero (R311). -/
def Dev.collectDiscards (d : Dev) (t : TimeBase) (j : Nat) : Dev :=
  let b := d.job j
  let n := sumNat ((d.sites.filter fun e => b.reefs.contains (siteReef e.1)).map (·.2.discard)) +
    sumNat ((d.lagoons.filter fun e => b.reefs.contains e.1).map (·.2.discard)) + b.discards
  let d1 : Dev := { d with
    sites := mmap {} (fun i (x : Site) => if b.reefs.contains (siteReef i) then { x with discard := 0 } else x) d.sites,
    lagoons := mmap {} (fun r (l : Lagoon) => if b.reefs.contains r then { l with discard := 0 } else l) d.lagoons }
  let d2 := (d1.setJob j { b with discards := 0 }).bump (0x4000 + j) 0x16 n
  if n = 0 then d2 else d2.logErr t 0x0150 (job := j) (detail := n)

/-- A forced transition ends when every site of the partition has left forced mode (R311). -/
def Dev.forcedEnd (d : Dev) (t : TimeBase) (s : Nat) : Dev :=
  match d.jobOfSite s with
  | none => d
  | some j =>
    let b := d.job j
    if b.trans ≠ 3 ∨ d.sites.any (fun e => e.2.forced && b.reefs.contains (siteReef e.1)) then d
    else
      let d1 := d.collectDiscards t j
      let d2 : Dev := { d1 with
        lagoons := mmap {} (fun r (l : Lagoon) => if b.reefs.contains r then { l with forced := false } else l) d1.lagoons }
      d2.setJob j { d2.job j with trans := 0 }

/-- A job has stopped, or holds no plan that runs. -/
def Dev.jobHasStopped (d : Dev) (j : Nat) : Bool :=
  decide ((d.job j).state = 0) || decide ((d.job j).state = 6) && !(d.job j).stopping

/-- The regions of a job in the stacks that `sel` names are released. -/
def Dev.releaseRegions (d : Dev) (j : Nat) (sel : Nat → Bool) : Dev :=
  let d1 := ((d.job j).regions.filter fun r => sel r.2.1).foldl (fun d r =>
    d.setStk r.2.1 (let k := (d.stk r.2.1).setRegion r.2.2.2.2.1 regionReset
                    { k with zeroing := k.zeroing.filter fun i => decide (i ≠ r.2.2.2.2.1),
                             queue := k.queue.filter fun q => decide (q.reply ≠ .zero r.2.2.2.2.1) })) d
  d1.setJob j { d1.job j with regions := (d1.job j).regions.filter fun r => !sel r.2.1 }

/-- A channel in service of the stack is failing (R255). -/
def Stack.hasFailing (k : Stack) : Bool := k.chans.any fun e => e.2.failing && k.active.getLsbD e.1

/-- A stopped job's regions in stacks with a failing channel are released (R255, step 3). -/
def Dev.releaseFailing (d : Dev) (j : Nat) : Dev := d.releaseRegions j fun k => (d.stk k).hasFailing

/-- Region descriptors of a job in the stacks are cleared: its regions are released (R515, R596). -/
def Dev.dropRegions (d : Dev) (j : Nat) : Dev := d.releaseRegions j fun _ => true

/-- A load is abandoned: the job returns to the state the LOAD came from; nothing the load wrote remains (R300, R515). -/
def Dev.abandonLoad (d : Dev) (t : TimeBase) (j code wh : Nat) : Dev :=
  let b := d.job j
  let d1 := if b.state = 5 ∧ b.trans = 0 then d else b.sites.foldl (fun d s => d.setSite s { (d.site s).ctlStop with armed := false }) d
  let d2 := d1.dropRegions j
  let d2 := d2.setJob j { d2.job j with plan := none, reefs := [], staged := 0, trans := 0, clearing := [] }
  let d3 := (d2.setCtr (0x4000 + j) 0x11 code).setCtr (0x4000 + j) 0x12 wh
  d3.jobTo t j b.fromState code

/-- The stop of a job ends: state 6, job event, job record (R585, steps 4 and 5). What still waits for a job that stops after a
drain is discarded and counted (R251, R282); regions in a stack with a failing channel are released (R255). -/
def Dev.endStop (d : Dev) (t : TimeBase) (j : Nat) : Dev :=
  let d0 := if (d.job j).stopping then d else (d.dropWaits j).collectDiscards t j
  let d1 := d0.endServing t j (d.ctrN (0x4000 + j) 0x1C)
  let d2 := d1.setJob j { d1.job j with
    stopping := false, stopWait := none, quietAt := none, emptyAt := none, held := [], drainAt := none, atTide := 0, drained := [], admitReq := false,
    trans := 0, clearing := [], guardQ := [], hold := false, window := { (d1.job j).window with partialW := true } }
  let d2 : Dev := { d2 with groups := mmap {} (fun _ (g : Group) =>
    { g with running := if g.running = some j then none else g.running, next := if g.next = some j then none else g.next }) d2.groups }
  let code := d.ctrN (0x4000 + j) 0x1C
  ((d2.jobTo t j 6 code).jobRecord t j 2 code).releaseFailing j

/-- Codes of a stop are kept: the first that names the job (R585). -/
def Dev.keepCode (d : Dev) (j code : Nat) (first : Bool) : Dev :=
  if first then d.setCtr (0x4000 + j) 0x1C code else d

/-- A job stops at once (R585, Job class): the code is logged with its source by the caller; every site receives Stop,
waits are discarded, and the quiet time begins (R311). A load is abandoned instead (R515). -/
def Dev.stopNow (d : Dev) (t : TimeBase) (j code : Nat) : Dev :=
  let b := d.job j
  if b.state = 1 then d.abandonLoad t j code 0
  else if b.state = 0 ∨ b.state = 6 ∨ b.stopping then d
  else if b.state = 5 then (d.keepCode j code b.stopWait.isNone).endStop t j
  else
    let d1 := d.keepCode j code true
    let d2 := b.sites.foldl (fun d s => d.setSite s (d.site s).ctlStop) d1
    let d3 := (d2.dropWaits j).flushJob j
    d3.setJob j { d3.job j with stopping := true, quietAt := some t.elapsed, emptyAt := none, quietFor := d3.objN 0x2700 0x11 * 1000, stopWait := none, drainAt := none }

/-- The job's partition is drained and waits for its switch-out (R315). -/
def Job.switching (b : Job) : Bool := decide (b.state = 3) && b.drainAt.isNone && !b.stopping

/-- A job stops at its next tide point (R438, R592, R593): it drains there and is then stopped. A job that is drained
or switched out stops at once. -/
def Dev.stopAtTide (d : Dev) (t : TimeBase) (j code : Nat) : Dev :=
  let b := d.job j
  if b.state = 1 then d.abandonLoad t j code 0
  else if b.state = 0 ∨ b.state = 6 ∨ b.stopping then d
  else if b.stopWait.isSome then d
  else if b.state = 4 ∨ b.state = 5 ∨ b.switching then (d.keepCode j code true).endStop t j
  else
    let d1 := d.keepCode j code true
    d1.setJob j { d1.job j with stopWait := some (BitVec.ofNat 16 code), atTide := if b.state = 2 then 2 else b.atTide }

/-- Jobs that exist: not in state 0. -/
def Dev.liveJobs (d : Dev) : List Nat := d.jobs.filterMap fun (j, b) => if b.state = 0 then none else some j

/-- The device enters FAULT (R587): the cause is logged, every job stops as for the Job class, and CORE_EN falls 10 ms
later (CORE_EN_DROP). A further cause is logged. -/
def Dev.enterFault (d : Dev) (t : TimeBase) (code : Nat) (die : Nat := Config.logDie code)
    (unit : Nat := Config.logUnit code) (detail : Nat := 0) : Dev :=
  let d1 := d.logErr t code (die := die) (unit := unit) (detail := detail)
  if d.pu.state = .fault then { d1 with pu := { d1.pu with causes := d1.pu.causes ++ [BitVec.ofNat 16 code] } }
  else
    let d2 : Dev := { d1 with pu := { d1.pu with
      state := .fault, faultAt := some t.elapsed, causes := d1.pu.causes ++ [BitVec.ofNat 16 code] } }
    d2.liveJobs.foldl (fun d j => d.stopNow t j code) d2

/-- A job's error of the Job class: logged with its source, and the job stops at once (R585). -/
def Dev.jobError (d : Dev) (t : TimeBase) (j code : Nat) (die unit wh : Nat) (tag : Nat := 0xFFFFFFFF) (detail : Nat := 0) :
    Dev :=
  (d.logErr t code (job := j) (die := die) (unit := unit) (wh := wh) (tag := tag) (detail := detail)).stopNow t j code

/-- `WHERE` of a site (Table 17-18). -/
def siteWhere (s : Nat) : Nat := siteX s + 128 * siteY s

/-- A site stops with a code (R109, R170): the code is kept in the site, logged with the tag
and, as `DETAIL`, the queue or program address (assumption 131), and the job that holds it stops. -/
def Dev.siteFault (d : Dev) (t : TimeBase) (s code tag place : Nat) : Dev :=
  let x := d.site s
  let d1 := d.setSite s { x with stopped := some (BitVec.ofNat 16 code) }
  match d1.jobOfSite s with
  | some j => d1.jobError t j code (siteIsle s) 0 (siteWhere s) tag place
  | none => d1.logErr t code (die := siteIsle s) (unit := 0) (wh := siteWhere s) (tag := tag) (detail := place)

end Sys2Proof.Machine
end

