-- ==== Sys2Proof/Machine/Power.lean ====
section
/-! DEFINITION. Power, clocks and temperature (sections 1.6, 15.1, 21.4, 21.5). -/
namespace Sys2Proof.Machine

/-- Firmware runs on the control cores (R576). -/
def Dev.fwRuns (d : Dev) : Bool := d.pu.coresAt.isSome

/-- Average of the first n of a list of samples, or of those there are while there are fewer; 0 of none. It is rounded down
to a whole watt. (Both: DESIGN CHOICE, assumptions 6 and 118.) -/
def avgOf (n : Nat) (l : List Nat) : Nat :=
  let k := l.take n
  if k.isEmpty then 0 else sumNat k / k.length

/-- The clock an isle should run at: the lowest of plan, operator's cap and power controller's cap (R31). -/
def Isle.want (x : Isle) : Nat := max 800 (min x.planClock (min x.opCap x.pwrCap))

/-- Every isle satisfies p. -/
def Dev.allIsles (d : Dev) (p : Isle → Bool) : Bool := (List.range 4).all fun i => p (d.isle i)

/-- Update of the four isles. -/
def Dev.mapIsles (d : Dev) (f : Isle → Isle) : Dev := (List.range 4).foldl (fun d i => d.setIsle i (f (d.isle i))) d

/-- The isle's cap goes down by 25 MHz and the step is logged (R32, R607). A cap at 800 MHz stays (assumption 14). -/
def Dev.capDown (d : Dev) (t : TimeBase) (i detail : Nat) : Dev :=
  let x := d.isle i
  let c := min x.pwrCap x.opCap
  if c ≤ 800 then d
  else (d.setIsle i { x with pwrCap := c - 25 }).logErr t 0x0110 (die := i) (detail := detail)

/-- Index of the isle with the greatest value, the lowest number on a tie (R32). -/
def argMax (f : Nat → Nat) : Nat := (List.range 4).foldl (fun b i => if f b < f i then i else b) 0

/-- The lowered cap to raise: the lowest, the lowest number on a tie, of an isle below 97 °C (R33, R607). -/
def Dev.raisable (d : Dev) : Option Nat :=
  (List.range 4).foldl (fun b i =>
    let x := d.isle i
    if x.pwrCap < x.opCap ∧ ofTwos 16 (d.ctrN 0x2100 (0x20 + i)) < 97 then
      match b with
      | none => some i
      | some k => if x.pwrCap < (d.isle k).pwrCap then some i else b
    else b) none

/-- A lowered cap rises by 25 MHz, never above the operator's cap (R33). -/
def Isle.capUp (x : Isle) : Isle := { x with pwrCap := min x.opCap (x.pwrCap + 25) }

/-- A hold that has ended holds no more: one that is asked for again acts, and counts, at the next tide point (R34, R35,
R607). -/
def Isle.settled (x : Isle) : Isle :=
  { x with heldPower := x.heldPower && x.holdPower, heldExcursion := x.heldExcursion && x.holdExcursion
           heldThermal := x.heldThermal && x.holdThermal }

/-- POWER_EVALUATION (R32 to R34). -/
def powerEvaluation (t : TimeBase) (d : Dev) : Dev :=
  if ¬ d.fwRuns then d else
  let lim := d.objN 0x2100 1
  let avg := avgOf 100 d.power.samples
  let d1 := { d.setCtr 0x2100 2 avg with power := { d.power with limit := lim } }
  let d2 := (List.range 4).foldl (fun d i => d.setCtr 0x2100 (0x10 + i) (avgOf 100 (d.isle i).power)) d1
  let d3 := if avg < lim then d2.mapIsles fun x => { x with holdPower := false : Isle }.settled else d2
  if lim < avg then
    let d4 := if d3.allIsles fun x => decide (x.clock = 800) then d3.mapIsles fun x => { x with holdPower := true } else d3
    d4.capDown t (argMax fun i => d3.ctrN 0x2100 (0x10 + i)) 0
  else if avg * 100 < lim * 95 then
    match d3.raisable with
    | some i => d3.setIsle i (d3.isle i).capUp
    | none => d3
  else d3

/-- EXCURSION_EVALUATION (R35). -/
def excursionEvaluation (d : Dev) : Dev :=
  if ¬ d.fwRuns then d else
  let avg := avgOf 10 d.power.samples
  let d1 := { d with power := { d.power with avg10 := avg } }
  let d2 := d1.setCtr 0x2100 3 (max avg (d1.ctrN 0x2100 3))
  if 3600 < avg then d2.mapIsles fun x => { x with holdExcursion := true }
  else if avg < 3200 then d2.mapIsles fun x => { x with holdExcursion := false : Isle }.settled
  else d2

/-- EXCURSION_EVALUATION -/
def execExcursionEvaluation (s : State) : Host.Outcome State Fault Refusal := act s fun _ d => excursionEvaluation d

/-- EXCURSION_TIMEOUT (R35): above 3,600 W for 50 ms without interruption. The detail with which the cause is logged is
free: the spec gives it no value (assumption 3). -/
def excursionTimeout (t : TimeBase) (d : Dev) : Dev :=
  match d.power.above with
  | some e =>
    if e + 50000000 ≤ t.elapsed ∧ d.pu.state ≠ .fault then
      let (v, d1) := d.fresh 64
      d1.enterFault t 0x0110 (detail := v.toNat)
    else d
  | none => d

/-- EXCURSION_TIMEOUT -/
def execExcursionTimeout (s : State) : Host.Outcome State Fault Refusal := act s excursionTimeout

/-- TELEMETRY_SAMPLE (R31, R510): samples of 1 ms. -/
def telemetrySample (isles : List W16) (hbm io trust pkg : W16) (vdd idd : List W16) (t : TimeBase) (d : Dev) : Dev :=
  if ¬ d.fwRuns then d else
  let d1 : Dev := { d with power := { d.power with
    samples := (pkg.toNat :: d.power.samples).take 100,
    above := if 3600 < pkg.toNat then d.power.above.orElse fun _ => some t.elapsed else none } }
  let d2 := (List.range 4).foldl (fun d i =>
    let x := d.isle i
    ((d.setIsle i { x with power := ((isles.getD i 0).toNat :: x.power).take 100 }).setCtr 0x2100 (0x24 + i)
      (vdd.getD i 0).toNat).setCtr 0x2100 (0x28 + i) (idd.getD i 0).toNat) d1
  (((d2.setCtr 0x2100 0x1C hbm.toNat).setCtr 0x2100 0x1D io.toNat).setCtr 0x2100 0x1E trust.toNat).bump 0x2100 5
    (1000 * pkg.toNat)

/-- TELEMETRY_SAMPLE -/
def execTelemetrySample (isles : List W16) (hbm io trust pkg : W16) (vdd idd : List W16) (s : State) :
    Host.Outcome State Fault Refusal := act s (telemetrySample isles hbm io trust pkg vdd idd)

/-- A temperature sample that reaches `PKG_TEMP_WARN` is recorded, at most once per 60 s (R510). `last` is the interval
time of the die's last warning. -/
def Dev.warnDue (d : Dev) (t : TimeBase) (temp : Int) (last : Option Nat) : Bool :=
  decide (ofTwos 16 (d.objN 0x2100 0x2C) ≤ temp) &&
    (match last with | none => true | some e => decide (e + 60000000000 ≤ t.elapsed))

/-- ISLE_TEMP_SAMPLE (R510, R607, R608). -/
def isleTempSample (i : IsleId) (temp : W16) (t : TimeBase) (d : Dev) : Dev :=
  let c := temp.toInt
  let x := d.isle i.val
  let warn := d.warnDue t c x.warned
  let d1 := (d.setCtr 0x2100 (0x20 + i.val) temp.toNat).setIsle i.val { x with
    warned := if warn then some t.elapsed else x.warned
    thermalStep := if 102 ≤ c then x.thermalStep else none }
  let d2 := if warn then d1.logErr t 0x0111 (die := i.val) else d1
  let due : Bool := match x.thermalStep with | none => true | some e => decide (e + 10000000 ≤ t.elapsed)
  let d3 :=
    if 102 ≤ c ∧ due then
      (d2.setIsle i.val { d2.isle i.val with thermalStep := some t.elapsed }).capDown t i.val 2
    else d2
  let d3 : Dev := if 120 ≤ c then { d3 with pu := { d3.pu with thermtrip := true } } else d3
  let y := d3.isle i.val
  if 105 ≤ c ∧ y.clock = 800 then d3.setIsle i.val { y with holdThermal := true }
  else if c < 100 then d3.setIsle i.val { y with holdThermal := false : Isle }.settled
  else d3

/-- ISLE_TEMP_SAMPLE -/
def execIsleTempSample (i : IsleId) (t : W16) (s : State) : Host.Outcome State Fault Refusal := act s (isleTempSample i t)

/-- A glide begins toward the clock the isle should run at; on a rising glide the AVS target leads by 50 MHz (R455,
R604). -/
def Dev.retarget (d : Dev) (i : Nat) : Dev :=
  let x := d.isle i
  let w := x.want
  d.setIsle i { x with target := w, avs := if x.clock < w then Config.avsTable (min 1650 (x.clock + 50)) else x.avs }

/-- Thousandths of cell clocks of an isle up to an interval time (R448). -/
def Isle.ticksTo (x : Isle) (now : Nat) : Nat := x.ticks + x.clock * (now - x.ticksAt)

/-- The clock of an isle changes. -/
def Isle.setClock (x : Isle) (now c avs : Nat) : Isle :=
  { x with ticks := x.ticksTo now, ticksAt := now, clock := c, changed := true, avs := avs }

/-- CLOCK_GLIDE_STEP (R455, R604): 2 µs of a glide, 50 MHz at most. -/
def clockGlideStep (i : IsleId) (t : TimeBase) (d : Dev) : Dev :=
  let x := d.isle i.val
  if x.clock < x.target then
    let c := min x.target (x.clock + 50)
    d.setIsle i.val (x.setClock t.elapsed c (Config.avsTable (if c = x.target then c else min 1650 (c + 50))))
  else if x.target < x.clock then
    let c := max x.target (x.clock - 50)
    d.setIsle i.val (x.setClock t.elapsed c (Config.avsTable c))
  else d

/-- CLOCK_GLIDE_STEP -/
def execClockGlideStep (i : IsleId) (s : State) : Host.Outcome State Fault Refusal := act s (clockGlideStep i)

/-- THERMAL_TRIP (R608): THERMTRIP_N falls at 120 °C and stays low. -/
def thermalTrip (temp : W16) (d : Dev) : Dev :=
  if 120 ≤ temp.toInt then { d with pu := { d.pu with thermtrip := true } } else d

/-- THERMAL_TRIP -/
def execThermalTrip (t : W16) (s : State) : Host.Outcome State Fault Refusal := act s fun _ d => thermalTrip t d

/-- Power and clock changes of an isle at a tide point, in the order of R308: the operator's cap in force, the clock
change, then a hold (R32, R34, R35, R37, R607). -/
def Dev.isleTide (d : Dev) (i : Nat) : Dev :=
  let d1 := (d.setIsle i { d.isle i with opCap := d.objN 0x2100 (0x18 + i) }).retarget i
  let x := d1.isle i
  let d2 := d1.setIsle i { x with heldPower := x.holdPower, heldExcursion := x.holdExcursion, heldThermal := x.holdThermal }
  let d3 := if x.holdPower ∧ ¬ x.heldPower then d2.bump 0x2100 4 1 else d2
  let d4 := if x.holdThermal ∧ ¬ x.heldThermal then d3.bump 0x2100 4 1 else d3
  if x.holdExcursion ∧ ¬ x.heldExcursion then d4.bump 0x2100 6 1 else d4

/-- The isle starts no new work unit (R34, R35, R607). -/
def Isle.holds (x : Isle) : Bool :=
  (x.heldPower && x.holdPower) || (x.heldExcursion && x.holdExcursion) || (x.heldThermal && x.holdThermal)

/-- An isle of a job holds (R34, R35, R607). -/
def Dev.jobHolds (d : Dev) (j : Nat) : Bool := (d.job j).reefs.any fun r => (d.isle (r / 36)).holds

end Sys2Proof.Machine
end

