-- ==== Sys2Proof/Machine/Time.lean ====
section
/-! DEFINITION. The time base (chapter 15): one cycle of its clock, the reference, PPS alignment, the writes of its
objects. -/
namespace Sys2Proof.Machine

/-- One cycle of the time-base clock: 1 + `TIME_RATE_ADJ` × 2⁻⁴⁰ ns to both counts (R459, R461). -/
def TimeBase.cycle (t : TimeBase) : TimeBase :=
  let add : Nat := (2 ^ 48 + t.rateAdj * 256).toNat
  { t with
    ns := t.ns + (t.frac + add) / 2 ^ 48, frac := (t.frac + add) % 2 ^ 48,
    elapsed := t.elapsed + (t.elapsedFrac + add) / 2 ^ 48, elapsedFrac := (t.elapsedFrac + add) % 2 ^ 48 }

/-- The time base has reached or passed the end of the present accounting window (R472). -/
def Dev.passWindow (d : Dev) (t : TimeBase) : Dev :=
  if d.sched.passed.isNone ∧ d.sched.wEnd ≤ t.ns then { d with sched := { d.sched with passed := some t.elapsed } } else d

/-- The step on an empty queue: one cycle of the time-base clock (assumption 1). -/
def idleTick (s : State) : State :=
  { s with time := s.time.cycle, dev := s.dev.passWindow s.time.cycle }

/-- A clamp to ±m. -/
def clampTo (m : Nat) (x : Int) : Int := max (-(m : Int)) (min (m : Int) x)

/-- `TIME_RATE_ADJ` of an adjustment in ppb: adj × 2⁴⁰ ÷ 10⁹ to the nearest integer, within the object's range (R467,
Table 15-5; assumption 12). -/
def rateOf (adj : Int) : Int := clampTo 549755813 ((2 * adj * 2 ^ 40 + 10 ^ 9) / (2 * 10 ^ 9))

/-- The multiple of 10⁹ nearest to c, ties to the lower (R467). -/
def nearestSecond (c : Int) : Int :=
  let lo := c / 1000000000 * 1000000000
  if c - lo ≤ 500000000 then lo else lo + 1000000000

/-- The values written for the time-base objects come into force (R473). -/
def TimeBase.applyWanted (t : TimeBase) : TimeBase :=
  match t.wanted with
  | none => t
  | some (rs, md, sl, pc, tol) =>
    { t with refSel := rs, mode := md, slewMax := sl, ppsComp := pc, alignTol := tol, wanted := none,
             fnRef := if rs = 3 then true else t.fnRef }

/-- 1.5 s without an accepted edge: what was written for `TIME_REF_SEL` and `TIME_MODE` comes into force (R473). -/
def TimeBase.applyModes (t : TimeBase) : TimeBase :=
  match t.wanted with
  | none => t
  | some (rs, md, _, _, _) => { t with refSel := rs, mode := md, fnRef := if rs = 3 then true else t.fnRef }

/-- `TIME_STATE` and the count of aligned edges after an accepted edge of offset θ (R467). -/
def TimeBase.aligned (t : TimeBase) (theta : Int) : TimeBase :=
  let n := if theta.natAbs ≤ t.alignTol then t.alignedCount + 1 else 0
  { t with alignedCount := n, state := if 4 ≤ n then 3 else 2 }

/-- The servo on an accepted edge (R467). -/
def onPps (t : TimeBase) (d : Dev) (theta : Int) (first : Bool) : TimeBase × Dev :=
  if 1000000000 < theta then
    ({ t with alignedCount := 0, state := 2 }, d.logErr t 0x0194)
  else if t.mode = 0 ∧ theta < -(t.alignTol : Int) then
    let step := (-theta).toNat
    let adj := clampTo t.slewMax t.fInt
    let t1 : TimeBase := { t with
      ns := t.ns + step, stepCount := min (2 ^ 32 - 1) (t.stepCount + 1), rateAdj := rateOf adj,
      prevClamped := decide (adj ≠ t.fInt) }
    (t1.aligned theta, (d.logErr t1 0x0190 (detail := step)).passWindow t1)
  else
    let fi := if ¬ first ∧ ¬ t.prevClamped then t.fInt - theta.tdiv 2 else t.fInt
    let adj := clampTo t.slewMax (fi - theta)
    let t1 : TimeBase := { t with fInt := fi, rateAdj := rateOf adj, prevClamped := decide (adj ≠ fi - theta) }
    (t1.aligned theta, d)

/-- An edge of PPS_IN is accepted (R466). -/
def TimeBase.accepts (t : TimeBase) : Bool :=
  t.first || (match t.lastEdge with
    | none => true
    | some e => decide (e + 999900000 ≤ t.elapsed) && decide (t.elapsed ≤ e + 1000100000))

/-- PPS_EDGE (R465 to R468). -/
def ppsEdge (t : TimeBase) (d : Dev) : TimeBase × Dev :=
  if t.accepts then
    let t1 := t.applyWanted
    let c : Int := (t1.ns : Int) - t1.ppsComp
    let x : Int := match t1.setNext with | some v => (v : Int) | none => nearestSecond c
    let t2 : TimeBase := { t1 with offset := c - x, setNext := none, lastEdge := some t1.elapsed, ppsLost := false, first := false }
    onPps t2 d (c - x) t1.first
  else
    let due := match t.rejectLogged with | none => true | some e => decide (e + 10000000000 ≤ t.elapsed)
    let t1 : TimeBase := { t with
      rejected := min (2 ^ 32 - 1) (t.rejected + 1), rejectLogged := if due then some t.elapsed else t.rejectLogged }
    (t1, if due then d.logErr t 0x0193 else d)

/-- PPS_EDGE -/
def execPpsEdge (s : State) : Host.Outcome State Fault Refusal := actTime s ppsEdge

/-- No edge accepted for 1.5 s (R466). -/
def TimeBase.noEdge (t : TimeBase) : Bool := decide (t.lastEdge.getD 0 + 1500000000 ≤ t.elapsed)

/-- PPS_LOST (R466, R473): the state becomes holdover. -/
def ppsLost (t : TimeBase) (d : Dev) : TimeBase × Dev :=
  if t.noEdge ∧ ¬ t.ppsLost then
    ({ t.applyModes with state := 4, first := true, alignedCount := 0, ppsLost := true }, d.logErr t 0x0192)
  else (t, d)

/-- PPS_LOST -/
def execPpsLost (s : State) : Host.Outcome State Fault Refusal := actTime s ppsLost

/-- TIME_REF_LOST (R463): the PLL keeps its last control value. With `TIME_REF_SEL` 3 the reference is ignored (R462). -/
def timeRefLost (t : TimeBase) (d : Dev) : TimeBase × Dev :=
  if t.refSel = 3 ∨ t.refLostAt.isSome then (t, d)
  else ({ t with refLostAt := some t.elapsed, state := 4, first := true, alignedCount := 0 }, d.logErr t 0x0191)

/-- TIME_REF_LOST -/
def execTimeRefLost (s : State) : Host.Outcome State Fault Refusal := actTime s timeRefLost

/-- HOLDOVER_EXPIRY (R463): after 10 ms of holdover the PLL locks to FN_REFCLK. -/
def holdoverExpiry (t : TimeBase) (d : Dev) : TimeBase × Dev :=
  match t.refLostAt with
  | some e => if e + 10000000 ≤ t.elapsed ∧ ¬ t.fnRef then ({ t with fnRef := true, state := if t.state = 4 then 1 else t.state }, d) else (t, d)
  | none => (t, d)

/-- HOLDOVER_EXPIRY -/
def execHoldoverExpiry (s : State) : Host.Outcome State Fault Refusal := actTime s holdoverExpiry

/-- The frequency is accepted under `TIME_REF_SEL` (R462): 1 is 25 MHz, 2 is 10 MHz, 0 neither. -/
def refAccepted (sel freq : Nat) : Bool :=
  decide (freq ≠ 0) && (decide (sel = 0) || decide (sel = freq))

/-- TIME_REF_RETURN (R462, R463): the PLL glides back to the reference; `TIME_STATE` shows the change. -/
def timeRefReturn (freq : Fin 3) (t : TimeBase) (d : Dev) : TimeBase × Dev :=
  if refAccepted t.refSel freq.val then
    ({ t with refLostAt := none, fnRef := false,
              state := if t.state = 0 ∨ t.state = 4 then 1 else t.state }, d)
  else (t, d)

/-- TIME_REF_RETURN -/
def execTimeRefReturn (freq : Fin 3) (s : State) : Host.Outcome State Fault Refusal := actTime s (timeRefReturn freq)

/-- REPLICA_STROBE_LOSS (R464): recorded with the die; its stamps are marked unreliable. -/
def replicaStrobeLoss (die : Fin 32) (t : TimeBase) (d : Dev) : TimeBase × Dev :=
  if t.badDies.contains die.val then (t, d)
  else ({ t with badDies := insNat t.badDies die.val }, d.logErr t 0x0191 (die := die.val))

/-- REPLICA_STROBE_LOSS -/
def execReplicaStrobeLoss (die : Fin 32) (s : State) : Host.Outcome State Fault Refusal := actTime s (replicaStrobeLoss die)

/-- `TIME_STATE` (Table 15-5). -/
def TimeBase.stateWord (t : TimeBase) : Nat := t.state.val + 8 * b2n t.fnRef + 16 * b2n (!t.badDies.isEmpty)

/-- The writable time-base values as they will be in force. -/
def TimeBase.want (t : TimeBase) : Nat × Nat × Nat × Int × Nat :=
  t.wanted.getD (t.refSel, t.mode, t.slewMax, t.ppsComp, t.alignTol)

/-- A write of 0x2200:sub, already checked (R473): in force from the next accepted edge; `TIME_REF_SEL` and `TIME_MODE`
at once when no edge has been accepted for 1.5 s. A write of `TIME_SET_NEXT` lets the next edge be accepted (R466). -/
def TimeBase.write (t : TimeBase) (sub : Nat) (v : Int) : TimeBase :=
  let (rs, md, sl, pc, tol) := t.want
  match sub with
  | 3 => if t.noEdge then { t with refSel := v.toNat, wanted := some (v.toNat, md, sl, pc, tol),
                                   fnRef := if v = 3 then true else t.fnRef }
         else { t with wanted := some (v.toNat, md, sl, pc, tol) }
  | 4 => if t.noEdge then { t with mode := v.toNat, wanted := some (rs, v.toNat, sl, pc, tol) }
         else { t with wanted := some (rs, v.toNat, sl, pc, tol) }
  | 5 => { t with setNext := some v.toNat, first := true }
  | 9 => { t with wanted := some (rs, md, v.toNat, pc, tol) }
  | 0xB => { t with wanted := some (rs, md, sl, v, tol) }
  | 0xC => { t with wanted := some (rs, md, sl, pc, v.toNat) }
  | _ => t

/-- The time base after a device reset: every value at its default, the counts zero (R459, R500). -/
def TimeBase.reset : TimeBase := {}

end Sys2Proof.Machine
end

