-- ==== Sys2Proof/Machine/PowerUp.lean ====
section
/-! DEFINITION. Resets, rails and the standby half of power-up (sections 19.1 to 19.3, chapter 21), the non-volatile
values taken at power-up (R556), firmware download and admission (sections 19.4, 19.5). -/
namespace Sys2Proof.Machine

/-! ### Resets -/

/-- The device in reset (R500, R520, R559, R564, R565): the MRAM copies survive, and the error log where VSTBY stays. -/
def Dev.inReset (d : Dev) (keepLog : Bool) : Dev :=
  { ({} : Dev) with
    free := d.free
    log := if keepLog then d.log else {}
    ctr := if keepLog then mput 0 [] (objKey 0x2E00 3) (d.ctrN 0x2E00 3) else []
    nv := { ({} : NvCtl) with copy0 := d.nv.copy0, copy1 := d.nv.copy1 } }

/-- VSTBY_LOSS (R564): the whole device is held in reset; the error log and the volatile keys are lost. -/
def vstbyLoss (_ : TimeBase) (d : Dev) : TimeBase × Dev :=
  (TimeBase.reset, { d.inReset false with pu := { ({} : PowerUp) with vstby := false } })

/-- VSTBY_LOSS -/
def execVstbyLoss (s : State) : Host.Outcome State Fault Refusal := actTime s vstbyLoss

/-- RESET_N (R565): a pulse of 10 µs or more resets the device, after a commit in progress has ended. A shorter one is
ignored, as the rule allows. -/
def resetN (lowNs : W32) (t : TimeBase) (d : Dev) : TimeBase × Dev :=
  if lowNs.toNat < 10000 then (t, d)
  else if d.nv.committing.isSome then (t, { d with pu := { d.pu with resetPending := true } })
  else (TimeBase.reset, d.inReset true)

/-- RESET_N -/
def execResetN (lowNs : W32) (s : State) : Host.Outcome State Fault Refusal := actTime s (resetN lowNs)

/-- POWER_ON_RESET_RELEASE (R564, R567): VSTBY has stayed within its limits; the controller forwards frames and
BYPASS_N is high. -/
def powerOnResetRelease (d : Dev) : Dev :=
  if d.pu.state = .init ∧ ¬ d.pu.forwarding then { d with pu := { d.pu with forwarding := true, vstby := true } } else d

/-- POWER_ON_RESET_RELEASE -/
def execPowerOnResetRelease (s : State) : Host.Outcome State Fault Refusal := act s fun _ d => powerOnResetRelease d

/-- An endpoint after its reset: observer, every per-endpoint value at its default (R482, R484, R501). -/
def Dev.resetEp (d : Dev) (e : Nat) : Dev := { d with eps := mput {} d.eps e {} }

/-- An endpoint by number. -/
def Dev.ep (d : Dev) (e : Nat) : Endpoint := mget {} d.eps e
def Dev.setEp (d : Dev) (e : Nat) (x : Endpoint) : Dev := { d with eps := mput {} d.eps e x }

/-- The PCIe link of a host die is up. -/
def Dev.pcie (d : Dev) (h : Nat) : Bool := if h = 0 then d.pu.pcie0 else d.pu.pcie1
def Dev.setPcie (d : Dev) (h : Nat) (b : Bool) : Dev :=
  { d with pu := if h = 0 then { d.pu with pcie0 := b } else { d.pu with pcie1 := b } }

/-- A firmware-load window. -/
def Dev.win (d : Dev) (h : Nat) : FwWindow := if h = 0 then d.fw.win0 else d.fw.win1
def Dev.setWin (d : Dev) (h : Nat) (w : FwWindow) : Dev :=
  { d with fw := if h = 0 then { d.fw with win0 := w } else { d.fw with win1 := w } }

/-- The window whose load is in progress reports its end (Table 19-4). -/
def Dev.endWin (d : Dev) (code : Nat) : Dev :=
  if d.fw.source = 2 ∨ d.fw.source = 3 then
    let h := d.fw.source - 2
    d.setWin h { d.win h with phase := 3, code := BitVec.ofNat 16 code }
  else d

/-- A load ends without admission: `FW_STATUS` holds the code (R569). -/
def Dev.endLoad (d : Dev) (code : Nat) : Dev :=
  let d1 := d.endWin code
  { d1 with fw := { d1.fw with loading := false, verifying := false, status := BitVec.ofNat 16 code, area := [] } }

/-- PERST (R566): the port, BAR0 and BAR2 of the die are reset; a load of its window is abandoned. -/
def perst (h : HostDie) (d : Dev) : Dev :=
  let d0 := d.setDie h.val { d.die h.val with object := false, ideKeys := [] }
  let d1 := (d0.setPcie h.val false).resetEp (h.val + 1)
  let d2 := if d1.fw.loading ∧ d1.fw.source = h.val + 2 then d1.endLoad 0x5012 else d1
  d2.setWin h.val {}

/-- PERST -/
def execPerst (h : HostDie) (s : State) : Host.Outcome State Fault Refusal := act s fun _ d => perst h d

/-- PCIE_LINK_DOWN (R29, R484): the die's rings stop advancing and its endpoint returns to observer. -/
def pcieLinkDown (h : HostDie) (d : Dev) : Dev := (d.setPcie h.val false).resetEp (h.val + 1)

/-- PCIE_LINK_DOWN -/
def execPcieLinkDown (h : HostDie) (s : State) : Host.Outcome State Fault Refusal := act s fun _ d => pcieLinkDown h d

/-- PCIE_LINK_UP (R566, R568): not while IO_PG is low. -/
def pcieLinkUp (h : HostDie) (d : Dev) : Dev := if d.pu.ioPg then d.setPcie h.val true else d

/-- PCIE_LINK_UP -/
def execPcieLinkUp (h : HostDie) (s : State) : Host.Outcome State Fault Refusal := act s fun _ d => pcieLinkUp h d

/-! ### Rails -/

/-- The core dies lose power or are held in reset (R559, R563): their stores and registers are gone; channel states and
counts are non-volatile. -/
def Dev.coreDown (d : Dev) : Dev :=
  { d with
    sites := [], fabric := {}, bridges := [], lagoons := [], arbs := [], cause := [], masks := []
    hbms := mmap {} (fun _ k => ({ active := k.active, chans := k.chans, returning := k.returning } : Stack)) d.hbms }

/-- CORE_EN_DROP (R559): 10 ms after entry to FAULT. -/
def coreEnDrop (t : TimeBase) (d : Dev) : Dev :=
  match d.pu.faultAt with
  | some e => if e + 10000000 ≤ t.elapsed ∧ d.pu.coreEn then { d.coreDown with pu := { d.pu with coreEn := false } } else d
  | none => d

/-- CORE_EN_DROP -/
def execCoreEnDrop (s : State) : Host.Outcome State Fault Refusal := act s coreEnDrop

/-- IO_PG_RISE (R559, R560): the board asserts it only while IO_EN is high. -/
def ioPgRise (d : Dev) : Dev := if d.pu.ioEn then { d with pu := { d.pu with ioPg := true } } else d

/-- IO_PG_RISE -/
def execIoPgRise (s : State) : Host.Outcome State Fault Refusal := act s fun _ d => ioPgRise d

/-- CORE_PG_RISE (R560, R561). -/
def corePgRise (t : TimeBase) (d : Dev) : Dev :=
  if d.pu.coreEn ∧ ¬ d.pu.corePg then { d with pu := { d.pu with corePg := true, corePgAt := t.elapsed } } else d

/-- CORE_PG_RISE -/
def execCorePgRise (s : State) : Host.Outcome State Fault Refusal := act s corePgRise

/-- CORE_PG_TIMEOUT (R561). -/
def corePgTimeout (t : TimeBase) (d : Dev) : Dev :=
  if d.pu.coreEn ∧ ¬ d.pu.corePg ∧ d.pu.coreEnAt + 100000000 ≤ t.elapsed ∧ d.pu.state ≠ .fault then
    d.enterFault t 0x7010 (detail := Config.railGroup 1)
  else d

/-- CORE_PG_TIMEOUT -/
def execCorePgTimeout (s : State) : Host.Outcome State Fault Refusal := act s corePgTimeout

/-- POWER_GOOD_FALL (R562, R614): FAULT while the enable is high, but not when RESET_N falls with it. -/
def powerGoodFall (core withReset : Bool) (t : TimeBase) (d : Dev) : Dev :=
  let en := if core then d.pu.coreEn else d.pu.ioEn
  let up := if core then d.pu.corePg else d.pu.ioPg
  let d1 : Dev := { d with pu := if core then { d.pu with corePg := false }
                                else { d.pu with ioPg := false, pcie0 := false, pcie1 := false } }
  let d2 := if core then d1.coreDown else (d1.resetEp 1).resetEp 2
  if up ∧ en ∧ ¬ withReset then d2.enterFault t 0x7010 (detail := Config.railGroup (b2n core)) else d2

/-- POWER_GOOD_FALL -/
def execPowerGoodFall (core withReset : Bool) (s : State) : Host.Outcome State Fault Refusal :=
  act s (powerGoodFall core withReset)

/-- TAP_INSTRUCTION (R615): boundary scan in INIT and BOOT while CORE_EN is low; else anything but BYPASS and IDCODE is
executed as BYPASS. -/
def tapInstruction (i : TapInstr) (d : Dev) : Dev :=
  let scan := decide ((d.pu.state = .init ∨ d.pu.state = .boot) ∧ d.pu.coreEn = false)
  let eff := if i = .other then .bypass else if scan ∨ i = .idcode then i else .bypass
  { d with pu := { d.pu with tap := eff } }

/-- TAP_INSTRUCTION -/
def execTapInstruction (t : TapInstr) (s : State) : Host.Outcome State Fault Refusal := act s fun _ d => tapInstruction t d

/-- FRAME_FORWARD (R476): from the other port, or back where that port has no link. A device that does not forward
drives BYPASS_N low and no frame reaches it. -/
def frameForward (port : Fin 2) (otherLink : Bool) (d : Dev) : Dev :=
  if d.pu.forwarding then { d with net := { d.net with lastOut := some (if otherLink then 1 - port else port) } } else d

/-- FRAME_FORWARD -/
def execFrameForward (port : Fin 2) (otherLink : Bool) (s : State) : Host.Outcome State Fault Refusal :=
  act s fun _ d => frameForward port otherLink d

/-! ### Non-volatile values -/

/-- An NV value of the device's own is queued for commit; an earlier one of the same object is superseded (R505). -/
def Dev.nvOwn (d : Dev) (idx sub : Nat) (v : List Byte) : Dev :=
  { d with nv := { d.nv with
    writes := (d.nv.writes.filter fun w => !(decide (w.key = objKey idx sub) && w.via.isNone)) ++
      [{ key := objKey idx sub, val := v, via := none, at_ := 0 }] } }

/-- `FAIL` of a reef row; 31: the spare is unused (R205). -/
def Dev.failOf (d : Dev) (reef row : Nat) : Nat := mget 31 d.health.fail (reef * 16 + row)
def Dev.setFail (d : Dev) (reef row f : Nat) : Dev :=
  { d with health := { d.health with fail := mput 31 d.health.fail (reef * 16 + row) f } }

/-- `REEF_MAP_r`: sixteen 5-bit fields, little-endian, reserved bits zero (R205, R519). -/
def Dev.reefMap (d : Dev) (reef : Nat) : List Byte :=
  le 16 (sumNat ((List.range 16).map fun r => d.failOf reef r * 2 ^ (5 * r)))

/-- `HEALTH_MAP_GEN` rises for a change of a reef's map (R518). -/
def Dev.newMap (d : Dev) (reef : Nat) : Dev :=
  let d1 := d.bump 0x2D00 4 1
  { d1 with health := { d1.health with reefGen := mput 0 d1.health.reefGen reef (d1.ctrN 0x2D00 4) } }

/-- A changed repair map is committed and counted (R518, R594). -/
def Dev.mapChanged (d : Dev) (reef : Nat) : Dev := (d.nvOwn (0x2D10 + reef / 36) (1 + reef % 36) (d.reefMap reef)).newMap reef

/-- The repair field that waits for a row takes effect (R591). -/
def Dev.repairRow (d : Dev) (reef row : Nat) : Dev :=
  match d.health.failNext.find? fun e => decide (e.1 = reef * 16 + row) with
  | some e =>
    (({ d with health := { d.health with failNext := d.health.failNext.erase e } } : Dev).setFail reef row e.2).mapChanged reef
  | none => d

/-- Every repair field that waits on a reef takes effect. -/
def Dev.repairReef (d : Dev) (reef : Nat) : Dev := (List.range 16).foldl (fun d r => d.repairRow reef r) d

/-- A reef becomes degraded (R593, R594). -/
def Dev.degrade (d : Dev) (reef : Nat) : Dev :=
  (({ d with health := { d.health with degraded := insNat d.health.degraded reef } } : Dev).nvOwn (0x2D10 + reef / 36) (0x41 + reef % 36)
    [1]).newMap reef

/-- A channel's state (R517): 0 in service, 1 failing, 2 mapped out, 3 return at power-up. -/
def Stack.chState (k : Stack) (c : Nat) : Nat :=
  if k.active.getLsbD c then b2n (mget {} k.chans c).failing
  else if k.returning.getLsbD c then 3 else 2

/-- One NV object as the ROM takes it from the copy (R556). -/
def Dev.loadNvObj (d : Dev) (key : Nat) (v : List Byte) : Dev :=
  let idx := key / 256
  let sub := key % 256
  let n := leNat v
  if 0x2D10 ≤ idx ∧ idx < 0x2D14 then
    let reef (b : Nat) := (idx - 0x2D10) * 36 + (sub - b)
    if 0x41 ≤ sub then
      if n = 1 then { d with health := { d.health with degraded := insNat d.health.degraded (reef 0x41) } } else d
    else (List.range 16).foldl (fun d r => d.setFail (reef 1) r (bits n (5 * r + 4) (5 * r))) d
  else if 0x2C10 ≤ idx ∧ idx < 0x2C20 then
    let k := idx - 0x2C10
    let x := d.stk k
    let c := (sub - 1) % 16
    let ch := mget {} x.chans c
    if sub ≤ 0x10 then d.setStk k { x with chans := mput {} x.chans c { ch with two := n } }
    else if sub ≤ 0x20 then d.setStk k { x with chans := mput {} x.chans c { ch with ue := n } }
    else
      let m : W16 := BitVec.twoPow 16 c
      d.setStk k { x with
        chans := mput {} x.chans c { ch with failing := decide (n = 1) }
        active := if 2 ≤ n then x.active &&& ~~~m else x.active ||| m
        returning := if n = 3 then x.returning ||| m else x.returning &&& ~~~m }
  else if key = objKey 0x2000 7 ∨ key = objKey 0x2500 5 then d.setCtr idx sub n
  else d.setObj idx sub v

/-- The NV values are taken from a copy. -/
def Dev.loadNv (d : Dev) (m : Nvm) : Dev := m.objs.foldl (fun d e => d.loadNvObj e.1 e.2) d

/-- SELF_CHECK_END (R526, R527, R556, R567, Table 19-2): BOOT with IO_EN high, or the outcome of the failing step. -/
def selfCheckEnd (r : SelfCheck) (m : MramCheck) (t : TimeBase) (d : Dev) : Dev :=
  if d.pu.state ≠ .init ∨ ¬ d.pu.forwarding then d else
  match r with
  | .fuses => d
  | .rom => d.enterFault t 0x8010 (detail := 1)
  | .entropy => d.enterFault t 0x5009
  | .ok =>
    if ¬ m.copy0 ∧ ¬ m.copy1 then d.enterFault t 0x8010 (detail := 1)
    else
      let use0 := m.copy0 && (!m.copy1 || decide (d.nv.copy1.counter ≤ d.nv.copy0.counter))
      let c := if use0 then d.nv.copy0 else d.nv.copy1
      let repaired := !(m.copy0 && m.copy1) || !decide (d.nv.copy0 = d.nv.copy1)
      let d1 : Dev := { d with nv := { d.nv with copy0 := c, copy1 := c } }
      let d2 := if repaired then d1.logErr t 0x7003 else d1
      let d3 := d2.loadNv c
      { d3 with pu := { d3.pu with state := .boot, ioEn := true } }

/-- SELF_CHECK_END -/
def execSelfCheckEnd (r : SelfCheck) (m : MramCheck) (s : State) : Host.Outcome State Fault Refusal := act s (selfCheckEnd r m)

/-! ### Firmware download -/

/-- The largest image, `FW_MAX_BYTES`. -/
def fwMax : Nat := 16777216

/-- Bytes of a load reach the image area (R569): the first one begins the load. -/
def Dev.fwBytes (d : Dev) (t : TimeBase) (source : Nat) (via : Option Via) (data : List Byte) : Dev :=
  if data = [] then d
  else if d.fw.loading then
    let d1 := d.setCtr 0x2400 3 (d.ctrN 0x2400 3 + data.length)
    { d1 with fw := { d1.fw with area := d1.fw.area ++ data, lastByte := t.elapsed } }
  else
    let d1 := (d.bump 0x2400 6 1).setCtr 0x2400 3 data.length
    { d1 with fw := { d1.fw with
      area := data, loading := true, verifying := false, source := source, via := via, lastByte := t.elapsed } }

/-- "vz4832.gnw" (R570). -/
def fwFile : List Byte := [0x76, 0x7A, 0x34, 0x38, 0x33, 0x32, 0x2E, 0x67, 0x6E, 0x77]

/-- FOE_WRITE (R570). Outside BOOT there is no FoE service (Table 16-1). -/
def foeWrite (start : Option (List Byte × W32)) (data : List Byte) (last : Bool) (t : TimeBase) (d : Dev) : Dev :=
  if d.pu.state ≠ .boot then d
  else if start.any (fun p => decide (p.1 ≠ fwFile) || decide (p.2 ≠ 0)) then { d with fw := { d.fw with foe := 0x8001 } }
  else if d.fw.loading ∧ (d.fw.source ≠ 1 ∨ d.fw.verifying) then { d with fw := { d.fw with foe := 0x8002 } }
  else
    let d1 := if start.isSome ∧ d.fw.loading then d.endLoad 0x5012 else d
    let have_ := if d1.fw.loading then d1.fw.area.length else 0
    if fwMax < have_ + data.length then
      let d2 := (d1.fwBytes t 1 none data).endLoad 0x5010
      { d2 with fw := { d2.fw with foe := 0x8003 } }
    else
      let d2 := d1.fwBytes t 1 none data
      { d2 with fw := { d2.fw with foe := 0, verifying := last && d2.fw.loading } }

/-- FOE_WRITE -/
def execFoeWrite (start : Option (List Byte × W32)) (data : List Byte) (last : Bool) (s : State) :
    Host.Outcome State Fault Refusal := act s (foeWrite start data last)

/-- Bytes of the response in a host mailbox: CoE header, SDO header, data (R480; assumption 32). -/
def SdoAnswer.size : SdoAnswer → Nat
  | .data b => if b.length ≤ 4 then 10 else min 2048 (10 + b.length)
  | _ => 10

/-- An endpoint is answered; a mailbox that serves a request ends it with the answer, in one update of `MBX_STAT` (R480). -/
def Endpoint.answered (x : Endpoint) (a : SdoAnswer) : Endpoint :=
  if x.busy ∧ a ≠ .waiting then { x with answer := a, busy := false, done := true, rlen := a.size, rseq := x.mbxSeq }
  else { x with answer := a }

/-- The answer of an endpoint or session. -/
def Dev.answer (d : Dev) (v : Via) (a : SdoAnswer) : Dev :=
  match v with
  | .endpoint e => d.setEp e.val ((d.ep e.val).answered a)
  | .session h k =>
    let x := d.die h.val
    match mget none x.sessions k.val with
    | some ss => d.setDie h.val { x with sessions := mput none x.sessions k.val (some { ss with ep := ss.ep.answered a }) }
    | none => d

/-- FW_IMAGE (R513, R571): segments of a write by any role. -/
def fwImage (v : Via) (data : List Byte) (last : Bool) (t : TimeBase) (d : Dev) : Dev :=
  if d.pu.state ≠ .boot then d.answer v (.abort 0x08000022)
  else if d.fw.loading ∧ (d.fw.source ≠ 4 ∨ d.fw.via ≠ some v ∨ d.fw.verifying) then d.answer v (.abort 0x08000020)
  else if fwMax < (if d.fw.loading then d.fw.area.length else 0) + data.length then
    ((d.fwBytes t 4 (some v) data).endLoad 0x5010).answer v (.abort 0x06070010)
  else
    let d1 := d.fwBytes t 4 (some v) data
    let d2 : Dev := { d1 with fw := { d1.fw with verifying := last && d1.fw.loading } }
    d2.answer v (if last then .waiting else .ok)

/-- FW_IMAGE -/
def execFwImage (v : Via) (data : List Byte) (last : Bool) (s : State) : Host.Outcome State Fault Refusal :=
  act s (fwImage v data last)

/-- FWL_GO (R572): accepted in BOOT with no load in progress and both registers in range; the die then reads the image
once. Outside BOOT the writes of BAR2 are ignored. -/
def fwlGo (h : HostDie) (addr : W64) (len : W32) (image : List Byte) (t : TimeBase) (d : Dev) : Dev :=
  if d.pu.state ≠ .boot ∨ ¬ d.pcie h.val then d
  else
    let w : FwWindow := { d.win h.val with addr := addr, len := len }
    let n := len.toNat
    if d.fw.loading ∨ addr.toNat % 4096 ≠ 0 ∨ n < 4096 ∨ fwMax < n ∨ n % 16 ≠ 0 then
      d.setWin h.val { w with rejected := true }
    else
      let d1 := d.setWin h.val { w with rejected := false, phase := 2, received := n }
      let d2 := d1.fwBytes t (h.val + 2) none (padTo n image)
      { d2 with fw := { d2.fw with verifying := true } }

/-- FWL_GO -/
def execFwlGo (h : HostDie) (addr : W64) (len : W32) (image : List Byte) (s : State) : Host.Outcome State Fault Refusal :=
  act s (fwlGo h addr len image)

/-- FWL_ABORT (R572). -/
def fwlAbort (h : HostDie) (d : Dev) : Dev :=
  if d.pu.state = .boot ∧ d.fw.loading ∧ d.fw.source = h.val + 2 then d.endLoad 0x5012 else d

/-- FWL_ABORT -/
def execFwlAbort (h : HostDie) (s : State) : Host.Outcome State Fault Refusal := act s fun _ d => fwlAbort h d

/-- FW_LOAD_TIMEOUT (R569): 10 s without a byte. -/
def fwLoadTimeout (t : TimeBase) (d : Dev) : Dev :=
  if d.fw.loading ∧ ¬ d.fw.verifying ∧ d.fw.lastByte + 10000000000 ≤ t.elapsed then d.endLoad 0x5011 else d

/-- FW_LOAD_TIMEOUT -/
def execFwLoadTimeout (s : State) : Host.Outcome State Fault Refusal := act s fwLoadTimeout

/-- Two byte ranges overlap. -/
def overlap (a n b m : Nat) : Bool := decide (a < b + m) && decide (b < a + n)

/-- Sections of an image: type, offset, size (Table 19-6). -/
def fwSections (b : List Byte) : List (Nat × Nat × Nat) :=
  (List.range (min 32 (fieldAt b 20 2))).map fun i =>
    let o := 256 + 32 * i
    (fieldAt b o 2, fieldAt b (o + 8) 4, fieldAt b (o + 12) 4)

/-- Pairs of different positions of a list. -/
def pairsOf {α : Type} : List α → List (α × α)
  | [] => []
  | x :: r => (r.map fun y => (x, y)) ++ pairsOf r

/-- The format checks of R575. -/
def fwFormatOk (b : List Byte) : Bool :=
  let len := fieldAt b 8 4
  let ns := fieldAt b 20 2
  let secs := fwSections b
  let zero (o n : Nat) := decide (fieldAt b o n = 0)
  let code := secs.find? fun x => x.1 = 1
  decide (fieldAt b 0 4 = 0x31574E47) && decide (fieldAt b 4 2 = 1) && decide (fieldAt b 6 2 ≤ 1) &&
  decide (len = b.length) && decide (4096 ≤ len) && decide (len ≤ fwMax) && decide (len % 16 = 0) &&
  decide (1 ≤ ns) && decide (ns ≤ 32) && zero 22 2 && zero 161 95 &&
  (List.range ns).all (fun i => zero (256 + 32 * i + 2) 6 && zero (256 + 32 * i + 16) 16) &&
  secs.all (fun x => decide (1 ≤ x.1) && decide (x.1 ≤ 6) && decide (x.2.1 % 64 = 0) &&
    !overlap x.2.1 x.2.2 0 (256 + 32 * ns) && decide (x.2.1 + x.2.2 ≤ len - 96)) &&
  (pairsOf secs).all (fun p => !overlap p.1.2.1 p.1.2.2 p.2.2.1 p.2.2.2) &&
  [1, 3, 4].all (fun ty => decide ((secs.filter fun x => x.1 = ty).length = 1)) &&
  (match code with | some x => decide (x.2.1 ≤ fieldAt b 24 8) && decide (fieldAt b 24 8 < x.2.1 + x.2.2) | none => false)

/-- The answer to the source of a load when verification ends (R570, R571, R572). -/
def Dev.fwAnswer (d : Dev) (ok : Bool) : Dev :=
  if d.fw.source = 1 then { d with fw := { d.fw with foe := if ok then 0 else 0x8000 } }
  else match d.fw.via with
    | some v => d.answer v (if ok then .ok else .abort 0x08000020)
    | none => d

/-- Admission of an image (R531, R559, R576): PREOP, CORE_EN high, the control cores run, strait training begins, a
commit of `DEV_BOOT_COUNT` + 1 is queued. -/
def Dev.takeImage (d : Dev) (t : TimeBase) : Dev :=
  let b := d.fw.area
  let d1 := (d.fwAnswer true).endWin 0
  let n := min (2 ^ 32 - 1) (d1.ctrN 0x2000 7 + 1)
  let d2 := (d1.setCtr 0x2000 7 n).nvOwn 0x2000 7 (le 4 n)
  let d3 : Dev := { d2 with
    fw := { d2.fw with
      loading := false, verifying := false, status := 0, version := BitVec.ofNat 32 (fieldAt b 16 4),
      measurement := Config.sha384 b, verStr := bytesAt b 129 32, svn := fieldAt b 12 4, raiseSvn := bit (fieldAt b 6 2) 0 }
    pu := { d2.pu with
      state := .preop, coreEn := true, coreEnAt := t.elapsed, preopAt := t.elapsed, coresAt := some t.elapsed,
      tap := if d2.pu.tap = .idcode then .idcode else .bypass } }
  (List.range 16).foldl (fun d j => d.setLnk j { d.lnk j with state := .training }) d3

/-- FW_VERIFY (R530, R575): the format checks, then the conditions of R530 in order. -/
def fwVerify (sigOk : Bool) (t : TimeBase) (d : Dev) : Dev :=
  if ¬ d.fw.verifying ∨ d.pu.state ≠ .boot then d
  else
    let b := d.fw.area
    if ¬ fwFormatOk b then (d.fwAnswer false).endLoad 0x5010
    else if Config.sha384 (bytesAt b 32 97) ≠ Config.rootHash ∨ ¬ sigOk then (d.fwAnswer false).endLoad 0x5002
    else if fieldAt b 12 4 < max Config.svnFloor (d.ctrN 0x2500 5) then (d.fwAnswer false).endLoad 0x5003
    else d.takeImage t

/-- FW_VERIFY -/
def execFwVerify (sigOk : Bool) (s : State) : Host.Outcome State Fault Refusal := act s (fwVerify sigOk)

/-- ENTROPY_FAIL (R527). -/
def entropyFail (t : TimeBase) (d : Dev) : Dev := d.enterFault t 0x5009

/-- ENTROPY_FAIL -/
def execEntropyFail (s : State) : Host.Outcome State Fault Refusal := act s entropyFail

/-- LOCKSTEP_MISMATCH (R588): the control cores stop, queued records are lost, a commit in progress is not performed. -/
def lockstepMismatch (t : TimeBase) (d : Dev) : Dev :=
  let d1 := d.enterFault t 0x8003
  let beat := match d1.pu.coresAt with | some e => (t.elapsed - e) / 1000000 % 2 ^ 32 | none => d1.ctrN 0x2000 0x12
  let d2 := d1.setCtr 0x2000 0x12 beat
  { d2 with
    pu := { d2.pu with coresAt := none }
    nv := { d2.nv with
      queue := [], overflow := [], writes := [], committing := none,
      copy0 := if d2.nv.committing.isSome then d2.nv.copy1 else d2.nv.copy0 } }

/-- LOCKSTEP_MISMATCH -/
def execLockstepMismatch (s : State) : Host.Outcome State Fault Refusal := act s lockstepMismatch

end Sys2Proof.Machine
end

