-- ==== Sys2Proof/Machine/Journal.lean ====
section
/-! DEFINITION. The treatment journal, commits to MRAM and the hold-up check (R505, sections 18.9 and 18.10). -/
namespace Sys2Proof.Machine

/-- The hold-up energy in µJ at a capacitor voltage in mV (R511); a voltage above 16 V reads as 16 V (R613). -/
def Dev.holdup (d : Dev) (mv : Nat) : Nat :=
  let v := min 16000 mv
  let m := d.objN 0x2300 2
  d.objN 0x2300 1 * (v * v - m * m) / 2000000

/-- A HOLDUP_SENSE conversion (R511, R613). -/
def Dev.senseHoldup (d : Dev) (mv : Nat) : Dev :=
  (d.setCtr 0x2300 3 (min 16000 mv)).setCtr 0x2300 4 (min (2 ^ 32 - 1) (d.holdup mv))

/-- HOLDUP_SENSE_SAMPLE (R613): while the trust unit runs. -/
def holdupSenseSample (mv : W16) (d : Dev) : Dev := if d.pu.state = .init then d else d.senseHoldup mv.toNat

/-- HOLDUP_SENSE_SAMPLE -/
def execHoldupSenseSample (mv : W16) (s : State) : Host.Outcome State Fault Refusal := act s fun _ d => holdupSenseSample mv d

/-- `HOLDUP_CAP` and `HOLDUP_VMIN`, exempt from the check (R505). -/
def nvExempt (w : NvWrite) : Bool := decide (w.key = objKey 0x2300 1) || decide (w.key = objKey 0x2300 2)

/-- 48 zero bytes. -/
def zero48 : List Byte := List.replicate 48 0

/-- One record takes its counter, its sequence and its chain fields, is signed and stored (R550 to R552). -/
def Nvm.commitRec (m : Nvm) (r : JRec) : Nvm :=
  let seq := mget 0 m.seqs r.slot
  let body := le 1 r.rtype ++ le 1 r.flags ++ le 1 r.slot ++ le 1 r.job ++ padTo 12 r.b4 ++ le 8 m.counter ++ le 4 seq ++
    padTo 36 r.b28 ++ padTo 48 m.hash ++ padTo 48 (mget [] m.slotHash r.slot) ++ padTo 256 r.b160
  let rec_ := body ++ padTo 96 (Config.dikSign body)
  let h := Config.sha384 rec_
  { m with
    recs := mins m.recs (m.counter % 32768) rec_, counter := m.counter + 1, held := min 32768 (m.held + 1),
    seqs := mput 0 m.seqs r.slot (seq + 1), slotHash := mput [] m.slotHash r.slot h, hash := h }

/-- One NV value is written; a slot's sequence starts at its registration (R500, R551). -/
def Nvm.commitObj (m : Nvm) (w : NvWrite) : Nvm :=
  let idx := w.key / 256
  let sub := w.key % 256
  let m1 : Nvm := { m with objs := mput (objDefault idx sub) m.objs w.key w.val }
  if 0x3000 ≤ idx ∧ idx < 0x3400 ∧ idx % 16 = 1 ∧ sub = 1 ∧ emptyKey (mget [] m.objs w.key) ∧ ¬ emptyKey w.val then
    { m1 with seqs := mput 0 m1.seqs ((idx - 0x3000) / 16) 0, slotHash := mput [] m1.slotHash ((idx - 0x3000) / 16) [] }
  else m1

/-- A commit begins (R553): NV values, then up to 64 records, into the copy of T0. -/
def Dev.beginCommit (d : Dev) (t : TimeBase) (ws : List NvWrite) (n : Nat) : Dev :=
  let m1 := ws.foldl Nvm.commitObj d.nv.copy0
  let rs := d.nv.queue.take n
  let m2 := rs.foldl Nvm.commitRec m1
  let ovr := decide (32768 < d.nv.copy0.held + rs.length)
  let d1 : Dev := { d with nv := { d.nv with
    copy0 := m2, committing := some ws, queue := d.nv.queue.drop n,
    writes := d.nv.writes.filter fun w => !ws.contains w, deferred := none,
    overwriteLogged := if ovr then some d.sched.wStart else d.nv.overwriteLogged } }
  if ovr ∧ d.nv.overwriteLogged ≠ some d.sched.wStart then d1.logErr t 0x01B0 else d1

/-- A commit is attempted after the hold-up check (R557, R558). -/
def Dev.tryCommit (d : Dev) (t : TimeBase) (mv : Nat) : Dev :=
  if d.nv.committing.isSome ∨ (d.nv.queue = [] ∧ d.nv.writes = []) then d
  else
    let d1 := d.senseHoldup mv
    if 8000 ≤ d1.holdup mv then d1.beginCommit t d1.nv.writes 64
    else
      let ex := d1.nv.writes.filter nvExempt
      let rest := !(d1.nv.queue.isEmpty && decide (ex = d1.nv.writes))
      let d2 := if rest then d1.bump 0x2300 6 1 else d1
      let d3 := if rest ∧ d.nv.deferred.isNone then d2.logErr t 0x7001 else d2
      let d4 := if ex = [] then d3 else d3.beginCommit t ex 0
      { d4 with nv := { d4.nv with deferred := if rest then some t.elapsed else none } }

/-- JOURNAL_COMMIT (R553, R557): not between the retries of a deferred commit, unless an exempt value waits. -/
def journalCommit (sense : W16) (t : TimeBase) (d : Dev) : Dev :=
  if d.pu.state = .init ∨ (d.nv.deferred.isSome ∧ ¬ d.nv.writes.any nvExempt) then d else d.tryCommit t sense.toNat

/-- JOURNAL_COMMIT -/
def execJournalCommit (sense : W16) (s : State) : Host.Outcome State Fault Refusal := act s (journalCommit sense)

/-- HOLDUP_RETRY (R558): every `HOLDUP_RETRY_MS`. -/
def holdupRetry (sense : W16) (t : TimeBase) (d : Dev) : Dev :=
  match d.nv.deferred with
  | some e => if e + d.objN 0x2300 7 * 1000000 ≤ t.elapsed then d.tryCommit t sense.toNat else d
  | none => d

/-- HOLDUP_RETRY -/
def execHoldupRetry (sense : W16) (s : State) : Host.Outcome State Fault Refusal := act s (holdupRetry sense)

/-- A role ends: the endpoint returns to observer (R484). The ticket and the nonces of the login go with it. -/
def Endpoint.logout (x : Endpoint) : Endpoint :=
  { x with role := 0, key := 0, sessionNonce := [], ticketCtr := 0, ticket := none }

/-- Every endpoint logged in with a key returns to observer (R484, R514). -/
def Dev.logoutKey (d : Dev) (role key : Nat) : Dev :=
  [0, 1, 2].foldl (fun d e => if (d.ep e).role = role ∧ (d.ep e).key = key then d.setEp e (d.ep e).logout else d) d

/-- SPDM sessions bound to a slot end (R534). -/
def Dev.endSlotSessions (d : Dev) (n : Nat) : Dev :=
  [0, 1].foldl (fun d h =>
    let x := d.die h
    d.setDie h { x with sessions := x.sessions.filter fun e => match e.2 with | some s => decide (s.binding ≠ .slot n) | none => true })
    d

/-- A key object has changed (R514, R523, R533, R534): logins with it end, a slot may register or empty, a key-event
record is queued. -/
def Dev.keyChanged (d : Dev) (t : TimeBase) (idx sub : Nat) (old new : List Byte) : Dev :=
  let em := emptyKey new
  if idx = 0x2500 ∧ 0x10 ≤ sub ∧ sub < 0x20 then
    let first := (List.range 16).all fun k => emptyKey (if 0x10 + k = sub then old else d.obj 0x2500 (0x10 + k))
    (d.logoutKey 1 (sub - 0x10)).keyRecord t 0xFF 0xFF 1 (sub - 0x10) em first new
  else if idx = 0x2500 ∧ 0x20 ≤ sub ∧ sub < 0x30 then
    (d.logoutKey 2 (sub - 0x20)).keyRecord t 0xFF 0xFF 2 (sub - 0x20) em false new
  else if 0x3000 ≤ idx ∧ idx < 0x3400 ∧ idx % 16 = 1 ∧ sub = 1 then
    let n := (idx - 0x3000) / 16
    (if em then d.endSlotSessions n else d).keyRecord t n 0xFF 3 0 em false new
  else if 0x3000 ≤ idx ∧ idx < 0x3400 ∧ idx % 16 = 2 then
    d.keyRecord t ((idx - 0x3000) / 16) 0xFF 4 (sub - 1) em false new
  else d

/-- One NV value of a finished commit is served, and the request that waits for it answered (R505). -/
def Dev.serveNv (d : Dev) (t : TimeBase) (w : NvWrite) : Dev :=
  match w.via with
  | none => d
  | some v =>
    let idx := w.key / 256
    let sub := w.key % 256
    let old := d.obj idx sub
    ((d.loadNvObj w.key w.val).keyChanged t idx sub old w.val).answer v .ok

/-- The queue takes back what waits in firmware, as far as it has room, once it has fallen below 2,048 (R553). -/
def Dev.refillQueue (d : Dev) (t : TimeBase) : Dev :=
  if d.nv.backlog ∧ d.nv.queue.length < 2048 then
    d.nv.overflow.foldl (fun d r => d.journal t r) { d with nv := { d.nv with backlog := false, overflow := [] } }
  else d

/-- Closing serving sessions without busy requests end, and their CLOSE_SERVING is answered (R542). -/
def Dev.endClosing (d : Dev) (t : TimeBase) : Dev :=
  d.jobs.foldl (fun d e =>
    e.2.srv.sessions.foldl (fun d ss =>
      match ss.2 with
      | some x =>
        if x.closing ∧ e.2.srv.reqs.all (fun q => decide (q.2.state = .free) || decide (q.2.session ≠ ss.1)) then
          let b := d.job e.1
          ((d.setJob e.1 { b with srv := { b.srv with sessions := mput none b.srv.sessions ss.1 none } }).keyRecord t
            (d.slotOf e.1) e.1 8 ss.1 true false []).lateResponse x.closer 5 0
        else d
      | none => d) d) d

/-- Requests whose treatment record has been committed are free (R375), and closing sessions may end. -/
def Dev.freeRequests (d : Dev) (t : TimeBase) : Dev :=
  let n := d.nv.copy1.counter
  let d1 := d.jobs.foldl (fun d e =>
    let b := d.job e.1
    d.setJob e.1 { b with srv := { b.srv with
      reqs := mmap {} (fun _ q =>
        if q.state = .closing ∧ q.recAt.any (fun p => decide (p < n)) then { ({} : Request) with gen := q.gen, records := q.records } else q) b.srv.reqs } }) d
  d1.endClosing t

/-- MRAM_COMMIT_END (R505, R553, R565): the copy of T1 follows, waiting writes are answered, a RESET_N that waited takes
effect. -/
def mramCommitEnd (t : TimeBase) (d : Dev) : TimeBase × Dev :=
  match d.nv.committing with
  | none => (t, d)
  | some ws =>
    let d1 : Dev := { d with nv := { d.nv with copy1 := d.nv.copy0, committing := none } }
    if d.pu.resetPending then (TimeBase.reset, d1.inReset true)
    else (t, ((ws.foldl (fun d w => d.serveNv t w) d1).refillQueue t).freeRequests t)

/-- MRAM_COMMIT_END -/
def execMramCommitEnd (s : State) : Host.Outcome State Fault Refusal := actTime s mramCommitEnd

/-- NV_WRITE_COMMIT_TIMEOUT (R505): dictionary writes not committed after 1 s are refused. -/
def nvWriteCommitTimeout (t : TimeBase) (d : Dev) : Dev :=
  let old (w : NvWrite) : Bool := w.via.isSome && decide (w.at_ + 1000000000 ≤ t.elapsed)
  let d1 : Dev := { d with nv := { d.nv with writes := d.nv.writes.filter fun w => !old w } }
  (d.nv.writes.filter old).foldl (fun d w => match w.via with | some v => d.answer v (.abort 0x08000020) | none => d) d1

/-- NV_WRITE_COMMIT_TIMEOUT -/
def execNvWriteCommitTimeout (s : State) : Host.Outcome State Fault Refusal := act s nvWriteCommitTimeout

end Sys2Proof.Machine
end

