-- ==== Sys2Proof/Machine/Sched.lean ====
section
/-! DEFINITION. Tenants, scheduling and accounting (chapter 14): jobs and slots, placement, admission, dispatch, work
units, sample sets and windows. -/
namespace Sys2Proof.Machine

/-! ### Jobs, slots and reefs -/

/-- Objects of a job, under the names of Table 14-6. -/
def Dev.jobN (d : Dev) (j sub : Nat) : Nat := d.objN (0x4000 + j) sub

/-- The value of an object that is in force for a job: a write that affects a running job waits for its next tide point, though
every read returns it at once (R308, R489). -/
def Dev.inForce (d : Dev) (j idx sub : Nat) : Nat :=
  ((d.job j).held.find? fun e => decide (e.1 = objKey idx sub)).elim (d.objN idx sub) fun e => leNat e.2

/-- The running jobs that a write of an object affects: its weights and unit limit, and the limits of collectives (R308). -/
def Dev.affected (d : Dev) (idx sub : Nat) : List Nat :=
  d.jobs.filterMap fun (j, b) =>
    if (b.state = 2 ∨ b.state = 3) ∧ ((idx = 0x4000 + j ∧ (sub = 4 ∨ sub = 5)) ∨ (idx = 0x3000 + 0x10 * d.slotOf j ∧ sub = 2) ∨
        (idx = 0x2B00 ∧ (sub = 6 ∨ sub = 7))) then some j else none

/-- A value is stored; for the running jobs that it affects the old one stays in force (R308, R489). -/
def Dev.setParam (d : Dev) (idx sub : Nat) (val : List Byte) : Dev :=
  ((d.affected idx sub).foldl (fun d j =>
    let b := d.job j
    if b.held.any (fun e => decide (e.1 = objKey idx sub)) then d
    else d.setJob j { b with held := b.held ++ [(objKey idx sub, d.obj idx sub)] }) d).setObj idx sub val

/-- The writes that wait for a job take effect (R308). -/
def Dev.takeWrites (d : Dev) (j : Nat) : Dev := if (d.job j).held.isEmpty then d else d.setJob j { d.job j with held := [] }

/-- The job is temporal and belongs to a group (R436). -/
def Dev.groupOf (d : Dev) (j : Nat) : Option Nat :=
  if d.jobN j 3 = 1 ∧ d.jobN j 0xC < 64 then some (d.jobN j 0xC) else none

/-- Members of a group that hold a plan, ascending. -/
def Dev.members (d : Dev) (g : Nat) : List Nat :=
  d.jobs.filterMap fun (j, b) => if b.state ≠ 0 ∧ d.groupOf j = some g then some j else none

/-- Reefs held by jobs and groups other than j and its own group (R437). -/
def Dev.heldByOthers (d : Dev) (j : Nat) : List Nat :=
  let own := d.groupOf j
  (d.jobs.flatMap fun (i, b) => if i = j ∨ (own.isSome ∧ d.groupOf i = own) then [] else b.reefs) ++
    (d.groups.flatMap fun (g, x) => if own = some g then [] else x.reefs)

/-- Reefs held by no job or group and not degraded (`REEFS_FREE`, Table 17-10). -/
def Dev.reefsFree (d : Dev) : Nat :=
  let held := (d.jobs.flatMap fun e => e.2.reefs) ++ (d.groups.flatMap fun e => e.2.reefs) ++ d.health.degraded
  ((List.range 144).filter fun r => !held.contains r).length

/-- Reefs held by a slot's jobs; those of a group count once (R435). -/
def Dev.slotReefs (d : Dev) (n : Nat) (but : Nat := 0x1FF) : Nat :=
  let js := (d.jobsOf n).filter fun j => !decide (j = but)
  let sp := js.foldl (fun a j => if (d.groupOf j).isNone then a + (d.job j).reefs.length else a) 0
  let gs := (List.range 64).filter fun g => js.any fun j => decide (d.groupOf j = some g) && !(d.job j).reefs.isEmpty
  sp + sumNat (gs.map fun g => (d.group g).reefs.length)

/-- The account was charged something (R452). -/
def Account.charged (a : Account) : Bool :=
  decide (0 < a.alloc + a.busy + a.hbm + a.strait + a.host + a.energy)

/-- A write of `JOB_SLOT`, already in range (R434): the abort, or the job created or released; what a released job was charged in
the window is kept for the window's records (R452). -/
def Dev.writeJobSlot (d : Dev) (j val : Nat) : Option Nat × Dev :=
  if (d.job j).state ≠ 0 then (some 0x08000022, d)
  else if val < 64 ∧ d.slotState val = 0 then (some 0x08000022, d)
  else
    let old := d.slotOf j
    let w := (d.job j).window
    let d0 : Dev := if w.charged then { d with sched := { d.sched with ended := d.sched.ended ++ [(j, old, w)] } } else d
    let d1 : Dev := (d0.setObj (0x4000 + j) 1 (le 1 val)).setJob j {}
    let d2 : Dev := { d1 with ctr := d1.ctr.filter fun e => !decide (e.1 / 256 = 0x4000 + j) }
    let d3 := if old < 64 ∧ old ≠ val then d2.setSlot old { d2.slot old with closing := true } else d2
    (none, if val < 64 then d3.setSlot val { d3.slot val with closing := false } else d3)

/-- First fit (R437): the least (Δy, Δx) for which every reef of a plan isle falls on a free, good reef. -/
def firstShift (ok : Nat → Bool) (isle : Nat) (reefs : List Nat) : Option (Nat × Nat) :=
  ((List.range 36).filterMap fun k =>
    let dy := k / 6
    let dx := k % 6
    if reefs.all fun r => decide (r % 6 + dx < 6) && decide (r / 6 + dy < 6) && ok (isle * 36 + (r / 6 + dy) * 6 + r % 6 + dx)
    then some (dx, dy) else none).head?

/-- Offsets of the four plan isles under one rotation; none when some isle does not fit. -/
def shiftsFor (ok : Nat → Bool) (rho : Nat) (stages : List StageRec) : Option (List (Nat × Nat)) :=
  (List.range 4).foldr (fun i acc =>
    match acc, firstShift ok (rotIsle rho i) ((stages.filter fun s => s.isle = i).flatMap (·.reefs)) with
    | some l, some s => some (s :: l)
    | _, _ => none) (some [])

/-- The placement offset the scheduler chooses (R437); a temporal job must fit within its group's reefs (R436). -/
def Dev.place (d : Dev) (j : Nat) (img : List Byte) : Option (Nat × List (Nat × Nat)) :=
  let held := d.heldByOthers j
  let grp := match d.groupOf j with | some g => (d.group g).reefs | none => []
  let ok (r : Nat) := !d.health.degraded.contains r && !held.contains r && (grp.isEmpty || grp.contains r)
  let st := stageRecs img
  ((List.range 4).filterMap fun rho => (shiftsFor ok rho st).map fun s => (rho, s)).head?

/-! ### Admission -/

/-- Isles of a job's partition. -/
def Job.isles (b : Job) : List Nat := (List.range 4).filter fun i => b.reefs.any fun r => decide (r / 36 = i)

/-- The clock f of R443: the lower of `JOB_UNIT_CLOCK` and the least operator's cap of the job's isles. -/
def Dev.admClock (d : Dev) (j : Nat) : Nat :=
  (d.job j).isles.foldl (fun f i => min f (d.objN 0x2100 (0x18 + i))) (d.jobN j 6)

/-- C_j in µs (R443). -/
def Dev.unitUs (d : Dev) (j : Nat) : Nat := ceilDiv (d.jobN j 5 * d.jobN j 6) (max 1 (d.admClock j))

/-- X_j in µs as a fraction (R444): numerator and denominator. -/
def Dev.switchUs (d : Dev) (j : Nat) : Nat × Nat :=
  let b := d.job j
  let f := max 1 (d.admClock j)
  (b.nMax * 13152 * 2304000 * f + 2 * b.vMax * 4764000 * f + 2048 * 4764000 * 2304000, 4764000 * 2304000 * f)

/-- Sum of two fractions. -/
def fadd (x y : Nat × Nat) : Nat × Nat := (x.1 * y.2 + y.1 * x.2, x.2 * y.2)

/-- (C_j + X_j) ÷ D. -/
def Dev.density (d : Dev) (j dl : Nat) : Nat × Nat :=
  let (n, q) := d.switchUs j
  (d.unitUs j * q + n, q * dl)

/-- The density test of a group with job j added (R444). -/
def Dev.densityOk (d : Dev) (g j : Nat) : Bool :=
  let ms := d.members g
  let adm := ms.filter fun i => decide (i = j) || decide ((d.job i).admSt = 1)
  let rest := ms.filter fun i => !adm.contains i
  let dmin := adm.foldl (fun m i => min m (d.jobN i 8)) (d.jobN j 8)
  let sum := adm.foldl (fun s i => fadd s (d.density i (d.jobN i 8))) (0, 1)
  let big := rest.foldl (fun (b : Option Nat) i => match b with
    | none => some i
    | some k => if d.unitUs k < d.unitUs i then some i else b) none
  let tot := match big with | some i => fadd sum (d.density i dmin) | none => sum
  !(rest.any fun i => decide (d.jobN i 5 = 0)) && decide (tot.1 * 100 ≤ (100 - d.objN 0x2600 2) * tot.2)

/-- The first failing condition of R443; none when the job may be admitted. -/
def Dev.admFails (d : Dev) (j : Nat) : Option Nat :=
  let b := d.job j
  if d.objN 0x2600 1 ≠ 0 ∨ d.objN (0x3000 + 0x10 * d.slotOf j) 5 ≠ 1 then some 1
  else if ¬ (b.state = 2 ∨ b.state = 4 ∨ b.state = 5) ∨ b.reefs.any d.health.degraded.contains then some 2
  else if d.jobN j 5 = 0 ∨ d.jobN j 7 = 0 ∨ d.jobN j 8 = 0 ∨ d.jobN j 7 < d.jobN j 8 then some 3
  else match d.groupOf j with
    | none => if d.unitUs j ≤ d.jobN j 8 then none else some 4
    | some g => if d.densityOk g j then none else some 5

/-- Conditions 4 and 5 hold of every admitted job (R446). -/
def Dev.admittedOk (d : Dev) : Bool :=
  d.jobs.all fun (j, b) => !decide (b.admSt = 1) || (match d.groupOf j with
    | none => decide (d.unitUs j ≤ d.jobN j 8)
    | some g => d.densityOk g j)

/-- Admitted jobs (`SCHED_ADMITTED`). -/
def Dev.admitted (d : Dev) : List Nat := d.jobs.filterMap fun (j, b) => if b.admSt = 1 then some j else none

/-- An admission is revoked (R445); a withdrawal records nothing. -/
def Dev.revoke (d : Dev) (t : TimeBase) (j : Nat) (record : Bool) : Dev :=
  let b := d.job j
  if b.admSt ≠ 1 then d
  else
    let d1 := d.setJob j { b with admSt := 3, released := none, failSince := none }
    if record then d1.logErr t 0x6005 (job := j) else d1

/-- ADMISSION_DECISION (R443). -/
def admissionDecision (j : JobId) (t : TimeBase) (d : Dev) : Dev :=
  let b := d.job j.val
  if ¬ b.admitReq then d
  else match d.admFails j.val with
    | none =>
      (d.setJob j.val { b with
        admitReq := false, admSt := 1, admitAt := t.ns, units := 0, released := none, failSince := none }).setCtr
          (0x4000 + j.val) 0xE 0
    | some c => (d.setJob j.val { b with admitReq := false, admSt := 2 }).logErr t 0x6003 (job := j.val) (detail := c)

/-- ADMISSION_DECISION -/
def execAdmissionDecision (j : JobId) (s : State) : Host.Outcome State Fault Refusal := act s (admissionDecision j)

/-- The test of R443 fails of j under the caps of the power controller too (R445). -/
def Dev.capFails (d : Dev) (j : Nat) : Bool :=
  let d' := (d.job j).isles.foldl (fun d i =>
    d.setObj 0x2100 (0x18 + i) (le 2 (min (d.objN 0x2100 (0x18 + i)) (d.isle i).pwrCap))) d
  (d'.admFails j).isSome

/-- Since when a power cap keeps each admission test failing (R445). -/
def Dev.trackCaps (d : Dev) (t : TimeBase) : Dev :=
  d.admitted.foldl (fun d j =>
    let b := d.job j
    d.setJob j { b with failSince := if d.capFails j then b.failSince.orElse fun _ => some t.elapsed else none }) d

/-- POWER_EVALUATION -/
def execPowerEvaluation (s : State) : Host.Outcome State Fault Refusal := act s fun t d => (powerEvaluation t d).trackCaps t

/-! ### Work units and dispatch -/

/-- An ingress iteration is ready: its fence is met (R497); fences and indices count modulo 2³². -/
def Job.ingressReady (b : Job) : Bool :=
  match b.ingress with
  | i :: _ => decide ((BitVec.ofNat 32 b.dmaDone - BitVec.ofNat 32 i.fence).toNat < 2 ^ 31)
  | [] => false

/-- A serving job has a batch step to issue (R372): an unfinished request that is in no step. -/
def Job.batchReady (b : Job) : Bool :=
  b.srv.reqs.any fun (_, q) => decide (q.state = .prefill ∨ q.state = .decode) && !q.inFlight && !q.paused

/-- The job has work for a unit. -/
def Job.hasWork (b : Job) : Bool := b.ingressReady || b.batchReady

/-- Cell-clock counts of the four isles, in thousandths (R448). -/
def Dev.ticksTo (d : Dev) (now : Nat) : List Nat := (List.range 4).map fun i => (d.isle i).ticksTo now

/-- Allocated site-cycles of a job's partition from the counts kept for it on (R442, Table 14-3). -/
def Dev.allocSince (d : Dev) (j now : Nat) : Nat :=
  let b := d.job j
  sumNat (b.isles.map fun i =>
    (b.reefs.filter fun r => decide (r / 36 = i)).length * 256 * (((d.isle i).ticksTo now - b.cyclesAt.getD i 0) / 1000))

/-- Runnable members of a slot within a group (R442). -/
def Dev.runnable (d : Dev) (g : Nat) : List Nat :=
  (d.members g).filter fun j => (decide ((d.job j).state = 2) || decide ((d.job j).state = 5)) && (d.job j).hasWork

/-- Effective weight of a member (R442). -/
def Dev.weight (d : Dev) (g j : Nat) : Nat :=
  let s := d.slotOf j
  let peers := (d.runnable g).filter fun i => decide (d.slotOf i = s)
  let w (i : Nat) : Nat := d.inForce i (0x4000 + i) 4
  let tot := sumNat ((if peers.contains j then peers else j :: peers).map w)
  max 1 (d.inForce j (0x3000 + 0x10 * s) 2 * w j / max 1 tot)

/-- Virtual time of a member. -/
def Dev.vtime (d : Dev) (j : Nat) : Nat := d.ctrN (0x4000 + j) 0xD

/-- A member becomes runnable: its virtual time rises to the least of the runnable members (R442). -/
def Dev.wakeMember (d : Dev) (j : Nat) : Dev :=
  match d.groupOf j with
  | none => d
  | some g =>
    match (d.runnable g).filter (fun i => !decide (i = j)) with
    | [] => d
    | i :: r =>
      let v := r.foldl (fun m k => min m (d.vtime k)) (d.vtime i)
      if d.vtime j < v then d.setCtr (0x4000 + j) 0xD v else d

/-- A share member may be dispatched: not suspended for an overrun, or released from it (Table 14-2). -/
def Dev.dispatchable (d : Dev) (g j : Nat) : Bool :=
  match (d.job j).suspended with
  | none => true
  | some u => decide (u < d.jobN j 5) || !((d.members g).any fun i => decide ((d.job i).admSt = 1))

/-- The least element of a list under a key, the earliest on a tie. -/
def minBy (f : Nat → Nat) : List Nat → Option Nat
  | [] => none
  | x :: r => some (r.foldl (fun b i => if f i < f b then i else b) x)

/-- The job a group runs next (R441), at an interval time. -/
def Dev.dispatch (d : Dev) (g : Nat) (now : Nat) : Option Nat :=
  let ms := (d.members g).filter fun j => decide ((d.job j).state = 2) || decide ((d.job j).state = 5)
  let due := ms.filter fun j => decide ((d.job j).admSt = 1) && (d.job j).released.isSome
  let run := (d.group g).running
  match d.objN 0x2600 1, minBy (fun j => (d.job j).released.getD 0) due with
  | 0, some j => some j
  | _, _ =>
    let share (j : Nat) := decide ((d.job j).admSt ≠ 1)
    let keep := run.any fun r => share r && (d.job r).hasWork && d.dispatchable g r &&
      decide (now < (d.job r).inSince + d.objN 0x2600 3 * 1000)
    if keep then run
    else
      match minBy d.vtime (ms.filter fun j => share j && (d.job j).hasWork && d.dispatchable g j) with
      | some j => some j
      | none => run

/-- A dispatch decision of a group (R441): a switch drains the job loaded at this tide point (R309). -/
def Dev.decide_ (d : Dev) (t : TimeBase) (g : Nat) : Dev :=
  match d.dispatch g t.elapsed with
  | none => d
  | some j =>
    let x := d.group g
    if x.running = some j then d.setGroup g { x with next := none } else d.setGroup g { x with next := some j }

/-- A member begins to be switched in: its site-cycles count from here on, and an overrun is behind it (R316, R442). -/
def Dev.switchIn (d : Dev) (t : TimeBase) (g j : Nat) : Dev :=
  (d.setGroup g { d.group g with running := some j, next := none }).setJob j
    { d.job j with trans := 1, cyclesAt := d.ticksTo t.elapsed, suspended := none }

/-- A group starts the job that is to run next when none is loaded (R441, R316). -/
def Dev.groupStart (d : Dev) (t : TimeBase) (g : Nat) : Dev :=
  if (d.group g).running.isSome then d
  else match d.dispatch g t.elapsed with
    | some j => if (d.job j).state = 5 then d.switchIn t g j else d
    | none => d

/-- The group of a job starts the one it is to run, where none is loaded. -/
def Dev.startGroupOf (d : Dev) (t : TimeBase) (j : Nat) : Dev := (d.groupOf j).elim d (d.groupStart t)

/-- A group loses a member: its reefs are free once no member holds a plan (R436). -/
def Dev.leaveGroup (d : Dev) (j g : Nat) : Dev :=
  let x := d.group g
  let off (o : Option Nat) : Option Nat := if o = some j then none else o
  let last := ((d.members g).filter fun i => decide (i ≠ j) && (d.job i).plan.isSome).isEmpty
  d.setGroup g { x with
    reefs := if last then [] else x.reefs, running := off x.running, next := off x.next,
    blocked := match x.blocked with | some (o, _, _) => if o = j then none else x.blocked | none => none }

/-! ### Ends of admissions: a suspended member may run again (Table 14-2) -/

/-- A write of `JOB_ADMIT_REQ` (R443). -/
def Dev.writeAdmitReq (d : Dev) (t : TimeBase) (j val : Nat) : Dev :=
  let b := d.job j
  if val = 1 then d.setJob j { b with admitReq := true }
  else ((d.setJob j { b with admitReq := false }).revoke t j false).startGroupOf t j

/-- ADMISSION_REVOKE_TIMEOUT (R445): a power cap has kept the test failing for 1 s. -/
def admissionRevokeTimeout (j : JobId) (t : TimeBase) (d : Dev) : Dev :=
  match (d.job j.val).failSince with
  | some e => if e + 1000000000 ≤ t.elapsed ∧ d.capFails j.val then (d.revoke t j.val true).startGroupOf t j.val else d
  | none => d

/-- ADMISSION_REVOKE_TIMEOUT -/
def execAdmissionRevokeTimeout (j : JobId) (s : State) : Host.Outcome State Fault Refusal := act s (admissionRevokeTimeout j)

/-- A change of mode from DEADLINE to SHARE revokes every admission (R439). -/
def Dev.modeChange (d : Dev) (t : TimeBase) (val : Nat) : Dev :=
  if val = 1 ∧ d.objN 0x2600 1 = 0 then d.admitted.foldl (fun d j => (d.revoke t j true).startGroupOf t j) d else d

/-- A job stops at its next tide point, or at once when none will come (R438); a group it leaves idle starts another. -/
def Dev.stopSoon (d : Dev) (t : TimeBase) (j code : Nat) : Dev :=
  (d.stopAtTide t j code).startGroupOf t j

/-- The precedence rule (R447): recorded for both jobs, in the journal of each tenant, and counted. `lost` is the job
whose guarantee is broken, for the sake of `won`. -/
def Dev.precedence (d : Dev) (t : TimeBase) (lost won kept broken cause : Nat) : Dev :=
  let d1 := ((d.logErr t 0x6002 (job := lost)).logErr t 0x6002 (job := won)).bump 0x2600 5 1
  let recFor (d : Dev) (a b : Nat) : Dev := d.journal t
    { rtype := 2, flags := 0, slot := d.slotOf a, job := a,
      b4 := le 1 (d.slotOf b) ++ le 1 b ++ le 1 kept ++ le 1 broken ++ List.replicate 8 0,
      b28 := le 4 0 ++ le 8 t.ns ++ List.replicate 24 0,
      b160 := List.replicate 248 0 ++ le 2 cause ++ List.replicate 6 0 }
  let d2 := recFor d1 lost won
  if d2.slotOf lost = d2.slotOf won then d2 else recFor d2 won lost

/-- A released unit is late (R440): counted, and recorded once in an accounting window. -/
def Dev.unitLate (d : Dev) (t : TimeBase) (j : Nat) : Dev :=
  let x := d.bump (0x4000 + j) 0xE 1
  let c := x.job j
  let y := x.setJob j { c with
    window := { c.window with lateUnits := c.window.lateUnits + 1 }, lateLogged := some x.sched.wStart }
  if c.lateLogged = some x.sched.wStart then y else y.logErr t 0x6004 (job := j)

/-- A released unit of an admitted member has ended: what delayed it is behind the group, and where the unit is late for another job's
sake, the precedence rule applies (R447, Table 14-2). -/
def Dev.unblock (d : Dev) (t : TimeBase) (j : Nat) (late : Bool) : Dev :=
  match d.groupOf j with
  | none => d
  | some g =>
    let x := d.group g
    match x.blocked with
    | none => d
    | some (o, kept, cause) =>
      if o = j then d
      else (if late then d.precedence t j o kept 3 cause else d).setGroup g { x with blocked := none }

/-- The virtual time of a group's member rises for the unit that ends (R442). -/
def Dev.chargeUnit (d : Dev) (g j at_ : Nat) : Dev :=
  let c := d.allocSince j at_
  let w := d.weight g j
  (d.bump (0x4000 + j) 0xD (c * 65536 / w)).setJob j { d.job j with cyclesAt := d.ticksTo at_, unitCycles := (c, w) }

/-- The drain that ended the unit adds its site-cycles to the unit (R442, assumption 149). -/
def Dev.chargeDrain (d : Dev) (t : TimeBase) (j : Nat) : Dev :=
  if (d.groupOf j).isNone then d
  else
    let (c, w) := (d.job j).unitCycles
    (d.bump (0x4000 + j) 0xD ((c + d.allocSince j t.elapsed) * 65536 / w - c * 65536 / w)).setJob j
      { d.job j with cyclesAt := d.ticksTo t.elapsed, unitCycles := (0, 1) }

/-- A share member whose unit took longer than `JOB_UNIT_MAX_US` and X_j together, while the group has admitted members, is
suspended (R447, Table 14-2); the precedence is given to the lowest admitted job (assumption 149). -/
def Dev.checkOverrun (d : Dev) (t : TimeBase) (g j took : Nat) : Dev :=
  let b := d.job j
  let (xn, xq) := d.switchUs j
  let u := d.inForce j (0x4000 + j) 5
  let beyond := decide (b.admSt ≠ 1) && decide (0 < u) && decide ((u * xq + xn) * 1000 < took * xq)
  match (d.members g).filter fun i => decide ((d.job i).admSt = 1), beyond with
  | a :: _, true => ((d.setJob j { b with suspended := some u }).logErr t 0x6006 (job := j)).precedence t j a 3 4 0x6006
  | _, _ => d

/-- A work unit of a job ends at a job tide point (R440, R442, R447): `stamp` is the tide point's, in time base and interval
counter. -/
def Dev.unitEnd (d : Dev) (t : TimeBase) (j : Nat) (stamp : Nat × Nat) : Dev :=
  let b := d.job j
  let late := b.released.any fun e => decide (e ≤ stamp.1)
  let d1 := if late then d.unitLate t j else d
  let d2 := if b.released.isSome then d1.unblock t j late else d1
  let d3 := d2.setJob j { d2.job j with released := none, units := b.units + b2n b.released.isSome, unitStart := stamp.2 }
  (d3.groupOf j).elim d3 fun g => (d3.chargeUnit g j stamp.2).checkOverrun t g j (stamp.2 - b.unitStart)

/-! ### Accounting -/

/-- SAMPLE_SET_CLOSE (R449): the set covers the millisecond that has just ended. -/
def sampleSetClose (die : Fin 26) (energy overhead : Nat) (rows : List SampleRow) (t : TimeBase) (d : Dev) : Dev :=
  let s : SampleSet := { stamp := (t.ns / 1000000 - 1) * 1000000, die := die.val, energy := energy, overhead := overhead, rows := rows }
  { d with sched := { d.sched with transit := d.sched.transit ++ [s] } }

/-- SAMPLE_SET_CLOSE -/
def execSampleSetClose (die : Fin 26) (energy overhead : Nat) (rows : List SampleRow) (s : State) :
    Host.Outcome State Fault Refusal := act s (sampleSetClose die energy overhead rows)

/-- Weight of a row for its die (R449), and of overhead. -/
def rowWeight (die idle : Nat) (r : SampleRow) : Nat :=
  if die < 4 then r.busy * 1024 + idle * (r.alloc - r.busy) else if die < 20 then r.hbm else r.strait + r.host

/-- A sample set is counted in the present window (R448, R449). -/
def Dev.countSet (d : Dev) (s : SampleSet) (late : Bool) : Dev :=
  let idle := d.objN 0x2800 2
  let wo := if s.die < 4 then idle * s.overhead else s.overhead
  let tot := sumNat (s.rows.map (rowWeight s.die idle)) + wo
  let share (r : SampleRow) : Nat := if tot = 0 then 0 else s.energy * rowWeight s.die idle r / tot
  let d1 := s.rows.foldl (fun d r =>
    let b := d.job r.job.val
    let a := b.window
    d.setJob r.job.val { b with window := { a with
      alloc := a.alloc + r.alloc, busy := a.busy + r.busy, hbm := a.hbm + r.hbm, strait := a.strait + r.strait,
      host := a.host + r.host, energy := a.energy + share r, late := a.late || late } }) d
  let o := d1.sched.overhead
  { d1 with sched := { d1.sched with overhead := { o with
    alloc := o.alloc + (if s.die < 4 then s.overhead else 0), hbm := o.hbm + (if 4 ≤ s.die ∧ s.die < 20 then s.overhead else 0),
    strait := o.strait + (if 20 ≤ s.die ∧ s.die < 24 then s.overhead else 0),
    host := o.host + (if 24 ≤ s.die then s.overhead else 0),
    energy := o.energy + (s.energy - sumNat (s.rows.map share)), late := o.late || late } } }

/-- SAMPLE_SET_ARRIVAL (R450, R472): counted in its window; in the next unsealed one when its own is sealed. -/
def sampleSetArrival (k : Nat) (t : TimeBase) (d : Dev) : Dev :=
  match d.sched.transit[k]? with
  | none => d
  | some s =>
    let d1 : Dev := { d with sched := { d.sched with transit := d.sched.transit.eraseIdx k } }
    if s.stamp < d.sched.wStart then
      let d2 := (d1.countSet s true).bump 0x2800 5 1
      if d2.sched.lateLogged then d2
      else ({ d2 with sched := { d2.sched with lateLogged := true } } : Dev).logErr t 0x0180
    else if d.sched.wEnd ≤ s.stamp then { d1 with sched := { d1.sched with ahead := d1.sched.ahead ++ [s] } }
    else d1.countSet s false

/-- SAMPLE_SET_ARRIVAL -/
def execSampleSetArrival (k : Nat) (s : State) : Host.Outcome State Fault Refusal := act s (sampleSetArrival k)

/-- An accounting record (Table 14-4). -/
def acctRecord (a : Account) (job slot wstart : Nat) (short overhead : Bool) : List Byte :=
  le 1 5 ++ le 1 (b2n a.late + 2 * b2n a.clock + 4 * b2n a.partialW + 8 * b2n short + 16 * b2n overhead) ++ le 1 job ++ le 1 slot ++
    le 8 wstart ++ le 4 a.lateUnits ++ le 8 a.alloc ++ le 8 a.busy ++ le 8 a.hbm ++ le 8 a.strait ++ le 8 a.host ++ le 8 a.energy

/-- A record goes to the enabled accounting ring (R494). -/
def Dev.emitAcct (d : Dev) (t : TimeBase) (rec : List Byte) : Dev :=
  match (List.range 32).find? fun r => (d.rng r).enabled && decide (d.objN (0x2710 + r) 1 = 3) with
  | some r => d.pushRec t r rec
  | none => d.bump 0x2700 4 1

/-- Totals of a window go to the slot's objects, and to the job's unless the job has been released (R452). -/
def Dev.addTotals (d : Dev) (j n : Nat) (a : Account) (gone : Bool) : Dev :=
  let o := 0x4000 + j
  let d1 := if gone then d
    else (((((d.bump o 0x20 a.alloc).bump o 0x21 a.busy).bump o 0x22 a.hbm).bump o 0x23 a.strait).bump o 0x24 a.host).bump o 0x25
      a.energy
  if n < 64 then (d1.bump (0x3000 + 0x10 * n) 8 a.alloc).bump (0x3000 + 0x10 * n) 9 a.energy else d1

/-- A clock change on an isle of the job shows in its account (Table 14-4). -/
def Dev.markClock (d : Dev) (j : Nat) : Account :=
  let b := d.job j
  { b.window with clock := b.window.clock || b.isles.any fun i => (d.isle i).changed }

/-- The accounts of the window that were charged anything, in ascending job order: job, slot, account, and whether the job has been
released (R452). -/
def Dev.accounts (d : Dev) : List (Nat × Nat × Account × Bool) :=
  ((List.range 256).flatMap fun j =>
    ((d.sched.ended.filter fun e => decide (e.1 = j)).map fun e => (e.1, e.2.1, e.2.2, true)) ++
      [(j, d.slotOf j, d.markClock j, false)]).filter fun e => e.2.2.1.charged

/-- The records of the window, one for each account and the overhead's, go to the ring and the totals to the objects (R452). -/
def Dev.writeAccounts (d : Dev) (t : TimeBase) (o : Account) : Dev :=
  let w := d.sched
  let d1 := d.accounts.foldl (fun d (j, n, a, gone) => (d.emitAcct t (acctRecord a j n w.wStart w.short false)).addTotals j n a gone) d
  (d1.emitAcct t (acctRecord o 0xFF 0xFF w.wStart w.short true)).bump 0x2800 4 o.energy

/-- WINDOW_SEAL (R451, R452, R468, R472): 2,000 ns after the time base reached or passed the window's end. The energy of
the trust dies is charged to overhead (R449). -/
def windowSeal (t : TimeBase) (d : Dev) : Dev :=
  match d.sched.passed with
  | none => d
  | some e =>
    if t.elapsed < e + 2000 then d
    else
      let w := d.sched
      let trust := d.ctrN 0x2100 0x1E * ((w.wEnd - w.wStart) / 1000000) * 1000
      let d1 := d.writeAccounts t { w.overhead with energy := w.overhead.energy + trust }
      let d2 := d1.jobs.foldl (fun d e => d.setJob e.1 { d.job e.1 with window := {} }) d1
      let d3 := d2.mapIsles fun x => { x with changed := false }
      let len := d3.objN 0x2800 1 * 1000000
      let old := max 1 ((w.wEnd - w.wStart) / 1000000)
      let s0 := w.wEnd
      let e0 := (s0 / len + 1) * len
      let (ws, we, sh) := if e0 ≤ t.ns then (t.ns / len * len, (t.ns / len + 1) * len, false) else (s0, e0, decide (s0 % len ≠ 0))
      let d4 := d3.setCtr 0x2800 3 (if w.short then w.wStart / len else w.wStart / (old * 1000000))
      let d5 : Dev := { d4 with sched := { w with
        wStart := ws, wEnd := we, short := sh, passed := none, lateLogged := false, overhead := {}, ahead := [], ended := [] } }
      (w.ahead.foldl (fun d s => d.countSet s false) d5).passWindow t

/-- WINDOW_SEAL -/
def execWindowSeal (s : State) : Host.Outcome State Fault Refusal := act s windowSeal

end Sys2Proof.Machine
end

