-- ==== Sys2Proof/Machine/Formats.lean ====
section
/-! DEFINITION. Number formats, conversions, rounding and the arithmetic of cube and vector pipeline (chapter 2): every
value is taken to its exact meaning, computed exactly, and rounded once. -/
namespace Sys2Proof.Machine

/-! ### Values and formats -/

/-- A floating-point datum: a NaN or infinity with its sign, or the exact value (−1)^s × m × 2^e (R39). -/
inductive Fp where
  | nan (s : Bool)
  | inf (s : Bool)
  | fin (s : Bool) (m : Nat) (e : Int)
  deriving DecidableEq, Repr

/-- A floating-point element format (Table 2-2). -/
structure FpFmt where
  /-- mantissa bits -/
  mb : Nat
  bias : Int
  /-- position of the sign bit -/
  sbit : Nat
  /-- code of the largest finite magnitude -/
  top : Nat
  /-- code of +∞, where the format has one -/
  inf : Option Nat
  /-- canonical NaN with S = 0 (Table 2-3), where the format has one -/
  nan : Option Nat
  deriving DecidableEq, Repr

def fFP32 : FpFmt := ⟨23, 127, 31, 0x7F7FFFFF, some 0x7F800000, some 0x7FC00000⟩
def fBF16 : FpFmt := ⟨7, 127, 15, 0x7F7F, some 0x7F80, some 0x7FC0⟩
def fFP16 : FpFmt := ⟨10, 15, 15, 0x7BFF, some 0x7C00, some 0x7E00⟩
def fE4M3 : FpFmt := ⟨3, 7, 7, 0x7E, none, some 0x7F⟩
def fE5M2 : FpFmt := ⟨2, 15, 7, 0x7B, some 0x7C, some 0x7E⟩
def fE2M3 : FpFmt := ⟨3, 1, 5, 0x1F, none, none⟩
def fE3M2 : FpFmt := ⟨2, 3, 5, 0x1F, none, none⟩
def fE2M1 : FpFmt := ⟨1, 1, 3, 7, none, none⟩

/-- The element format of a floating-point code of Table 2-1. -/
def fpFmtOf : Nat → Option FpFmt
  | 0 => some fFP32 | 1 => some fBF16 | 2 => some fFP16 | 3 => some fE4M3 | 4 => some fE5M2 | 5 => some fE4M3
  | 6 => some fE5M2 | 7 => some fE2M3 | 8 => some fE3M2 | 9 => some fE2M1 | 0xE => some fE2M1 | _ => none

/-- Element width of a format code, in bits (Table 2-1). -/
def fmtWidth : Nat → Nat
  | 0 | 0xC => 32 | 1 | 2 => 16 | 7 | 8 => 6 | 9 | 0xE => 4 | 0x10 => 256 | _ => 8

/-- Block formats (Table 2-1). -/
def isBlock (c : Nat) : Bool := (decide (5 ≤ c) && decide (c ≤ 0xA)) || decide (c = 0xD)

/-- Codes that Table 2-1 lists (R38). -/
def fmtKnown (c : Nat) : Bool := decide (c ≤ 0xE) || decide (c = 0x10)

/-- Bytes of a 32-element block (R156). -/
def blkBytes (c : Nat) : Nat := 4 * fmtWidth c

/-- The value of a code (R39, R40). -/
def FpFmt.dec (f : FpFmt) (x : Nat) : Fp :=
  let s := bit x f.sbit
  let mag := x % 2 ^ f.sbit
  if mag ≤ f.top then
    let e := mag / 2 ^ f.mb
    let m := mag % 2 ^ f.mb
    if e = 0 then .fin s m (1 - f.bias - f.mb) else .fin s (2 ^ f.mb + m) (e - f.bias - f.mb)
  else if f.inf = some mag then .inf s else .nan s

/-- A code with its sign. -/
def FpFmt.withSign (f : FpFmt) (s : Bool) (mag : Nat) : Nat := mag + b2n s * 2 ^ f.sbit

/-! ### Rounding -/

/-- Rounding modes (Table 2-4): 0 RNE, 1 RTZ, 2 SR with the draw `u`; 3 is executed as RNE (R74). -/
structure Rnd where
  mode : Nat := 0
  u : Nat := 0
  deriving DecidableEq, Repr

/-- The integer to which m × 2^e is rounded: lo or lo + 1 (R52, R71). `up` decides from lo's parity and the remainder. -/
def roundInt (r : Rnd) (m : Nat) (e : Int) : Nat :=
  if 0 ≤ e then m * 2 ^ e.toNat
  else
    let d := 2 ^ (-e).toNat
    let lo := m / d
    let rem := m % d
    let up : Bool := match r.mode with
      | 1 => false
      | 2 => decide (r.u < rem * 65536 / d)
      | _ => decide (d < 2 * rem) || (decide (d = 2 * rem) && decide (lo % 2 = 1))
    lo + b2n up

/-- ⌊log₂⌋ of the nonzero m × 2^e. -/
def floorLog2 (m : Nat) (e : Int) : Int := m.log2 + e

/-- The magnitude code of m × 2^e rounded in a format whose exponent range is unbounded above (R52). -/
def FpFmt.roundMag (f : FpFmt) (r : Rnd) (m : Nat) (e : Int) : Nat :=
  if m = 0 then 0
  else
    let q := max (floorLog2 m e - f.mb) (1 - f.bias - f.mb)
    ((q + f.mb + f.bias).toNat * 2 ^ f.mb + roundInt r m (e - q)) - 2 ^ f.mb

/-- Sticky conversion flags that one result sets (R59). -/
structure Cv where
  sat : Bool := false
  nan : Bool := false
  inf : Bool := false
  deriving DecidableEq, Repr

def Cv.or (a b : Cv) : Cv := ⟨a.sat || b.sat, a.nan || b.nan, a.inf || b.inf⟩

/-- A narrowing conversion to a floating-point format (R52 to R57, Table 2-5): code and flags. -/
def FpFmt.narrow (f : FpFmt) (r : Rnd) (ovf : Bool) (x : Fp) : Nat × Cv :=
  let r3 : Cv := { nan := decide (r.mode = 3) }
  let sat (s : Bool) : Nat × Cv := (f.withSign s f.top, { r3 with sat := true })
  match x with
  | .nan s =>
    match f.nan with
    | some c => (f.withSign s c, { nan := true })
    | none => (0, { nan := true })
  | .inf s =>
    match f.inf, f.nan, ovf with
    | some c, _, _ => (f.withSign s c, { r3 with inf := true })
    | none, some c, false => (f.withSign s c, { r3 with nan := true })
    | _, _, _ => sat s
  | .fin s m e =>
    let c := f.roundMag r m e
    if c ≤ f.top then (f.withSign s c, r3)
    else if r.mode = 1 then sat s
    else match f.inf, f.nan, ovf with
      | some c, _, false => (f.withSign s c, { r3 with inf := true })
      | none, some c, false => (f.withSign s c, { r3 with nan := true })
      | _, _, _ => sat s

/-- Conversion to an integer saturated to [lo, hi]; a NaN becomes 0 (Table 2-5). -/
def narrowInt (lo hi : Int) (r : Rnd) (x : Fp) : Int × Cv :=
  let r3 : Cv := { nan := decide (r.mode = 3) }
  match x with
  | .nan _ => (0, { nan := true })
  | .inf s => (if s then lo else hi, { r3 with sat := true })
  | .fin s m e =>
    let k := roundInt r m e
    let v : Int := if s then -(k : Int) else k
    if v < lo then (lo, { r3 with sat := true }) else if hi < v then (hi, { r3 with sat := true }) else (v, r3)

/-- The FP32 code of a value under RNE: overflow to infinity, canonical NaN with S = 0 (R62, R64). -/
def fp32 (x : Fp) : Nat :=
  match x with
  | .nan _ => 0x7FC00000
  | x => (fFP32.narrow {} false x).1

/-- The value of an FP32 lane. -/
def ofFp32 (w : W32) : Fp := fFP32.dec w.toNat

/-- A value as an FP32 lane, a NaN keeping its sign (R42: a conversion). -/
def toFp32 (x : Fp) : W32 := BitVec.ofNat 32 (fFP32.narrow {} false x).1

/-- INT32 to FP32 (R56). -/
def intToFp32 (r : Rnd) (i : Int) : W32 := BitVec.ofNat 32 (fFP32.narrow r false (.fin (decide (i < 0)) i.natAbs 0)).1

/-! ### Exact arithmetic -/

/-- ±m × 2^e as a signed integer over a common exponent. -/
def signed (s : Bool) (m : Nat) : Int := if s then -(m : Int) else m

/-- A signed integer times 2^e; an exact zero is +0. -/
def fpOfInt (i : Int) (e : Int) : Fp := .fin (decide (i < 0)) i.natAbs e

/-- Exact sum of finite values over their least exponent. -/
def addExact (m1 : Int) (e1 : Int) (m2 : Int) (e2 : Int) : Int × Int :=
  let e := min e1 e2
  (m1 * 2 ^ (e1 - e).toNat + m2 * 2 ^ (e2 - e).toNat, e)

/-- Sum (R64; IEEE signs of zero: an exact zero is +0 unless both terms are −0). -/
def fpAdd (a b : Fp) : Fp :=
  match a, b with
  | .nan _, _ | _, .nan _ => .nan false
  | .inf s, .inf t => if s = t then .inf s else .nan false
  | .inf s, _ => .inf s
  | _, .inf s => .inf s
  | .fin s m e, .fin t n g =>
    let (v, x) := addExact (signed s m) e (signed t n) g
    if v = 0 then .fin (s && t && decide (m = 0) && decide (n = 0)) 0 x else fpOfInt v x

/-- Sign inversion. -/
def fpNeg : Fp → Fp
  | .nan s => .nan !s
  | .inf s => .inf !s
  | .fin s m e => .fin (!s) m e

/-- Product (R64). -/
def fpMul (a b : Fp) : Fp :=
  match a, b with
  | .nan _, _ | _, .nan _ => .nan false
  | .inf s, .inf t => .inf (s != t)
  | .inf s, .fin t n _ => if n = 0 then .nan false else .inf (s != t)
  | .fin s m _, .inf t => if m = 0 then .nan false else .inf (s != t)
  | .fin s m e, .fin t n g => .fin (s != t) (m * n) (e + g)

/-- a < b of values; false with a NaN. -/
def fpLt (a b : Fp) : Bool :=
  match a, b with
  | .nan _, _ | _, .nan _ => false
  | .inf s, .inf t => s && !t
  | .inf s, _ => s
  | _, .inf t => !t
  | .fin s m e, .fin t n g => decide ((addExact (signed s m) e (-(signed t n)) g).1 < 0)

/-- a = b of values (±0 are equal); false with a NaN. -/
def fpEq (a b : Fp) : Bool :=
  match a, b with
  | .nan _, _ | _, .nan _ => false
  | .inf s, .inf t => decide (s = t)
  | .inf _, _ | _, .inf _ => false
  | .fin s m e, .fin t n g => decide ((addExact (signed s m) e (-(signed t n)) g).1 = 0)

/-- A NaN lane. -/
def isNan (w : W32) : Bool := decide (0x7F800000 < w.toNat % 2 ^ 31)

/-- Min and max of lanes (section 2.8): the other operand of one NaN, the canonical NaN of two; −0 below +0. -/
def laneMin (a b : W32) : W32 :=
  if isNan a then (if isNan b then 0x7FC00000#32 else b)
  else if isNan b then a
  else if fpLt (ofFp32 a) (ofFp32 b) then a
  else if fpLt (ofFp32 b) (ofFp32 a) then b
  else if a.msb then a else b
def laneMax (a b : W32) : W32 :=
  if isNan a then (if isNan b then 0x7FC00000#32 else b)
  else if isNan b then a
  else if fpLt (ofFp32 a) (ofFp32 b) then b
  else if fpLt (ofFp32 b) (ofFp32 a) then a
  else if a.msb then b else a

/-- A lane operation on values, rounded once (R64). -/
def lane2 (f : Fp → Fp → Fp) (a b : W32) : W32 := BitVec.ofNat 32 (fp32 (f (ofFp32 a) (ofFp32 b)))

def laneAdd : W32 → W32 → W32 := lane2 fpAdd
def laneSub : W32 → W32 → W32 := lane2 fun a b => fpAdd a (match b with | .nan s => .nan s | b => fpNeg b)
def laneMul : W32 → W32 → W32 := lane2 fpMul
def laneFma (a b c : W32) : W32 := BitVec.ofNat 32 (fp32 (fpAdd (fpMul (ofFp32 a) (ofFp32 b)) (ofFp32 c)))

/-! ### Transcendentals (R64, R65): fixed point with 320 fraction bits, then one rounding -/

/-- Fraction bits of the fixed point. -/
def tF : Nat := 320
/-- 1 in fixed point. -/
def tOne : Nat := 2 ^ tF

/-- num / den × 2^e, nonnegative, as a value that rounds as the exact quotient does. -/
def fpRatio (s : Bool) (num den : Nat) (e : Int) : Fp :=
  let q := num * 2 ^ (tF + 64) / den
  .fin s (2 * q + b2n (decide (num * 2 ^ (tF + 64) % den ≠ 0))) (e - ((tF + 65 : Nat) : Int))

/-- 2 Σ z^(2i+1)/(2i+1), which is ln((1+z)/(1−z)), for z in fixed point, |z| < 1. -/
def lnSeries (z : Int) : Int :=
  let z2 := z * z / tOne
  2 * ((List.range 110).foldl (fun (a : Int × Int) (i : Nat) => (a.1 + a.2 / (2 * (i : Int) + 1), a.2 * z2 / tOne)) (0, z)).1

/-- ln 2 in fixed point. -/
def tLn2 : Int := lnSeries ((tOne / 3 : Nat) : Int)

/-- e^r for 0 ≤ r < ln 2 in fixed point. -/
def expSeries (r : Nat) : Nat :=
  ((List.range 90).foldl (fun (a : Nat × Nat) i => (a.1 + a.2, a.2 * r / tOne / (i + 1))) (0, tOne)).1

/-- e^x for x in fixed point, |x| below 2^9: (T, k) with e^x = T × 2^(k − 320), T in [1, 2) fixed point. -/
def expFix (x : Int) : Nat × Int :=
  let k := x / tLn2
  (expSeries (x - k * tLn2).toNat, k)

/-- m × 2^e in fixed point. -/
def fixOf (s : Bool) (m : Nat) (e : Int) : Int :=
  let x := e + tF
  signed s (if 0 ≤ x then m * 2 ^ x.toNat else m / 2 ^ (-x).toNat)

/-- |m × 2^e| ≥ 2^k. -/
def atLeast (m : Nat) (e : Int) (k : Int) : Bool := decide (m ≠ 0) && decide (k ≤ floorLog2 m e)

/-- exp (Table 2-7). -/
def fpExp : Fp → Fp
  | .nan _ => .nan false
  | .inf s => if s then .fin false 0 0 else .inf false
  | .fin s m e =>
    if m = 0 then .fin false 1 0
    else if atLeast m e 8 then (if s then .fin false 1 (-400) else .inf false)
    else
      let (t, k) := expFix (fixOf s m e)
      .fin false t (k - tF)

/-- log (Table 2-7). -/
def fpLog : Fp → Fp
  | .nan _ => .nan false
  | .inf s => if s then .nan false else .inf false
  | .fin s m e =>
    if m = 0 then .inf true
    else if s then .nan false
    else
      let k := floorLog2 m e
      -- y = m × 2^e / 2^k in [1, 2)
      let y := m * 2 ^ tF / 2 ^ m.log2
      let (y, k) := if 3 * tOne < 2 * y then (y / 2, k + 1) else (y, k)
      let v := lnSeries (((y : Int) - tOne) * tOne / ((y : Int) + tOne)) + k * tLn2
      fpOfInt v (-((tF : Nat) : Int))

/-- reciprocal (Table 2-7). -/
def fpRcp : Fp → Fp
  | .nan _ => .nan false
  | .inf s => .fin s 0 0
  | .fin s m e => if m = 0 then .inf s else fpRatio s 1 m (-e)

/-- ⌊√n⌋, bit by bit from bit b. -/
def isqrt (n : Nat) (b : Nat) : Nat :=
  (List.range (b + 1)).foldl (fun r i =>
    let c := r + 2 ^ (b - i)
    if c * c ≤ n then c else r) 0

/-- reciprocal square root (Table 2-7). -/
def fpRsqrt : Fp → Fp
  | .nan _ => .nan false
  | .inf s => if s then .nan false else .fin false 0 0
  | .fin s m e =>
    if m = 0 then .inf s
    else if s then .nan false
    else
      -- 1/√(m × 2^e), e even: √(2^(2·200) / m) × 2^(−200 − e/2)
      let (m, e) := if e % 2 = 0 then (m, e) else (2 * m, e - 1)
      let n := 2 ^ 400 / m
      let r := isqrt n 201
      .fin false (2 * r + b2n (decide (r * r * m ≠ 2 ^ 400))) (-201 - e / 2)

/-- sigmoid (Table 2-7). -/
def fpSigmoid : Fp → Fp
  | .nan _ => .nan false
  | .inf s => if s then .fin false 0 0 else .fin false 1 0
  | .fin s m e =>
    if m = 0 then .fin false 1 (-1)
    else if atLeast m e 8 then (if s then .fin false 1 (-400) else .fin false 1 0)
    else
      -- t = e^(−|x|) = T × 2^(k − 320), k ≤ 0
      let (t, k) := expFix (-(fixOf false m e))
      let one := 2 ^ ((tF : Int) - k).toNat
      fpRatio false (if s then t else one) (one + t) 0

/-- tanh (Table 2-7). -/
def fpTanh : Fp → Fp
  | .nan _ => .nan false
  | .inf s => .fin s 1 0
  | .fin s m e =>
    if m = 0 then .fin s 0 0
    else if atLeast m e 7 then .fin s 1 0
    else
      let (t, k) := expFix (-(2 * fixOf false m e))
      let one := 2 ^ ((tF : Int) - k).toNat
      fpRatio s (one - t) (one + t) 0

/-- A transcendental of a lane (Table 5-13 `vtr`). -/
def laneTr (fn : Nat) (a : W32) : W32 :=
  let x := ofFp32 a
  let v := match fn with
    | 0 => fpExp x | 1 => fpLog x | 2 => fpRcp x | 3 => fpRsqrt x | 4 => fpSigmoid x | _ => fpTanh x
  BitVec.ofNat 32 (fp32 v)

/-! ### Element packing and decoding (R44, R46) -/

/-- Element i of packed data of w-bit elements. -/
def elemAt (w : Nat) (x : Nat) (i : Nat) : Nat := bits x (w * i + w - 1) (w * i)

/-- Packed elements, element 0 at the least significant bits. -/
def packElems (w : Nat) (l : List Nat) : Nat :=
  (l.zipIdx.foldl (fun a (p : Nat × Nat) => a + p.1 % 2 ^ w * 2 ^ (w * p.2)) 0)

/-- Value of an element of a non-block or block format without its scale (Table 2-2, R49, R51). -/
def elemVal (c : Nat) (x : Nat) : Fp :=
  match fpFmtOf c with
  | some f => f.dec x
  | none =>
    if c = 0xA then fpOfInt (ofTwos 8 x) (-6)
    else if c = 0xD then .fin false x (-8)
    else fpOfInt (ofTwos (fmtWidth c) x) 0

/-- A value times 2^k. -/
def fpScale (k : Int) : Fp → Fp
  | .fin s m e => .fin s m (e + k)
  | x => x

/-- Decoding of a block element with its E8M0 scale (R43, R50, R51). -/
def blockVal (c scale x : Nat) : Fp := if scale = 0xFF then .nan false else fpScale (scale - 127) (elemVal c x)

/-- A lane of `vld`: widened or decoded to FP32; INT8 and INT32 to INT32 (R50, R56). A 16-bit or 8-bit special value
becomes the FP32 special value. -/
def widen (c scale x : Nat) : W32 :=
  if c = 0 ∨ c = 0xC then BitVec.ofNat 32 x
  else if c = 0xB then BitVec.ofNat 32 (toTwos 32 (ofTwos 8 x))
  else if isBlock c then
    (if scale = 0xFF then 0x7FC00000#32 else toFp32 (blockVal c scale x))
  else toFp32 (elemVal c x)

/-! ### Block encoders (R48, R49, R51) -/

/-- Greatest exponent of an MX element format. -/
def emaxOf : Nat → Int
  | 5 => 8 | 6 => 15 | 7 => 2 | 8 => 4 | 9 => 2 | _ => 0

/-- The greatest finite magnitude's ⌊log₂⌋ among values; none when every finite one is zero. -/
def maxLog (xs : List Fp) : Option Int :=
  xs.foldl (fun a x => match x with
    | .fin _ m e => if m = 0 then a else match a with
      | none => some (floorLog2 m e)
      | some b => some (max b (floorLog2 m e))
    | _ => a) none

def clampE (e : Int) : Nat := (max 0 (min 254 e)).toNat

/-- One element of an MX block: code and flags (R48). -/
def mxElem (c : Nat) (e : Nat) (r : Rnd) (ovf : Bool) (x : Fp) : Nat × Cv :=
  match fpFmtOf c with
  | some f =>
    match x with
    | .inf s => if c = 6 ∧ ¬ ovf then (f.withSign s 0x7C, { inf := true }) else (f.withSign s f.top, { sat := true })
    | x => f.narrow r true (fpScale (127 - (e : Int)) x)
  | none =>
    let (v, cv) := narrowInt (-128) 127 r (fpScale (133 - (e : Int)) x)
    (toTwos 8 v, cv)

/-- A block of fewer than 32 elements is completed with pad elements, +0 (R45; assumption 122). -/
def padBlock (xs : List Fp) : List Fp := xs ++ List.replicate (32 - xs.length) (Fp.fin false 0 0)

/-- MX encoding of a block: scale, codes, flags (R45, R48, R72). Where every element is infinite there is no finite one to
give amax: it is taken as 0 (DESIGN CHOICE, assumption 121). -/
def mxEncode (c : Nat) (r : Nat → Rnd) (ovf : Bool) (elems : List Fp) : Nat × List Nat × Cv :=
  let xs := padBlock elems
  if xs.any fun x => match x with | .nan _ => true | _ => false then (0xFF, xs.map fun _ => 0, { nan := true })
  else
    let e := match maxLog xs with | none => 0 | some l => clampE (l - emaxOf c + 127)
    let q := xs.zipIdx.map fun (x, i) => mxElem c e (r i) ovf x
    (e, q.map (·.1), q.foldl (fun (a : Cv) p => a.or p.2) { nan := decide ((r 0).mode = 3) })

/-- UMX8 encoding of a block (R45, R51). -/
def umxEncode (r : Nat → Rnd) (elems : List Fp) : Nat × List Nat × Cv :=
  let xs := padBlock elems
  if xs.any fun x => match x with | .nan _ => true | .inf s => !s | _ => false then (0xFF, xs.map fun _ => 0, { nan := true })
  else
    let neg : Fp → Bool := fun x => match x with | .inf s => s | .fin s m _ => s && decide (m ≠ 0) | _ => false
    let ys := xs.map fun x => match x with | .fin false m e => Fp.fin false m e | _ => Fp.fin false 0 0
    let e := match maxLog ys with | none => 0 | some l => clampE (l + 128)
    let q := ys.zipIdx.map fun (y, i) => narrowInt 0 255 (r i) (fpScale (135 - (e : Int)) y)
    (e, q.map (fun p => p.1.toNat), (q.foldl (fun (a : Cv) p => a.or p.2) {}).or { sat := xs.any neg })

/-! ### Stochastic rounding (R66 to R71) -/

/-- Philox-4×32 with 10 rounds (R66). -/
def philox (c0 c1 c2 c3 k0 k1 : Nat) : List Nat :=
  let m := 2 ^ 32
  let step (s : Nat × Nat × Nat × Nat × Nat × Nat) : Nat × Nat × Nat × Nat × Nat × Nat :=
    let (a, b, c, d, x, y) := s
    let p := 0xD2511F53 * a
    let q := 0xCD9E8D57 * c
    (((q / m) ^^^ b) ^^^ x, q % m, ((p / m) ^^^ d) ^^^ y, p % m, (x + 0x9E3779B9) % m, (y + 0xBB67AE85) % m)
  let (a, b, c, d, _, _) := (List.range 10).foldl (fun s _ => step s) (c0, c1, c2, c3, k0, k1)
  [a, b, c, d]

/-- The draw of an element (R67 to R70): plan seed, purpose, tensor id, step, element index. -/
def drawOf (seed purpose tid step n : Nat) : Nat :=
  let n := n % 2 ^ 43
  let g := n / 8
  let j := n % 8
  let out := philox (g % 2 ^ 32) (tid * 256 + bits g 39 32) step (purpose * 2 ^ 28) (seed % 2 ^ 32) (seed / 2 ^ 32)
  bits (out.getD (j / 2) 0) (16 * (j % 2) + 15) (16 * (j % 2))

/-! ### The cube (R60 to R63, R616) -/

/-- Rate classes of Table 2-6. -/
inductive CubeClass where
  | f16 | f8 | b8 | i8 | f4 | b4
  deriving DecidableEq, Repr

/-- The class of an operand pair; none outside Table 2-6 (R60). -/
def cubeClass (a b : Nat) : Option CubeClass :=
  let f8 (c : Nat) := decide (c = 3 ∨ c = 4)
  let b8 (c : Nat) := decide (c = 5 ∨ c = 6 ∨ c = 7 ∨ c = 8 ∨ c = 0xA)
  if (a = 1 ∧ b = 1) ∨ (a = 2 ∧ b = 2) then some .f16
  else if f8 a && f8 b then some .f8
  else if b8 a && b8 b then some .b8
  else if a = 0xB ∧ b = 0xB then some .i8
  else if a = 0xE ∧ b = 0xE then some .f4
  else if a = 9 ∧ b = 9 then some .b4
  else none

/-- Products per output and clock. -/
def CubeClass.k : CubeClass → Nat
  | .f16 => 4 | .f8 | .b8 | .i8 => 8 | .f4 | .b4 => 16

/-- The class takes block scales. -/
def CubeClass.block : CubeClass → Bool
  | .b8 | .b4 => true
  | _ => false

/-- Element i of part q of an operand beat (R616). -/
def partElem (c k q i : Nat) (beat : Nat) : Nat := elemAt (fmtWidth c) (bits beat (k * fmtWidth c * (q + 1) - 1) (k * fmtWidth c * q)) i

/-- Sum of exact terms under the special-value rules of R62, the accumulator among them: the first is the accumulator. -/
def cubeSum (c : Fp) (ps : List Fp) : Fp :=
  let all := c :: ps
  if all.any fun x => match x with | .nan _ => true | _ => false then .nan false
  else
    let infs := all.filterMap fun x => match x with | .inf s => some s | _ => none
    match infs with
    | s :: r => if r.all (· = s) then .inf s else .nan false
    | [] =>
      let fins := all.filterMap fun x => match x with | .fin s m e => some (s, m, e) | _ => none
      let e := fins.foldl (fun a x => min a x.2.2) (fins.headD (false, 0, 0)).2.2
      let v := fins.foldl (fun (a : Int) x => a + signed x.1 (x.2.1 * 2 ^ (x.2.2 - e).toNat)) 0
      if v = 0 then .fin (fins.all fun x => x.1 && decide (x.2.1 = 0)) 0 0 else fpOfInt v e

/-- One output position of a cube clock (R61 to R63): new value, saturated. -/
def cubeOut (cl : CubeClass) (fa fb ea eb r col : Nat) (old : W32) (a b : Nat) : W32 × Bool :=
  let k := cl.k
  if cl = .i8 then
    let s := (List.range k).foldl (fun (x : Int) i => x + ofTwos 8 (partElem fa k r i a) * ofTwos 8 (partElem fb k col i b)) old.toInt
    if s < -2147483648 then (BitVec.ofInt 32 (-2147483648), true)
    else if 2147483647 < s then (BitVec.ofInt 32 2147483647, true)
    else (BitVec.ofInt 32 s, false)
  else
    let va (i : Nat) := if cl.block then blockVal fa ea (partElem fa k r i a) else elemVal fa (partElem fa k r i a)
    let vb (i : Nat) := if cl.block then blockVal fb eb (partElem fb k col i b) else elemVal fb (partElem fb k col i b)
    let ps := (List.range k).map fun i => fpMul (va i) (vb i)
    (BitVec.ofNat 32 (fp32 (cubeSum (ofFp32 old) ps)), false)

end Sys2Proof.Machine
end

