-- ==== Sys2Proof/Machine/AA.lean ====
section
/-! DEFINITION. The anchored accumulator (chapter 3): its word, deposit, raise, combine and conversion. -/
namespace Sys2Proof.Machine

/-- An AA word (Table 3-1). -/
structure AA where
  bin0 : W64 := 0
  bin1 : W64 := 0
  bin2 : W64 := 0
  /-- signed; −32,768 marks a word with no anchor -/
  anchor : Int := -32768
  count : Nat := 0
  nan : Bool := false
  pinf : Bool := false
  ninf : Bool := false
  ovf : Bool := false
  deriving DecidableEq, Repr

/-- The AA zero (Table 3-1, Reset). -/
def AA.zero : AA := {}

/-- Greatest `COUNT`. -/
def countMax : Nat := 0xFFFFFFFF

/-- The word as 256 bits (R75). -/
def AA.pack (w : AA) : W256 :=
  BitVec.ofNat 256 (w.bin2.toNat + w.bin1.toNat * 2 ^ 64 + w.bin0.toNat * 2 ^ 128 + toTwos 16 w.anchor * 2 ^ 192 +
    w.count * 2 ^ 208 + b2n w.nan * 2 ^ 240 + b2n w.pinf * 2 ^ 241 + b2n w.ninf * 2 ^ 242 + b2n w.ovf * 2 ^ 243)

/-- The fields of 256 bits, reserved bits aside. -/
def AA.unpack (x : W256) : AA :=
  { bin2 := x.extractLsb' 0 64, bin1 := x.extractLsb' 64 64, bin0 := x.extractLsb' 128 64,
    anchor := (x.extractLsb' 192 16).toInt, count := (x.extractLsb' 208 32).toNat, nan := x.getLsbD 240,
    pinf := x.getLsbD 241, ninf := x.getLsbD 242, ovf := x.getLsbD 243 }

/-- Well-formed (R77). -/
def aaOk (x : W256) : Bool :=
  let w := AA.unpack x
  decide (x.extractLsb' 244 12 = 0) &&
  (if w.anchor = -32768 then decide (w.bin0 = 0) && decide (w.bin1 = 0) && decide (w.bin2 = 0)
   else decide (-4 ≤ w.anchor) && decide (w.anchor ≤ 4))

/-- The word used as an operand, and whether it was malformed (R78). -/
def aaOperand (x : W256) : AA × Bool :=
  if aaOk x then (AA.unpack x, false) else ({ nan := true, count := (AA.unpack x).count }, true)

/-- The AA zero as 256 bits. -/
def aaZero : W256 := AA.zero.pack

/-- The bins of a word with no anchor are zero, so any raise keeps them zero (R82). -/
def AA.raise (w : AA) (a : Int) : AA :=
  let d := a - w.anchor
  if 3 ≤ d then { w with bin0 := 0, bin1 := 0, bin2 := 0, anchor := a }
  else if d = 2 then { w with bin0 := 0, bin1 := 0, bin2 := w.bin0, anchor := a }
  else { w with bin0 := 0, bin1 := w.bin0, bin2 := w.bin1, anchor := a }

/-- Anchor index of a nonzero m × 2^e (R79). -/
def anchorOf (m : Nat) (e : Int) : Int := floorLog2 m e / 32 + 1

/-- `COUNT` grows by n, saturating; past 2^31 sets `OVF` (R80, R82). -/
def AA.counted (w : AA) (n : Nat) : AA :=
  let c := min (w.count + n) countMax
  { w with count := c, ovf := w.ovf || decide (2 ^ 31 < c) }

/-- Addition of ±T, sliced, to the three bins (R80). -/
def AA.slice (w : AA) (s : Bool) (t : Nat) : AA :=
  let add (b : W64) (n : Nat) : W64 := if s then b - BitVec.ofNat 64 n else b + BitVec.ofNat 64 n
  { w with bin0 := add w.bin0 (t / 2 ^ 64), bin1 := add w.bin1 (t / 2 ^ 32 % 2 ^ 32), bin2 := add w.bin2 (t % 2 ^ 32) }

/-- ⌊m × 2^e⌋. -/
def floorShift (m : Nat) (e : Int) : Nat := if 0 ≤ e then m * 2 ^ e.toNat else m / 2 ^ (-e).toNat

/-- Deposit of one value (R80). -/
def AA.deposit (w : AA) (x : Fp) : AA :=
  let w := w.counted 1
  match x with
  | .nan _ => { w with nan := true }
  | .inf s => if s then { w with ninf := true } else { w with pinf := true }
  | .fin s m e =>
    if m = 0 then w
    else
      let a := anchorOf m e
      let w := if w.anchor < a then w.raise a else w
      w.slice s (floorShift m (e - (32 * w.anchor - 96)))

/-- Combination of two words (R82). -/
def AA.combine (w v : AA) : AA :=
  let w1 := if w.anchor < v.anchor then w.raise v.anchor else w
  let u := if v.anchor < w1.anchor then v.raise w1.anchor else v
  ({ w1 with
    bin0 := w1.bin0 + u.bin0, bin1 := w1.bin1 + u.bin1, bin2 := w1.bin2 + u.bin2,
    nan := w1.nan || v.nan, pinf := w1.pinf || v.pinf, ninf := w1.ninf || v.ninf, ovf := w1.ovf || v.ovf } : AA).counted v.count

/-- The exact value of a word (R84). -/
def AA.value (w : AA) : Fp :=
  if w.nan ∨ w.ovf ∨ (w.pinf ∧ w.ninf) then .nan false
  else if w.pinf then .inf false
  else if w.ninf then .inf true
  else if w.anchor = -32768 then .fin false 0 0
  else fpOfInt (w.bin0.toInt * 2 ^ 64 + w.bin1.toInt * 2 ^ 32 + w.bin2.toInt) (32 * w.anchor - 96)

/-- Conversion to a format code (R84, R85): result bits and flags. -/
def AA.convert (w : AA) (fmt : Nat) (ovf : Bool) : Nat × Cv :=
  match fpFmtOf fmt with
  | some f => f.narrow {} ovf w.value
  | none =>
    let (v, cv) := narrowInt (-2147483648) 2147483647 {} w.value
    (toTwos 32 v, cv)

/-- What an AA operation reports (R78, R83). -/
structure AARep where
  /-- operands found malformed -/
  malformed : Nat := 0
  /-- `OVF` newly set -/
  overflow : Bool := false
  deriving DecidableEq, Repr

/-- Combination of stored words, with what it reports (R78, R82, R83). -/
def aaCombine (w v : W256) : W256 × AARep :=
  let (a, ma) := aaOperand w
  let (b, mb) := aaOperand v
  let r := a.combine b
  (r.pack, { malformed := b2n ma + b2n mb, overflow := r.ovf && !a.ovf && !b.ovf })

/-- Deposit of values into a stored word, one after another (R80, R83); a malformed word is substituted as for a combine
(R78). -/
def aaDeposit (w : W256) (xs : List Fp) : W256 × AARep :=
  let (a, ma) := aaOperand w
  let r := xs.foldl AA.deposit a
  (r.pack, { malformed := b2n ma, overflow := r.ovf && !a.ovf })

/-- Conversion of a stored word (R78, R84). -/
def aaConvert (w : W256) (fmt : Nat) (ovf : Bool) : Nat × Cv × AARep :=
  let (a, ma) := aaOperand w
  let (v, cv) := a.convert fmt ovf
  (v, cv, { malformed := b2n ma })

end Sys2Proof.Machine
end

