-- ==== Sys2Proof/Machine/Fabric.lean ====
section
/-! DEFINITION. The networks that move flits (chapters 1 and 6): flit fields, buffers and hop credits, path selection,
one hop, combining of reduce-AA flits, and the I/O ring. -/
namespace Sys2Proof.Machine

/-! ### Flits (Tables 5-1 and 5-3) -/

def Flit.h (f : Flit) (hi lo : Nat) : Nat := bits f.hdr.toNat hi lo
def Flit.disle (f : Flit) : Nat := f.h 63 62
def Flit.dx (f : Flit) : Nat := f.h 61 55
def Flit.dy (f : Flit) : Nat := f.h 54 48
def Flit.queue (f : Flit) : Nat := f.h 47 42
def Flit.epoch (f : Flit) : Nat := f.h 41 38
def Flit.tag (f : Flit) : Nat := f.h 37 18
def Flit.kind (f : Flit) : Nat := f.h 17 14
/-- `GROUP` of multicast data (R210). -/
def Flit.group (f : Flit) : Nat := f.h 61 48
/-- `WMASK`, `CTYPE` or `COP`. -/
def Flit.hi4 (f : Flit) : Nat := f.h 13 10
/-- `SEQ` of data, multicast and shape tokens. -/
def Flit.seq (f : Flit) : Nat := f.h 9 0
/-- `CONTRIB` and `SEQ` of reduce-AA. -/
def Flit.contrib (f : Flit) : Nat := f.h 13 4
def Flit.aaSeq (f : Flit) : Nat := f.h 3 0

/-- A header from its fields; `low` is bits [13:0]. -/
def mkHdr (disle dx dy queue epoch tag kind low : Nat) : W64 :=
  BitVec.ofNat 64 (disle % 4 * 2 ^ 62 + dx % 128 * 2 ^ 55 + dy % 128 * 2 ^ 48 + queue % 64 * 2 ^ 42 + epoch % 16 * 2 ^ 38 +
    tag % 2 ^ 20 * 2 ^ 18 + kind % 16 * 2 ^ 14 + low % 2 ^ 14)

/-- A header towards a route entry (Table 5-9). -/
def routeHdr (route : W64) (epoch tag kind low : Nat) : W64 :=
  let e := route.toNat
  mkHdr (bits e 1 0) (if bit e 22 then bits e 15 2 / 128 else bits e 8 2) (if bit e 22 then bits e 15 2 % 128 else bits e 15 9)
    (if bit e 22 then 0 else bits e 21 16) epoch tag kind low

/-- Low header bits of a data token: `WMASK` and `SEQ`. -/
def dataLow (wmask seq : Nat) : Nat := wmask % 16 * 1024 + seq % 1024

/-- 64-bit word i of a payload. -/
def payWord (p : W256) (i : Nat) : Nat := (p.extractLsb' (64 * i) 64).toNat

/-- A payload from 64-bit words. -/
def payOf (l : List Nat) : W256 := BitVec.ofNat 256 (packElems 64 l)

/-- A payload as 32 bytes, and back. -/
def payBytes (p : W256) : List Byte := le 32 p.toNat
def bytesPay (b : List Byte) : W256 := BitVec.ofNat 256 (leNat (b.take 32))

/-! ### Buffers and credits (R178, R179) -/

def nodeCode : Node → Nat
  | .site s => s.val
  | .tap r row => 36864 + r.val * 16 + row.val
  | .reef r => 39168 + r.val
  | .stop i k => 39312 + i.val * 14 + k.val
  | .ring d => 39368 + d.val
  | .bypass r row east => 39376 + (r.val * 16 + row.val) * 2 + b2n east

def portCode : Port → Nat
  | .n => 0 | .e => 1 | .s => 2 | .w => 3 | .loc => 4 | .express => 5 | .tap => 6 | .cw => 7 | .ccw => 8

def clsCode : Cls → Nat
  | .first => 0 | .last => 1 | .credit => 2 | .control => 3

/-- The key of an input buffer. -/
def bufKey (n : Node) (p : Port) (c : Cls) : Nat := (nodeCode n * 9 + portCode p) * 4 + clsCode c

/-- The key of the pool of buffers that an input buffer takes its own from (Table 6-4, R195): both data legs share the buffers of an
express port, and all ports of a stop of the perimeter ring but its unit's own share the 64 buffers of the stop. -/
def poolOf (n : Node) (p : Port) (c : Cls) : Nat :=
  match n, p with
  | .stop _ _, .loc | .reef _, _ => bufKey n p (if c = .last then .first else c)
  | .stop _ _, _ => bufKey n .cw (if c = .last then .first else c)
  | _, _ => bufKey n p c

/-- Buffers of the pool of an input port and class (Table 6-4, R195). A local port holds one flit of each class; a unit's own output
and the dies of the I/O ring hold as many as a stop of the perimeter ring (assumption 20). -/
def bufCap (n : Node) (p : Port) (c : Cls) : Nat :=
  match n, p, c with
  | .site _, .loc, _ => 1
  | .site _, _, .first | .site _, _, .last | .tap _ _, _, .first | .tap _ _, _, .last => 3
  | .site _, _, _ | .tap _ _, _, _ => 1
  | .reef _, _, .first | .reef _, _, .last => 24
  | .reef _, _, _ => 4
  | .bypass _ _ _, _, _ => 1
  | _, _, .first | _, _, .last => 48
  | _, _, _ => 8

/-- The flits of an input buffer, oldest first. -/
def Dev.buf (d : Dev) (k : Nat) : List Transit := mget [] d.fabric.bufs k

/-- Head of an input buffer. -/
def Dev.head (d : Dev) (n : Node) (p : Port) (c : Cls) : Option Transit := (d.buf (bufKey n p c)).head?

/-- The sender's credit counter of a link and class. -/
def Dev.credits (d : Dev) (n : Node) (p : Port) (c : Cls) : Nat := bufCap n p c - mget 0 d.fabric.used (poolOf n p c)

/-- A flit enters an input buffer; its sender spends a credit. -/
def Dev.putFlit (d : Dev) (n : Node) (p : Port) (c : Cls) (x : Transit) : Dev :=
  let k := bufKey n p c
  { d with fabric := { bufs := mput [] d.fabric.bufs k (d.buf k ++ [x]),
                       used := mput 0 d.fabric.used (poolOf n p c) (mget 0 d.fabric.used (poolOf n p c) + 1) } }

/-- The head of an input buffer leaves it, and the credit returns (R179). -/
def Dev.takeFlit (d : Dev) (n : Node) (p : Port) (c : Cls) : Dev :=
  let k := bufKey n p c
  { d with fabric := { bufs := mput [] d.fabric.bufs k (d.buf k).tail,
                       used := mput 0 d.fabric.used (poolOf n p c) (mget 0 d.fabric.used (poolOf n p c) - 1) } }

/-- The head of an input buffer is replaced. -/
def Dev.setHead (d : Dev) (n : Node) (p : Port) (c : Cls) (x : Transit) : Dev :=
  let k := bufKey n p c
  { d with fabric := { d.fabric with bufs := mput [] d.fabric.bufs k (x :: (d.buf k).tail) } }

/-- Every input buffer of a node that data flits use, in the order that numbers a router's inputs. -/
def dataInputs : List (Port × Cls) :=
  [.n, .e, .s, .w, .loc, .express, .tap].flatMap fun p => [(p, .first), (p, .last)]

/-- Buffer class of a kind on the networks where data has one class. -/
def clsOf (kind : Nat) : Cls := if kind = 2 then .credit else if kind = 7 then .control else .first

/-! ### Endpoints (Table 6-1) -/

inductive Target where
  | site (s : Nat)
  | lagoon (r : Nat)
  | unit (isle k : Nat)
  | die (d : Nat)
  | absent
  deriving DecidableEq, Repr

/-- Stop of the perimeter ring of a unit's `DY`. -/
def stopOfDy (dy : Nat) : Nat := [13, 12, 1, 2, 0, 3, 4, 5, 6, 7, 8].getD dy 8

/-- The endpoint of a flit. -/
def Transit.target (x : Transit) : Target :=
  match x.dst with
  | .die d => .die d.val
  | .header =>
    let f := x.flit
    if f.kind = 1 then (if f.group / 256 < 36 then .lagoon (f.disle * 36 + f.group / 256) else .absent)
    else if f.dx < 96 ∧ f.dy < 96 then .site (siteNo f.disle f.dy f.dx)
    else if f.dx = 0x60 ∧ f.dy < 36 then .lagoon (f.disle * 36 + f.dy)
    else if f.dx = 0x61 ∧ f.dy < 11 then .unit f.disle (stopOfDy f.dy)
    else .absent

/-- Isle of an endpoint. -/
def Target.isle : Target → Option Nat
  | .site s => some (siteIsle s)
  | .lagoon r => some (r / 36)
  | .unit i _ => some i
  | _ => none

def siteNode (s : Nat) : Node := .site (Fin.ofNat 36864 s)
def tapNode (r row : Nat) : Node := .tap (Fin.ofNat 144 r) (Fin.ofNat 16 row)
def reefNode (r : Nat) : Node := .reef (Fin.ofNat 144 r)
def stopNode (i k : Nat) : Node := .stop (Fin.ofNat 4 i) (Fin.ofNat 14 k)
def ringNode (k : Nat) : Node := .ring (Fin.ofNat 8 k)

/-! ### Path selection (R176, R195, R16 to R18, R25 to R27) -/

/-- Where a flit goes next: a buffer, or a lane group of a bridge direction, which it enters by an edge index (R199). -/
inductive Hop where
  | link (n : Node) (p : Port) (c : Cls)
  | group (dir g e : Nat)
  deriving DecidableEq, Repr

/-- Position of an isle in the isthmus ring I0, I1, I3, I2. -/
def islePos (i : Nat) : Nat := ringIsles.idxOf i

/-- The first bridge from isle i to isle j leaves by the CW port (Table 1-3). -/
def viaCw (i j : Nat) : Bool :=
  (i, j) ∈ [(0, 1), (0, 3), (1, 3), (2, 0), (3, 0), (3, 2)]

/-- Direction of the bridge at an isle's CW or CCW port, outgoing. -/
def outDir (i : Nat) (cw : Bool) : Nat := if cw then 2 * islePos i else 2 * ((islePos i + 3) % 4) + 1

/-- Isle and port stop where a bridge direction arrives: a clockwise direction at the CCW port (R14). -/
def arrival (dir : Nat) : Nat × Nat :=
  if dir % 2 = 0 then (ringIsles.getD ((dir / 2 + 1) % 4) 0, 11) else (ringIsles.getD (dir / 2) 0, 9)

/-- The lane group that serves an edge index: itself, or the next one up in ascending order (R199, R203). -/
def Dev.liveGroup (d : Dev) (dir g : Nat) : Nat :=
  ((List.range 32).map fun k => (g + k) % 32).find? (fun k => !(d.lgroup dir k).down) |>.getD (g % 32)

/-- Local column whose eastern mesh link holds the row tap (R175, R205, R206). -/
def Dev.tapCol (d : Dev) (reef row : Nat) : Nat := if mget 31 d.health.fail (reef * 16 + row) ≤ 8 then 7 else 8

/-- Places along a row of a reef, from the west: 2p for physical column p, 17 for the row tap between columns 8 and 9 (R205, R206).
The next one, with its reef; an unused spare column is passed on its links; none at the edge of the isle. -/
def Dev.rowNext (d : Dev) (r row at_ : Nat) (east : Bool) : Option (Nat × Nat) :=
  let spare (r : Nat) : Bool := decide (mget 31 d.health.fail (r * 16 + row) ≤ 16)
  if east then
    let q := if at_ = 16 ∨ at_ = 17 then at_ + 1 else at_ + 2
    if 32 < q ∨ (q = 32 ∧ spare r = false) then (if r % 6 = 5 then none else some (r + 1, 0)) else some (r, q)
  else if at_ = 0 then (if r % 6 = 0 then none else some (r - 1, if spare (r - 1) then 32 else 30))
  else some (r, if at_ = 18 ∨ at_ = 17 then at_ - 1 else at_ - 2)

/-- The buffer at a place of a row that a flit moving east or west enters: a site's router, the row tap, or the bypass register of a
failed position (R206). -/
def Dev.rowNode (d : Dev) (r row at_ : Nat) (east : Bool) (c : Cls) : Hop :=
  let f := mget 31 d.health.fail (r * 16 + row)
  let p : Port := if east then .w else .e
  let col := if at_ / 2 < f then at_ / 2 else at_ / 2 - 1
  if at_ = 17 then .link (tapNode r row) p c
  else if at_ / 2 = f then .link (.bypass (Fin.ofNat 144 r) (Fin.ofNat 16 row) east) p c
  else .link (siteNode (siteNo (r / 36) (r % 36 / 6 * 16 + row) (r % 6 * 16 + col))) p c

/-- One link along a row. -/
def Dev.rowHop (d : Dev) (r row at_ : Nat) (east : Bool) (c : Cls) : Option Hop :=
  (d.rowNext r row at_ east).map fun (r2, q) => d.rowNode r2 row q east c

/-- The first buffer of row y for a flit that enters the mesh at the west edge (moving east) or at the east edge. -/
def Dev.rowEntry (d : Dev) (i y : Nat) (east : Bool) (c : Cls) : Hop :=
  let r := i * 36 + y / 16 * 6 + if east then 0 else 5
  d.rowNode r (y % 16) (if east then 0 else if mget 31 d.health.fail (r * 16 + y % 16) ≤ 16 then 32 else 30) east c

/-- Place of logical column x in its row (R205). -/
def Dev.rowAt (d : Dev) (r row x : Nat) : Nat := let f := mget 31 d.health.fail (r * 16 + row); if x % 16 < f then x % 16 * 2 else x % 16 * 2 + 2

/-- A move of one mesh link from a site; none at the edge. -/
def Dev.meshEast (d : Dev) (i y x : Nat) (c : Cls) : Option Hop :=
  let r := i * 36 + y / 16 * 6 + x / 16
  d.rowHop r (y % 16) (d.rowAt r (y % 16) x) true c
def Dev.meshWest (d : Dev) (i y x : Nat) (c : Cls) : Option Hop :=
  let r := i * 36 + y / 16 * 6 + x / 16
  d.rowHop r (y % 16) (d.rowAt r (y % 16) x) false c
def meshNorth (i y x : Nat) (c : Cls) : Option Hop :=
  if y = 0 then none else some (.link (siteNode (siteNo i (y - 1) x)) .s c)
def meshSouth (i y x : Nat) (c : Cls) : Option Hop :=
  if y = 95 then none else some (.link (siteNode (siteNo i (y + 1) x)) .n c)

/-- Units attached to the west edge (Table 6-2). -/
def westUnit (k : Nat) : Bool := decide (k = 12 ∨ k = 13 ∨ k = 0)

/-- The ring die at which an isle meets traffic of a ring die (Table 1-5), and whether by U0. -/
def tapDie (die isle : Nat) : Nat × Bool :=
  let dist (a : Nat) := min ((a + 8 - die) % 8) ((die + 8 - a) % 8)
  let a := 2 * islePos isle
  if dist a ≤ dist (a + 1) then (a, true) else (a + 1, false)

/-- Direction around the I/O ring: the shorter, clockwise when equal, the other when a segment on the way has failed
(R26, R27). -/
def Dev.ringCw (d : Dev) (a b : Nat) : Bool :=
  let n := (b + 8 - a) % 8
  let cut (cw : Bool) : Bool :=
    if cw then (List.range n).any fun k => d.ring.failed.contains ((a + k) % 8)
    else (List.range (8 - n)).any fun k => d.ring.failed.contains ((a + 7 - k) % 8)
  if n ≤ 4 then !cut true || cut false else cut false && !cut true

/-- The trust die nearer to an isle's traffic, as a ring position: the fewer segments from the die at which the traffic
enters the ring (R25, R28). -/
def nearTrust (isle : Nat) : Nat :=
  let far (t : Nat) : Nat := let e := (tapDie t isle).1; min ((t + 8 - e) % 8) ((e + 8 - t) % 8)
  if far 3 ≤ far 7 then 3 else 7

/-- The next hop from a site's router. -/
def Dev.hopSite (d : Dev) (s : Nat) (x : Transit) (c : Cls) : Option Hop :=
  let (i, y, xx) := (siteIsle s, siteY s, siteX s)
  let tapWay : Option Hop :=
    if xx % 16 ≤ d.tapCol (siteReef s) (y % 16) then d.meshEast i y xx c else d.meshWest i y xx c
  let away (j : Nat) : Option Hop :=
    if viaCw i j then (d.meshEast i y xx c).orElse fun _ => some (.group (outDir i true) (d.liveGroup (outDir i true) (y % 32)) y)
    else (meshSouth i y xx c).orElse fun _ => some (.group (outDir i false) (d.liveGroup (outDir i false) (xx % 32)) xx)
  match x.target with
  | .site g =>
    if siteIsle g ≠ i then away (siteIsle g)
    else if x.express ∧ c ≠ .last then tapWay
    else if siteX g < xx then d.meshWest i y xx c
    else if xx < siteX g then d.meshEast i y xx c
    else if siteY g < y then meshNorth i y xx c
    else if y < siteY g then meshSouth i y xx c
    else none
  | .lagoon r => if r / 36 ≠ i then away (r / 36) else tapWay
  | .unit j k =>
    if j ≠ i then away j
    else if westUnit k then (d.meshWest i y xx c).orElse fun _ => some (.link (stopNode i k) .w c)
    else (meshNorth i y xx c).orElse fun _ => some (.link (stopNode i k) .n c)
  | .die e =>
    if (tapDie e i).2 then (d.meshWest i y xx c).orElse fun _ => some (.link (stopNode i 0) .w c)
    else (meshNorth i y xx c).orElse fun _ => some (.link (stopNode i 3) .n c)
  | .absent => none

/-- The next hop from a row tap. -/
def Dev.hopTap (d : Dev) (r row : Nat) (x : Transit) (c : Cls) : Option Hop :=
  let (i, col) := (r / 36, r % 6 * 16 + d.tapCol r row)
  let west : Option Hop := d.rowHop r row 17 false c
  let east : Option Hop := d.rowHop r row 17 true c
  if x.express ∧ c ≠ .last then some (.link (reefNode r) .tap c)
  else match x.target with
    | .site g =>
      if siteIsle g ≠ i then (if viaCw i (siteIsle g) then east else west) else if siteX g ≤ col then west else east
    | .unit j _ => if j ≠ i then (if viaCw i j then east else west) else west
    | .lagoon g => if g / 36 ≠ i then (if viaCw i (g / 36) then east else west) else west
    | .die _ => west
    | .absent => none

/-- The next hop from a bypass register: straight on along its row, at the edge of the isle to what is attached there. -/
def Dev.hopBypass (d : Dev) (r row : Nat) (east : Bool) (x : Transit) (c : Cls) : Option Hop :=
  let i := r / 36
  (d.rowHop r row (2 * mget 31 d.health.fail (r * 16 + row)) east c).orElse fun _ =>
    if east then some (.group (outDir i true) (d.liveGroup (outDir i true) ((r % 36 / 6 * 16 + row) % 32)) (r % 36 / 6 * 16 + row))
    else match x.target with
      | .unit _ k => some (.link (stopNode i k) .w c)
      | .die _ => some (.link (stopNode i 0) .w c)
      | _ => none

/-- The next hop from a reef router. -/
def hopReef (r : Nat) (x : Transit) (c : Cls) : Option Hop :=
  let (i, y, xx) := (r / 36, r % 36 / 6, r % 6)
  let go (gy gx : Nat) (here : Option Hop) : Option Hop :=
    if gx < xx then some (.link (reefNode (r - 1)) .e c)
    else if xx < gx then some (.link (reefNode (r + 1)) .w c)
    else if gy < y then some (.link (reefNode (r - 6)) .s c)
    else if y < gy then some (.link (reefNode (r + 6)) .n c)
    else here
  -- out of the isle: by U0 on the west edge (assumption 21)
  let out (k : Nat) : Option Hop :=
    if westUnit k then go y 0 (some (.link (stopNode i k) .express c)) else go 0 xx (some (.link (stopNode i k) .express c))
  match x.target with
  | .site g =>
    if siteIsle g ≠ i then out 0
    else go (siteY g / 16) (siteX g / 16)
      (some (.link (tapNode r (siteY g % 16)) .express (if c = .first then .last else c)))
  | .lagoon g => if g / 36 ≠ i then out 0 else go (g % 36 / 6) (g % 6) none
  | .unit j k => if j ≠ i then out 0 else out k
  | .die e => out (if (tapDie e i).2 then 0 else 3)
  | .absent => none

/-- The next hop from a stop of the perimeter ring. -/
def Dev.hopStop (d : Dev) (i k : Nat) (x : Transit) (c : Cls) : Option Hop :=
  let lst : Cls := if c = .first then .last else c
  let ring (m : Nat) (here : Option Hop) : Option Hop :=
    if m = k then here
    else if (m + 14 - k) % 14 ≤ 7 then some (.link (stopNode i ((k + 1) % 14)) .cw c)
    else some (.link (stopNode i ((k + 13) % 14)) .ccw c)
  let src : Nat := match x.src with | .stop _ m => m.val | _ => 0
  let away (j : Nat) : Option Hop :=
    let cw := viaCw i j
    ring (if cw then 9 else 11) (some (.group (outDir i cw) (d.liveGroup (outDir i cw) src) src))
  match x.target with
  | .site g =>
    if siteIsle g ≠ i then away (siteIsle g)
    else if westUnit k then some (d.rowEntry i (siteY g) true lst)
    else if k = 9 then some (d.rowEntry i (siteY g) false lst)
    else if k = 10 ∨ k = 11 then some (.link (siteNode (siteNo i 95 (siteX g))) .s lst)
    else some (.link (siteNode (siteNo i 0 (siteX g))) .n lst)
  | .lagoon g =>
    if g / 36 ≠ i then away (g / 36)
    else if westUnit k then some (.link (reefNode (i * 36 + g % 36 / 6 * 6)) .w c)
    else if 9 ≤ k then ring 0 none
    else some (.link (reefNode (i * 36 + g % 6)) .n c)
  | .unit j m => if j ≠ i then away j else ring m none
  | .die e =>
    let (t, u0) := tapDie e i
    ring (if u0 then 0 else 3) (some (.link (ringNode t) .tap c))
  | .absent => none

/-- The next hop from a die of the I/O ring. -/
def Dev.hopRing (d : Dev) (k : Nat) (x : Transit) (c : Cls) : Option Hop :=
  let go (m : Nat) (here : Option Hop) : Option Hop :=
    if m = k then here
    else if d.ringCw k m then some (.link (ringNode ((k + 1) % 8)) .cw c) else some (.link (ringNode ((k + 7) % 8)) .ccw c)
  match x.target with
  | .die e => go e none
  | .absent => none
  | t =>
    let i := t.isle.getD 0
    let src : Nat := match x.src with | .ring e => e.val | _ => k
    let (m, u0) := tapDie src i
    go m (some (.link (stopNode i (if u0 then 0 else 3)) .tap c))

/-- The next hop of a flit; none where it has reached its endpoint. -/
def Dev.nextHop (d : Dev) (n : Node) (x : Transit) (c : Cls) : Option Hop :=
  match n with
  | .site s => d.hopSite s.val x c
  | .tap r row => d.hopTap r.val row.val x c
  | .reef r => hopReef r.val x c
  | .stop i k => d.hopStop i.val k.val x c
  | .ring e => d.hopRing e.val x c
  | .bypass r row east => d.hopBypass r.val row.val east x c

/-! ### Injection and arrival -/

/-- A path from a site uses the express network: to a lagoon, or at reef distance 2 or more (R176). -/
def wantsExpress (s : Nat) (x : Transit) : Bool :=
  let far (a b : Nat) : Nat := (a - b) + (b - a)
  match x.target with
  | .lagoon r => decide (r / 36 = siteIsle s)
  | .site g => decide (siteIsle g = siteIsle s) && decide (2 ≤ far (siteX g / 16) (siteX s / 16) + far (siteY g / 16) (siteY s / 16))
  | _ => false

/-- A unit injects a flit at its node's local port. -/
def Dev.inject (d : Dev) (n : Node) (f : Flit) (bad : Bool := false) (copy : Bool := false) : Dev :=
  let x : Transit := { flit := f, src := n, bad := bad, copy := copy }
  let ex : Bool := match n with | .site s => wantsExpress s.val x | _ => false
  d.putFlit n .loc (clsOf f.kind) { x with express := ex }

/-- The local port of a site has room for a flit of a kind. -/
def Dev.canInject (d : Dev) (n : Node) (kind : Nat) : Bool := decide (0 < d.credits n .loc (clsOf kind))

/-- The flit at the head of a buffer has reached its endpoint there. -/
def Dev.arrived (d : Dev) (n : Node) (p : Port) (c : Cls) : Option Transit :=
  match d.head n p c with
  | some x => if d.nextHop n x c = none ∧ x.target ≠ .absent then some x else none
  | none => none

/-- A flit enters the sending port of a bridge direction (R199). -/
def Dev.enterGroup (d : Dev) (dir g e : Nat) (x : Transit) : Dev :=
  let l := d.lgroup dir g
  d.setLgroup dir g { l with localQ := l.localQ ++ [{ x with edge := e }] }

/-- A bypass register passes hop credits straight through (R206): a flit enters it only when the buffer beyond has one. -/
def Dev.creditBeyond (d : Dev) (r row : Nat) (east : Bool) (c : Cls) : Bool :=
  match d.rowHop r row (2 * mget 31 d.health.fail (r * 16 + row)) east c with
  | some (.link n p c) => decide (0 < d.credits n p c)
  | _ => true

/-- A hop is possible: a credit for the buffer, or a lane group that is up. -/
def Dev.hopReady (d : Dev) : Hop → Bool
  | .link (.bypass r row east) p c => decide (0 < d.credits (.bypass r row east) p c) && d.creditBeyond r.val row.val east c
  | .link n p c => decide (0 < d.credits n p c)
  | .group dir g _ => !(d.lgroup dir g).down

/-- A flit makes a hop. -/
def Dev.hopTo (d : Dev) (h : Hop) (x : Transit) : Dev :=
  match h with
  | .link n p c => d.putFlit n p c x
  | .group dir g e => d.enterGroup dir g e x

/-! ### Combining (R184, R185) -/

/-- Reef of a router; none outside the reefs. -/
def nodeReef : Node → Option Nat
  | .site s => some (siteReef s.val)
  | .tap r _ | .reef r | .bypass r _ _ => some r.val
  | _ => none

/-- `DIE`, `UNIT`, `WHERE` of a node (Table 17-18). -/
def nodeDie : Node → Nat
  | .site s => siteIsle s.val
  | .tap r _ | .reef r => r.val / 36
  | .stop i _ => i.val
  | .ring k => [24, 28, 25, 30, 27, 29, 26, 31].getD k.val 30
  | .bypass r _ _ => r.val / 36
def nodeUnit : Node → Nat
  | .site _ => 0
  | .tap _ _ | .reef _ | .bypass _ _ _ => 1
  | .stop _ k => if k.val = 9 ∨ k.val = 11 then 4 else if k.val = 0 ∨ k.val = 3 then 5 else if k.val = 1 ∨ k.val = 2 ∨ 12 ≤ k.val then 2 else 3
  | .ring _ => 5
def nodeWh : Node → Nat
  | .site s => siteWhere s.val
  | .tap r _ | .reef r | .bypass r _ _ => r.val % 36
  | .stop _ k => if k.val = 13 then 0 else if k.val = 12 then 1 else if k.val = 1 then 2 else if k.val = 2 then 3 else k.val
  | .ring k => k.val

/-- What an AA operation reports goes into the log of the owning job (R78, R83), for an AU with its window (R248). -/
def Dev.aaReport (d : Dev) (t : TimeBase) (job : Option Nat) (die unit wh tag : Nat) (r : AARep) (detail : Nat := 0) : Dev :=
  let one (d : Dev) (code : Nat) : Dev := d.logErr t code (job := job.getD 0x1FF) (die := die) (unit := unit) (wh := wh) (tag := tag) (detail := detail)
  let d1 := (List.range r.malformed).foldl (fun d _ => one d 0x2007) d
  if r.overflow then one d1 0x2005 else d1

/-- Two reduce-AA flits may combine: all of the header but `CONTRIB` agrees (R184). -/
def combinable (a b : Flit) : Bool :=
  decide (a.kind = 3) && decide (b.kind = 3) && decide (a.h 63 14 = b.h 63 14) && decide (a.aaSeq = b.aaSeq)

/-- The inputs whose heads combine with the head of (p, c), in order, with `CONTRIB` sums within 1,023 (R184). -/
def Dev.combineSet (d : Dev) (n : Node) (h : Hop) (x : Transit) : List (Port × Cls × Transit) :=
  let all := dataInputs.filterMap fun (p, c) => match d.head n p c with
    | some y => if combinable x.flit y.flit ∧ d.nextHop n y c = some h then some (p, c, y) else none
    | none => none
  (all.foldl (fun (a : List (Port × Cls × Transit) × Nat) e =>
    if a.2 + e.2.2.flit.contrib ≤ 1023 then (a.1 ++ [e], a.2 + e.2.2.flit.contrib) else a) ([], 0)).1

/-- One combined transit flit of several, with what the combinations report. -/
def combineFlits (l : List Transit) (x : Transit) : Transit × AARep :=
  match l with
  | [] => (x, {})
  | y :: r =>
    let (p, rep) := r.foldl (fun (a : W256 × AARep) z =>
      let (w, q) := aaCombine a.1 z.flit.payload
      (w, { malformed := a.2.malformed + q.malformed, overflow := a.2.overflow || q.overflow })) (y.flit.payload, {})
    let n := sumNat (l.map (·.flit.contrib))
    ({ x with flit := { hdr := BitVec.ofNat 64 (x.flit.hdr.toNat - x.flit.contrib * 16 + n * 16), payload := p },
              bad := l.any (·.bad) }, rep)

/-- The flit at the head of (n, p, c) makes its hop, combined with those that combine with it. -/
def Dev.doHop (d : Dev) (t : TimeBase) (n : Node) (p : Port) (c : Cls) (x : Transit) (h : Hop) : Dev :=
  let router : Bool := match n with | .site _ | .reef _ => true | _ => false
  let set := if router ∧ x.flit.kind = 3 then d.combineSet n h x else []
  if 2 ≤ set.length ∧ set.any (fun e => decide (e.1 = p ∧ e.2.1 = c)) then
    let (y, rep) := combineFlits (set.map (·.2.2)) x
    let d1 := set.foldl (fun d e => d.takeFlit n e.1 e.2.1) d
    (d1.hopTo h y).aaReport t ((nodeReef n).bind d.jobAt) (nodeDie n) (nodeUnit n) (nodeWh n) x.flit.tag rep
  else (d.takeFlit n p c).hopTo h x

/-! ### Uncorrectable words (R183) -/

/-- Physical position of a logical site in the health store: reef × 272 + row × 17 + column (R205). -/
def Dev.physSite (d : Dev) (s : Nat) : Nat :=
  let r := siteReef s
  let row := siteY s % 16
  let f := mget 31 d.health.fail (r * 16 + row)
  let c := siteX s % 16
  r * 272 + row * 17 + (if c < f then c else c + 1)

/-- Health of a physical site. -/
def Dev.siteHealth (d : Dev) (k : Nat) : SiteHealth := mget {} d.health.sites k
def Dev.setSiteHealth (d : Dev) (k : Nat) (h : SiteHealth) : Dev :=
  { d with health := { d.health with sites := mput {} d.health.sites k h } }

/-- The times of a window of 3,600 s that ends now (R590). -/
def lastHour (now : Nat) (l : List Nat) : List Nat := l.filter fun x => decide (now ≤ x + 3600000000000)

/-- A router discards a flit whose header is uncorrectable: the code is logged, and every job whose partition includes
the reef stops (R183). -/
def Dev.flitUncorrectable (d : Dev) (t : TimeBase) (n : Node) : Dev :=
  let d1 := match n with
    | .site s =>
      let k := d.physSite s.val
      d.setSiteHealth k { d.siteHealth k with flitTimes := lastHour t.ns ((d.siteHealth k).flitTimes ++ [t.ns]) }
    | _ => d
  let jobs := match nodeReef n with
    | some r => d1.jobs.filterMap fun (j, b) => if b.reefs.contains r ∧ 0 < b.state then some j else none
    | none => []
  match jobs with
  | [] => d1.logErr t 0x200F (die := nodeDie n) (unit := nodeUnit n) (wh := nodeWh n)
  | js => js.foldl (fun d j => d.jobError t j 0x200F (nodeDie n) (nodeUnit n) (nodeWh n)) d1

/-! ### The I/O ring (R27, R28) -/

/-- The buffers of the ring dies where a flit of a source die may wait: along the old direction, farthest first. -/
def ringBufs (src : Nat) (cw : Bool) : List (Node × Port × Cls) :=
  ((List.range 8).map fun k => if cw then (src + 7 - k) % 8 else (src + 1 + k) % 8).flatMap fun m =>
    [(ringNode m, (if cw then Port.cw else Port.ccw), Cls.first), (ringNode m, (if cw then Port.cw else Port.ccw), Cls.credit),
     (ringNode m, (if cw then Port.cw else Port.ccw), Cls.control)]

/-- The die of the ring at which a flit entered the ring. -/
def ringEntry (x : Transit) : Nat :=
  match x.src, x.dst with
  | .ring e, _ => e.val
  | .stop i _, .die e => (tapDie e.val i.val).1
  | .site s, .die e => (tapDie e.val (siteIsle s.val)).1
  | _, _ => 0

/-- Flits of one flow of the ring: they entered at one die, by one port, for one endpoint (R27). -/
def sameFlow (x y : Transit) : Bool :=
  decide (ringEntry x = ringEntry y) && decide (x.target = y.target) &&
    ((match x.src with | .ring _ => true | _ => false) == (match y.src with | .ring _ => true | _ => false))

/-- A flit that enters the ring in one direction waits while an earlier flit of its flow is still on the way in the other:
the order within the flow is kept when a route has switched (R27). -/
def Dev.flowAhead (d : Dev) (x : Transit) (c : Cls) (h : Hop) : Bool :=
  match h with
  | .link (.ring _) p _ =>
    let other : Port := if p = .cw then .ccw else .cw
    decide (p = .cw ∨ p = .ccw) &&
      (List.range 8).any fun k => (d.buf (bufKey (ringNode k) other c)).any (sameFlow x)
  | _ => false

/-- A flit stands where it enters the ring, and an earlier one of its flow is on the way in the other direction (R27). -/
def Dev.heldBack (d : Dev) (n : Node) (p : Port) (c : Cls) (x : Transit) (h : Hop) : Bool :=
  (match n with | .ring _ => decide (p = .loc ∨ p = .tap) | _ => false) && d.flowAhead x c h

/-- RING_SEGMENT_FAILURE (R27): every route across the segment takes the other direction; flits that had not reached
their die are sent again from the port by which they entered the ring, in order, before later flits of their flow. -/
def Dev.segmentFails (d : Dev) (k : Nat) : Dev :=
  if d.ring.failed.contains k then d
  else
    let d1 : Dev := { d with ring := { d.ring with failed := insNat d.ring.failed k } }
    let d2 := d1.setCtr 0x2D00 5 (d1.ctrN 0x2D00 5 + 2 ^ k)
    (List.range 8).foldl (fun d src => [true, false].foldl (fun d cw =>
      let keys := ringBufs src cw
      let mine (n : Node) (c : Cls) (x : Transit) : Bool :=
        decide (ringEntry x = src) && (match d1.nextHop n x c with
          | some (.link (.ring m) _ _) => decide (m.val ≠ (match n with | .ring e => (if cw then (e.val + 1) % 8 else (e.val + 7) % 8) | _ => 8))
          | _ => false)
      let moved := keys.flatMap fun (n, p, c) => (d.buf (bufKey n p c)).filter (mine n c)
      let d := keys.foldl (fun (d : Dev) (n, p, c) =>
        let b := d.buf (bufKey n p c)
        let keep := b.filter fun x => !mine n c x
        { d with fabric := { bufs := mput [] d.fabric.bufs (bufKey n p c) keep,
                             used := mput 0 d.fabric.used (bufKey n p c) (mget 0 d.fabric.used (bufKey n p c) - (b.length - keep.length)) } }) d
      [Cls.first, .credit, .control].foldl (fun (d : Dev) c => [Port.loc, .tap].foldl (fun (d : Dev) p =>
        let kk := bufKey (ringNode src) p c
        let own (x : Transit) : Bool := match x.src with | .ring _ => decide (p = .loc) | _ => decide (p = .tap)
        let mv := moved.filter fun x => decide (clsOf x.flit.kind = c) && own x
        { d with fabric := { bufs := mput [] d.fabric.bufs kk (mv ++ d.buf kk),
                             used := mput 0 d.fabric.used kk (mget 0 d.fabric.used kk + mv.length) } }) d) d) d) d2

/-- RING_SEGMENT_FAILURE (R27, R589): the first loss is logged; a second splits the ring and the device enters FAULT. -/
def execRingSegmentFailure (seg : Fin 8) (s : State) : Host.Outcome State Fault Refusal :=
  act s fun t d =>
    if d.ring.failed.contains seg.val then d
    else if d.ring.failed = [] then (d.segmentFails seg.val).logErr t 0x8006 (wh := seg.val)
    else (d.segmentFails seg.val).enterFault t 0x8007

/-- What the trust unit does with a flit it has consumed: the control cores keep the status a site returned (R28, R160;
assumption 119). -/
def RingState.consume (r : RingState) (x : Transit) : RingState :=
  { r with consumed := r.consumed ++ [x.flit], consumed1 := r.consumed1 ++ [x.flit], lastDelay := 8
           status := match x.src with | .site s => if x.answer then mput 0 r.status s.val x.flit.payload else r.status | _ => r.status }

/-- TRUST_FLIT_ARRIVAL (R28): the flit at the head of trust die T0 or T1 is forwarded to its twin over the lockstep link,
and both consume it on one edge, 8 trust-clock cycles later at the nearer die. -/
def Dev.trustArrival (d : Dev) (die : Nat) : Dev :=
  let n := ringNode (if die = 0 then 3 else 7)
  match ([Port.cw, .ccw, .tap, .loc].flatMap fun p => [Cls.first, .credit, .control].map fun c => (p, c)).find?
      (fun (p, c) => (d.arrived n p c).isSome) with
  | none => d
  | some (p, c) =>
    match d.head n p c with
    | none => d
    | some x =>
      let d1 := d.takeFlit n p c
      { d1 with ring := d1.ring.consume x }

/-- TRUST_FLIT_ARRIVAL. -/
def execTrustFlitArrival (die : Fin 2) (s : State) : Host.Outcome State Fault Refusal := act s fun _ d => d.trustArrival die.val

end Sys2Proof.Machine
end

