-- ==== Sys2Proof/Machine/Flags.lean ====
section
/-! DEFINITION. The run of one site instruction: what it reads and writes, its sticky flags, registers and tiles, and the
status word (chapters 4 and 5). -/
namespace Sys2Proof.Machine

/-- What a site's surroundings are to an instruction. -/
structure SEnv where
  /-- the job's plan runs in invariant mode (R73) -/
  inv : Bool := false
  /-- plan seed (R67) -/
  seed : Nat := 0
  /-- the site's place (x, y) in its plane (R127) -/
  plane : Option (Nat × Nat) := none
  /-- room for forwarded operands in the E and S neighbours (R129) -/
  eastRoom : Nat := 0
  southRoom : Nat := 0
  /-- the local port can take a flit of class data -/
  canSend : Bool := true
  deriving DecidableEq, Repr

/-- A site while one instruction runs. -/
structure SRun where
  x : Site
  c : Context
  setup : Bool
  env : SEnv
  /-- flits to inject, with an uncorrectable payload word or not -/
  flits : List (Flit × Bool) := []
  /-- forwarded operands: south rather than east, tag, beat -/
  fwd : List (Bool × BitVec 20 × W256) := []
  rep : AARep := {}
  deriving DecidableEq, Repr

/-- How an instruction leaves its context. -/
inductive SOut where
  /-- it waits for an operand; what it has done so far stands -/
  | keep (r : SRun)
  /-- it completes; the next address -/
  | next (r : SRun) (pc : Nat)
  /-- `end` -/
  | close (r : SRun)
  /-- `arm` in setup code -/
  | armed (r : SRun)
  /-- the site stops: code, queue (`none`: the program address) -/
  | stop (r : SRun) (code : Nat) (place : Option Nat)
  deriving DecidableEq, Repr

/-- The instruction completes and the next one in program order follows. -/
def SRun.done (r : SRun) : SOut := .next r (r.c.pc + 1)

/-- ILLEGAL_INSTRUCTION (Table 5-15). -/
def SRun.illegal (r : SRun) : SOut := .stop r 0x200B none

/-! ### Sticky flags (Table 5-10) -/

def fCvSat : Nat := 0
def fCvNan : Nat := 1
def fCvInf : Nat := 2
def fOwnRefused : Nat := 3
def fAgOob : Nat := 4
def fTokLeft : Nat := 5
def fRouteOff : Nat := 6

/-- A sticky flag is set (R104: the flags are an OR). -/
def Site.flag (x : Site) (i : Nat) : Site := { x with sticky := x.sticky ||| BitVec.ofNat 32 (2 ^ i) }
def SRun.flag (r : SRun) (i : Nat) : SRun := { r with x := r.x.flag i }

/-- A flag set on a condition. -/
def SRun.flagIf (r : SRun) (b : Bool) (i : Nat) : SRun := if b then r.flag i else r

/-- The flags of a conversion (R59). -/
def SRun.cv (r : SRun) (v : Cv) : SRun := ((r.flagIf v.sat fCvSat).flagIf v.nan fCvNan).flagIf v.inf fCvInf

/-- Metadata of a tile (Table 4-4). -/
def Site.meta (x : Site) (t : Nat) : Nat := (mget 0 x.tmeta t).toNat

/-- The status word (Table 5-10). -/
def Site.status (x : Site) : W32 :=
  BitVec.ofNat 32 (x.sticky.toNat % 128 + b2n (x.tmeta.any fun e => e.2.getLsbD 8) * 128 + x.epoch.toNat * 256)

/-! ### Registers (R102, R103) -/

/-- Scalar register i. -/
def SRun.sreg (r : SRun) (i : Nat) : W32 := if i < 8 then mget 0 r.x.sregs i else mget 0 r.c.sregs i

/-- Write of a scalar register: a shared one only from setup code. -/
def SRun.setS (r : SRun) (i : Nat) (v : W32) : SRun :=
  if i < 8 then
    (if r.setup then { r with x := { r.x with sregs := mput 0 r.x.sregs i v } } else r.flag fOwnRefused)
  else { r with c := { r.c with sregs := mput 0 r.c.sregs i v } }

/-- Lane l of vector register v. -/
def SRun.lane (r : SRun) (v l : Nat) : W32 := if v < 4 then mget 0 r.x.vregs (16 * v + l) else mget 0 r.c.vregs (16 * v + l)

/-- The 16 lanes of a vector register. -/
def SRun.vec (r : SRun) (v : Nat) : List W32 := (List.range 16).map (r.lane v)

/-- Write of a vector register: a shared one only from setup code. -/
def SRun.setV (r : SRun) (v : Nat) (l : List W32) : SRun :=
  if v < 4 then
    (if r.setup then { r with x := { r.x with vregs := mputs 0 r.x.vregs (16 * v) l } } else r.flag fOwnRefused)
  else { r with c := { r.c with vregs := mputs 0 r.c.vregs (16 * v) l } }

/-! ### Tiles (R101, R119) -/

/-- The instruction may touch a tile: setup code any, a context those its trigger owns (R101). -/
def SRun.owns (r : SRun) (t : Nat) : Bool := r.setup || (bit (r.x.meta t) 5 && decide (bits (r.x.meta t) 4 0 = r.c.trig))

/-- `KIND` of a tile. -/
def SRun.kind (r : SRun) (t : Nat) : Nat := bits (r.x.meta t) 7 6

/-- `KIND` and `ACC_SAT` of a tile are set. -/
def SRun.setKind (r : SRun) (t k : Nat) (sat : Bool) : SRun :=
  let m := r.x.meta t
  { r with x := { r.x with
      tmeta := mput 0 r.x.tmeta t (BitVec.ofNat 16 (m / 512 * 512 + b2n sat * 256 + k % 4 * 64 + m % 64)) } }

/-- `ACC_SAT` of a tile. -/
def SRun.accSat (r : SRun) (t : Nat) : Bool := bit (r.x.meta t) 8

/-- The 16 values of a tile. -/
def SRun.tile (r : SRun) (t : Nat) : List W32 := mgets 0 r.x.tiles (16 * t) 16
def SRun.setTile (r : SRun) (t : Nat) (l : List W32) : SRun := { r with x := { r.x with tiles := mputs 0 r.x.tiles (16 * t) l } }

/-- AA word w of a tile (section 4.6.2). -/
def SRun.word (r : SRun) (t w : Nat) : W256 := payOf ((List.range 4).map fun i =>
  (mget 0 r.x.tiles (16 * t + 8 * w + 2 * i)).toNat + (mget 0 r.x.tiles (16 * t + 8 * w + 2 * i + 1)).toNat * 2 ^ 32)
def lanes8 (v : W256) : List W32 := (List.range 8).map fun i => v.extractLsb' (32 * i) 32
def SRun.setWord (r : SRun) (t w : Nat) (v : W256) : SRun :=
  { r with x := { r.x with tiles := mputs 0 r.x.tiles (16 * t + 8 * w) (lanes8 v) } }

/-- A tile cleared as `tclr` clears it. -/
def SRun.clearTile (r : SRun) (t k : Nat) : SRun :=
  let r1 := if k = 2 then (r.setWord t 0 aaZero).setWord t 1 aaZero else r.setTile t (List.replicate 16 0)
  r1.setKind t k false

/-- An AA word read: the AA zero, with `CV_NAN`, where the tile holds none (R166); zeros where the tile is not owned. -/
def SRun.readWord (r : SRun) (t w : Nat) : W256 × SRun :=
  if ¬ r.owns t then (aaZero, r.flag fOwnRefused)
  else if r.kind t ≠ 2 then (aaZero, r.flag fCvNan)
  else (r.word t w, r)

/-- The tile of an AA operation that writes: made two AA zeros, with `CV_NAN`, where its `KIND` is not 2 (R166). -/
def SRun.toAA (r : SRun) (t : Nat) : SRun :=
  if r.kind t = 2 then r else ((((r.setWord t 0 aaZero).setWord t 1 aaZero).setKind t 2 (r.accSat t)).flag fCvNan)

/-- What AA operations report, gathered. -/
def SRun.report (r : SRun) (p : AARep) : SRun :=
  { r with rep := { malformed := r.rep.malformed + p.malformed, overflow := r.rep.overflow || p.overflow } }

end Sys2Proof.Machine
end

