-- ==== Sys2Proof/Machine/Operands.lean ====
section
/-! DEFINITION. Operand forms of a site: data SRAM, queues, address generators with their transposed delivery and block
scales, the forwarding path (chapters 4 and 5). -/
namespace Sys2Proof.Machine

/-! ### Data SRAM (R105) -/

/-- n bytes of the data SRAM as a number, least significant first; nothing is held past 0xBFFF. -/
def Site.rd (x : Site) (a n : Nat) : Nat := leNat (mgets 0 x.sram a (min n (0xC000 - a)))

/-- A write of bytes; nothing is held past 0xBFFF. -/
def Site.wr (x : Site) (a : Nat) (b : List Byte) : Site := { x with sram := mputs 0 x.sram a (b.take (0xC000 - a)) }

/-! ### Queues (R136 to R144) -/

/-- A queue descriptor (Table 5-5). -/
structure QDesc where
  base : Nat
  mode : Nat
  slots : Nat
  per : Nat
  expect : Nat
  spill : Bool
  drnIn : Bool
  deriving DecidableEq, Repr

def qDescOf (w : Nat) : QDesc :=
  { base := bits w 12 0 * 8, mode := bits w 14 13, slots := bits w 21 15 + 1, per := bits w 32 22 + 1, expect := bits w 42 33,
    spill := bit w 43, drnIn := bit w 44 }

/-- Descriptor of queue q in the working registers (R151). -/
def Site.qd (x : Site) (q : Nat) : QDesc := qDescOf (mget 0 x.work q).toNat
def Site.q (x : Site) (q : Nat) : Queue := mget {} x.queues q
def Site.setQ (x : Site) (q : Nat) (v : Queue) : Site := { x with queues := mput {} x.queues q v }

/-- Entry e of a queue. -/
def Site.ent (x : Site) (q e : Nat) : Option Entry := mget none (x.q q).entries e

/-- A queue's entry is written: what the queue knows, header and payload in the ring (R107). -/
def Site.putEntry (x : Site) (q e : Nat) (v : Entry) (hdr : W64) (pay : W256) : Site :=
  let y := x.setQ q { x.q q with entries := mput none (x.q q).entries e (some v) }
  y.wr ((x.qd q).base + 40 * e) (le 8 hdr.toNat ++ payBytes pay)

/-- Payload of an entry. -/
def Site.payload (x : Site) (q e : Nat) : W256 := BitVec.ofNat 256 (x.rd ((x.qd q).base + 40 * e + 8) 32)

/-- An entry is freed; while the queue spills, a refill pass is then owed (R314). -/
def Site.freeEntry (x : Site) (q e : Nat) : Site :=
  let v := x.q q
  x.setQ q { v with entries := mput none v.entries e none, refillDue := v.refillDue || v.spilling }

/-- The head of a FIFO is taken. -/
def Site.popHead (x : Site) (q : Nat) : Site :=
  let v := x.q q
  x.setQ q { v with entries := mput none v.entries v.head none, head := (v.head + 1) % (x.qd q).per, len := v.len - 1 }

/-- First entry of a tag's slot. -/
def QDesc.slot (d : QDesc) (tag : Nat) : Nat := tag % d.slots * d.per

/-- A combine entry is complete (R140). -/
def complete (d : QDesc) (e : Entry) : Bool := decide (e.count = d.expect)

inductive QRead where
  | wait
  | stop (code : Nat)
  /-- an empty token stands for every token of the iteration -/
  | zero
  | ok (v : W256) (bad : Bool) (x : Site)
  deriving DecidableEq, Repr

/-- queue_read (R143). -/
def Site.qRead (x : Site) (q : Nat) (tag : BitVec 20) (r : Nat) : QRead :=
  let d := x.qd q
  if d.mode = 1 then
    (if (x.q q).len = 0 then .wait
     else match x.ent q (x.q q).head with
       | none => .wait
       | some e =>
         if e.tag ≠ tag then .stop 0x2008
         else if e.kind = 4 then .zero
         else .ok (x.payload q (x.q q).head) e.bad (x.popHead q))
  else
    let s0 := d.slot tag.toNat
    let i := s0 + r % d.per
    let empty : Bool := d.mode = 2 && (match x.ent q s0 with | some e => decide (e.kind = 4) && decide (e.tag = tag) | none => false)
    if empty then .zero
    else match x.ent q i with
      | none => .wait
      | some e =>
        if e.reserved ∨ e.tag ≠ tag then .wait
        else if d.mode = 2 ∧ e.seq = r % 1024 then .ok (x.payload q i) e.bad (x.freeEntry q i)
        else if d.mode = 3 ∧ e.seq = r % 16 ∧ complete d e then .ok (x.payload q i) e.bad (x.freeEntry q i)
        else .wait

/-! ### Address generators (R111 to R114, R153 to R156) -/

/-- An address-generator descriptor (Table 5-8). -/
structure AGDesc where
  base : Nat
  n : List Nat
  stride : List Int
  mode : Nat
  trans : Bool
  fmt : Nat
  write : Bool
  owner : Nat
  owned : Bool
  pitch : Nat
  scale : Nat
  rpitch : Nat
  deriving DecidableEq, Repr

/-- Descriptor k in the working registers. -/
def Site.ag (x : Site) (k : Nat) : AGDesc :=
  let w (i : Nat) := (mget 0 x.work (64 + 3 * k + i)).toNat
  { base := bits (w 0) 15 0, n := [bits (w 0) 27 16 + 1, bits (w 0) 39 28 + 1, bits (w 0) 51 40 + 1, bits (w 0) 63 52 + 1],
    stride := (List.range 4).map fun i => ofTwos 16 (bits (w 1) (16 * i + 15) (16 * i)),
    mode := bits (w 2) 1 0, trans := bit (w 2) 2, fmt := bits (w 2) 7 3, write := bit (w 2) 8, owner := bits (w 2) 13 9,
    owned := bit (w 2) 14, pitch := bits (w 2) 31 16, scale := bits (w 2) 47 32, rpitch := bits (w 2) 63 48 }

/-- Stored rows per transposed beat (Table 4-3), and columns of a delivered beat: where a stored word holds more than fit into a
beat, the first four of it, or the first one of 32 bits (DESIGN CHOICE, assumption 124). -/
def transRows (fmt : Nat) : Nat := match fmtWidth fmt with | 16 => 4 | 4 => 16 | _ => 8
def transCols (fmt : Nat) : Nat := if fmtWidth fmt = 32 then 1 else 4

/-- Points of the walk. -/
def AGDesc.points (g : AGDesc) : Nat := g.n.foldl (· * ·) 1

/-- Byte address of a walk point (R111, R113), with the slotted offset of the tag (section 4.4). -/
def AGDesc.addr (g : AGDesc) (tag p : Nat) : Nat :=
  let i0 := p % g.n.getD 0 1
  let i1 := p / g.n.getD 0 1 % g.n.getD 1 1
  let i2 := p / (g.n.getD 0 1 * g.n.getD 1 1) % g.n.getD 2 1
  let i3 := p / (g.n.getD 0 1 * g.n.getD 1 1 * g.n.getD 2 1) % g.n.getD 3 1
  let rows : Nat := if g.trans then transRows g.fmt else 1
  let b := g.base + (if g.mode = 0 then tag % 4 * g.pitch else 0)
  toTwos 16 ((b : Int) + i0 * g.stride.getD 0 0 + rows * i1 * g.stride.getD 1 0 + i2 * g.stride.getD 2 0 + i3 * g.stride.getD 3 0)

/-- The instruction may use an ordered-mode descriptor: the owning trigger (R101), and setup code, of which R101 and R155 do not
speak (DESIGN CHOICE, assumption 123). -/
def SRun.ownsAG (r : SRun) (g : AGDesc) : Bool := r.setup || (g.owned && decide (g.owner = r.c.trig))

/-- The walk of descriptor k (R155): the owning trigger's in ordered mode, else the context's own; setup code has its own in every
mode (assumption 123). -/
def SRun.walkOf (r : SRun) (k : Nat) : Walk :=
  if (r.x.ag k).mode = 2 ∧ ¬ r.setup then mget {} r.x.walks k else mget {} r.c.walks k
def SRun.putWalk (r : SRun) (k : Nat) (w : Walk) : SRun :=
  if (r.x.ag k).mode = 2 ∧ ¬ r.setup then { r with x := { r.x with walks := mput {} r.x.walks k w } }
  else { r with c := { r.c with walks := mput {} r.c.walks k w } }
def SRun.walk (r : SRun) (k : Nat) : Nat := (r.walkOf k).point
def SRun.setWalk (r : SRun) (k p : Nat) : SRun := r.putWalk k { r.walkOf k with point := p }

inductive AGPoint where
  /-- the generator has stopped (R111) -/
  | wait
  /-- refused (R101) or out of range: zeros delivered, write discarded -/
  | none (r : SRun)
  /-- element address, scale address -/
  | at_ (a : Nat) (s : Int) (r : SRun)
  deriving DecidableEq, Repr

/-- One point of a descriptor's walk is used for a read or a write (R111, R112, R162). `BLK` of the scale address is that of the
descriptor's format where it is a block format, else of the instruction's (DESIGN CHOICE, assumption 128). -/
def SRun.point (r : SRun) (k : Nat) (write : Bool) (fmt : Nat) : AGPoint :=
  let g := r.x.ag k
  if g.mode = 2 ∧ ¬ r.ownsAG g then .none (r.flag fOwnRefused)
  else
    let p := r.walk k
    if g.points ≤ p then .wait
    else
      let r1 := r.setWalk k (p + 1)
      if g.mode = 3 ∨ g.write ≠ write ∨ (write ∧ g.mode = 1) then .none (r1.flag fAgOob)
      else
        let a := g.addr r.c.tag.toNat p
        let bf := if isBlock g.fmt then g.fmt else fmt
        .at_ a ((g.scale : Int) + ((a : Int) - g.base) / (blkBytes bf : Nat)) r1

/-- A scale byte (R114). -/
def SRun.scaleAt (r : SRun) (s : Int) : Nat × SRun :=
  if 0 ≤ s ∧ s ≤ 0xBFFF then (r.x.rd s.toNat 1, r) else (0, r.flag fAgOob)

/-- A scale read anew, and kept as the last of its row. -/
def SRun.freshScale (r : SRun) (k i : Nat) (s : Int) : Nat × SRun :=
  let (v, r1) := r.scaleAt s
  (v, r1.putWalk k { r1.walkOf k with last := mput none (r1.walkOf k).last i (some (s, v)) })

/-- The scale of row i of a beat, through descriptor k: fetched only when its address differs from that of the scale last fetched
for the row (R114, R156; assumption 129). -/
def SRun.fetchScale (r : SRun) (k i : Nat) (s : Int) : Nat × SRun :=
  match mget none (r.walkOf k).last i with
  | some (a, v) => if a = s then (v, r) else r.freshScale k i s
  | none => r.freshScale k i s

/-- Scales of the rows from i on, from s by a step. -/
def SRun.scales (r : SRun) (k i : Nat) (s step : Int) : Nat → List Nat × SRun
  | 0 => ([], r)
  | n + 1 =>
    let (v, r1) := r.fetchScale k i s
    let (l, r2) := r1.scales k (i + 1) (s + step) step n
    (v :: l, r2)

/-- A read beat at an address (R112). -/
def SRun.beatAt (r : SRun) (a : Nat) : W256 × SRun :=
  if a % 8 = 0 ∧ a + 32 ≤ 0xC000 then (BitVec.ofNat 256 (r.x.rd a 32), r) else (0, r.flag fAgOob)

/-- A transposed read beat (R113): the columns of the stored rows, one after another. -/
def SRun.transAt (r : SRun) (g : AGDesc) (a : Nat) : W256 × SRun :=
  let w := fmtWidth g.fmt
  let rows := (List.range (transRows g.fmt)).map fun (j : Nat) => toTwos 16 ((a : Int) + (j : Int) * g.stride.getD 1 0)
  if a % 8 = 0 ∧ rows.all (fun b => decide ((b ||| 7) ≤ 0xBFFF)) then
    let stored := rows.map fun b => r.x.rd b 8
    (BitVec.ofNat 256 (packElems w ((List.range (transCols g.fmt)).flatMap fun c => stored.map fun v => elemAt w v c)), r)
  else (0, r.flag fAgOob)

/-! ### Reading one beat of a source -/

inductive Beat where
  | wait
  | stop (code place : Nat)
  | ok (v : W256) (scales : List Nat) (r : SRun)
  deriving DecidableEq, Repr

/-- The scale needs of a source: how many scales a beat takes (0: no block format), from s by 1 (`vld`) or by the row
pitch, and the scale-only descriptor (R156, R163). -/
structure ScaleUse where
  n : Nat := 0
  vld : Bool := false
  fmt : Nat := 0
  desc : Nat := 0
  deriving DecidableEq, Repr

/-- The scales at a scale address under a descriptor. -/
def SRun.takeScales (r : SRun) (k : Nat) (s : Int) (u : ScaleUse) : List Nat × SRun :=
  r.scales k 0 s (if u.vld then 1 else ((r.x.ag k).rpitch : Int)) u.n

/-- The scale-only descriptor of a beat has a point left, or refuses the access: a beat takes no token, and no forwarded operand,
before (R111, R163). -/
def SRun.scaleReady (r : SRun) (u : ScaleUse) : Bool :=
  decide (u.n = 0) || (match r.point u.desc false u.fmt with | .wait => false | _ => true)

/-- Scales of an operand that comes from a queue or the forwarding path, through its scale-only descriptor (R163): one point of its
walk. A refused or out-of-range point forms no scale address; its scales are 0x00 (DESIGN CHOICE, assumption 125). -/
def SRun.scaleOnly (r : SRun) (u : ScaleUse) : List Nat × SRun :=
  if u.n = 0 then ([], r)
  else match r.point u.desc false u.fmt with
    | .at_ _ s r1 => r1.takeScales u.desc s u
    | .none r1 => (List.replicate u.n 0, r1)
    | .wait => (List.replicate u.n 0, r)

/-- A queue token is taken as a beat. -/
def SRun.takeToken (r : SRun) (q : Nat) (u : ScaleUse) : Beat :=
  if ¬ r.scaleReady u then .wait
  else match r.x.qRead q r.c.tag (mget 0 r.c.reads q) with
    | .wait => .wait
    | .stop code => .stop code q
    | .zero =>
      let (sc, r1) := r.scaleOnly u
      .ok 0 sc r1
    | .ok v bad x =>
      if bad then .stop 0x8005 q
      else
        let (sc, r1) := ({ r with x := x, c := { r.c with reads := mput 0 r.c.reads q (mget 0 r.c.reads q + 1) } } : SRun).scaleOnly u
        .ok v sc r1

/-- One beat of a source selector: a queue, a descriptor, the forwarding path (W port in the first position, N port in the
second), or zeros (Table 5-11). A refused or out-of-range point delivers zeros, with scales of 0x00 (assumption 125). -/
def SRun.beat (r : SRun) (pos sel : Nat) (u : ScaleUse) : Beat :=
  let low := sel % 64
  match sel / 64 with
  | 1 => r.takeToken low u
  | 2 =>
    match r.point low false u.fmt with
    | .wait => .wait
    | .none r1 => .ok 0 (List.replicate u.n 0) r1
    | .at_ a s r1 =>
      let g := r.x.ag low
      let (v, r2) := if g.trans then r1.transAt g a else r1.beatAt a
      let (sc, r3) := if u.n = 0 then ([], r2) else r2.takeScales low s u
      .ok v sc r3
  | _ =>
    if low = 0 then
      let q := if pos = 0 then r.x.fwdW else r.x.fwdN
      match q with
      | [] => .wait
      | (tag, v) :: rest =>
        if tag ≠ r.c.tag ∨ ¬ r.scaleReady u then .wait
        else
          let x := if pos = 0 then { r.x with fwdW := rest } else { r.x with fwdN := rest }
          let (sc, r1) := ({ r with x := x } : SRun).scaleOnly u
          .ok v sc r1
    else .ok 0 (List.replicate u.n 0) r

/-! ### Writing one beat -/

/-- Bytes written at a walk point of a descriptor, with a scale byte (R112, R114, R152); none while the generator has
stopped. -/
def SRun.writeBeat (r : SRun) (k : Nat) (b : List Byte) (scale : Option Nat) (fmt : Nat) : Option SRun :=
  match r.point k true fmt with
  | .wait => none
  | .none r1 => some r1
  | .at_ a s r1 =>
    let r2 := if a % 8 = 0 ∧ a + b.length ≤ 0xBA80 then { r1 with x := r1.x.wr a b } else r1.flag fAgOob
    match scale with
    | none => some r2
    | some v =>
      if 0 ≤ s ∧ s < 0xBA80 then some { r2 with x := r2.x.wr s.toNat (le 1 v) } else some (r2.flag fAgOob)

/-! ### Selector kinds (R161, R617) -/

def selReg (s : Nat) : Bool := decide (s < 8)
def selQueue (s : Nat) : Bool := decide (s / 64 = 1)
def selDesc (s : Nat) : Bool := decide (128 ≤ s) && decide (s < 144)
def selFwd (s : Nat) : Bool := decide (s = 0xC0)
def selZero (s : Nat) : Bool := decide (s = 0xC1)
def selAA (s : Nat) : Bool := decide (s = 0xC2)

/-- A queue that may be named as a source of anything but `aacmb`: FIFO or slotted (R143). -/
def Site.plainQueue (x : Site) (s : Nat) : Bool := decide ((x.qd (s % 64)).mode = 1 ∨ (x.qd (s % 64)).mode = 2)

/-- A source of `mma`, `vld` or `send` that is a queue, a descriptor or zeros, of a kind R617 and R143 allow. -/
def Site.srcOk (x : Site) (s : Nat) : Bool := (selQueue s && x.plainQueue s) || selDesc s || selZero s

/-- An access through a descriptor in ordered mode (R100). -/
def Site.orderedSel (x : Site) (s : Nat) : Bool := selDesc s && decide ((x.ag (s % 16)).mode = 2)

end Sys2Proof.Machine
end

