-- ==== Sys2Proof/Machine/SiteScalar.lean ====
section
/-! DEFINITION. Scalar, memory and sequencer instructions of a site (Table 5-13, 0x00 to 0x0E), on the instruction word as
a number. -/
namespace Sys2Proof.Machine

/-- Fields that each opcode defines (Table 5-13), as [hi:lo]; none for a reserved opcode. -/
def opFields : Nat → Option (List (Nat × Nat))
  | 0x00 | 0x01 | 0x02 => some []
  | 0x03 => some [(57, 54), (53, 50), (49, 47), (9, 0)]
  | 0x04 => some [(57, 54), (9, 0)]
  | 0x05 => some [(57, 54)]
  | 0x06 => some [(31, 0)]
  | 0x07 => some [(57, 53), (52, 49)]
  | 0x08 => some [(57, 42)]
  | 0x09 => some [(57, 50), (45, 42), (31, 0)]
  | 0x0A => some [(57, 54), (31, 0)]
  | 0x0B => some [(57, 54)]
  | 0x0C | 0x0D => some [(57, 54), (53, 50), (49, 46), (45, 45), (15, 0)]
  | 0x0E => some [(49, 46)]
  | 0x10 => some [(57, 37)]
  | 0x11 | 0x15 => some [(57, 52), (45, 42)]
  | 0x12 => some [(57, 55), (53, 41), (39, 36)]
  | 0x13 | 0x14 => some [(57, 39)]
  | 0x16 => some [(57, 52), (45, 38)]
  | 0x17 => some [(57, 46)]
  | 0x20 => some [(57, 7)]
  | 0x21 => some [(57, 50)]
  | 0x22 | 0x23 => some [(57, 47)]
  | 0x24 => some [(57, 36)]
  | 0x25 => some [(57, 42)]
  | 0x26 => some [(57, 51)]
  | 0x30 => some [(57, 5)]
  | _ => none

/-- Every bit outside the opcode's fields is zero (R164). -/
def reservedZero (w : Nat) (fs : List (Nat × Nat)) : Bool :=
  decide (w = bits w 63 58 * 2 ^ 58 + sumNat (fs.map fun f => bits w f.1 f.2 * 2 ^ f.2))

/-- `end` (R150): takes effect when every earlier instruction of its context has completed. -/
def iEnd (r : SRun) (_w : Nat) : SOut := if r.setup then r.illegal else .close r

/-- `arm`. -/
def iArm (r : SRun) (_w : Nat) : SOut := if r.setup then .armed r else (r.flag fOwnRefused).done

/-- The condition of a branch on two registers; none for code 7. -/
def brCond (c : Nat) (a b : W32) : Option Bool :=
  match c with
  | 0 => some true
  | 1 => some (decide (a = b))
  | 2 => some (decide (a ≠ b))
  | 3 => some (a.slt b)
  | 4 => some (!a.slt b)
  | 5 => some (a.ult b)
  | 6 => some (!a.ult b)
  | _ => none

/-- `br`. -/
def iBr (r : SRun) (w : Nat) : SOut :=
  match brCond (bits w 49 47) (r.sreg (bits w 57 54)) (r.sreg (bits w 53 50)) with
  | some true => .next r (bits w 9 0)
  | some false => r.done
  | none => r.illegal

/-- `dbnz`: the decision uses `RA` − 1 even when the write is discarded. -/
def iDbnz (r : SRun) (w : Nat) : SOut :=
  let v := r.sreg (bits w 57 54) - 1
  let r1 := r.setS (bits w 57 54) v
  if v ≠ 0 then .next r1 (bits w 9 0) else r1.done

/-- `rdst`: a context reads zero (R104). -/
def iRdst (r : SRun) (w : Nat) : SOut := (r.setS (bits w 57 54) (if r.setup then r.x.status else 0)).done

/-- `clrst`: clears sticky bits; nothing from a context (R104). -/
def iClrst (r : SRun) (w : Nat) : SOut :=
  if r.setup then
    ({ r with x := { r.x with sticky := r.x.sticky &&& ~~~(BitVec.ofNat 32 (bits w 31 0)) } } : SRun).done
  else r.done

/-- `setctr`: nothing from a context. -/
def iSetctr (r : SRun) (w : Nat) : SOut :=
  if r.setup then
    let k := bits w 57 53
    let c : BitVec 20 := (r.sreg (bits w 52 49)).setWidth 20
    ({ r with x := { r.x with trigs := mput {} r.x.trigs k { mget {} r.x.trigs k with counter := c } } } : SRun).done
  else r.done

/-- FN of `sop` and `sopi`; none for 14 and 15. -/
def alu (fn : Nat) (a b : W32) : Option W32 :=
  let sh := b.toNat % 32
  match fn with
  | 0 => some (a + b)
  | 1 => some (a - b)
  | 2 => some (a &&& b)
  | 3 => some (a ||| b)
  | 4 => some (a ^^^ b)
  | 5 => some (a <<< sh)
  | 6 => some (a >>> sh)
  | 7 => some (a.sshiftRight sh)
  | 8 => some (a * b)
  | 9 => some (if a.slt b then a else b)
  | 10 => some (if a.slt b then b else a)
  | 11 => some (if a.slt b then 1 else 0)
  | 12 => some (if a.ult b then 1 else 0)
  | 13 => some (if a = b then 1 else 0)
  | _ => none

/-- The result of an `alu` into a register. -/
def SRun.aluTo (r : SRun) (rd fn : Nat) (a b : W32) : SOut :=
  match alu fn a b with
  | some v => (r.setS rd v).done
  | none => r.illegal

/-- `sop`. -/
def iSop (r : SRun) (w : Nat) : SOut := r.aluTo (bits w 57 54) (bits w 45 42) (r.sreg (bits w 53 50)) (r.sreg (bits w 49 46))
/-- `sopi`. -/
def iSopi (r : SRun) (w : Nat) : SOut :=
  r.aluTo (bits w 57 54) (bits w 45 42) (r.sreg (bits w 53 50)) (BitVec.ofNat 32 (bits w 31 0))
/-- `li`. -/
def iLi (r : SRun) (w : Nat) : SOut := (r.setS (bits w 57 54) (BitVec.ofNat 32 (bits w 31 0))).done
/-- `tagr`: 0 in setup code. -/
def iTagr (r : SRun) (w : Nat) : SOut := (r.setS (bits w 57 54) (if r.setup then 0 else r.c.tag.setWidth 32)).done

/-- The address of `ld` and `st` (R165), or the run with the flag of a refusal. -/
def SRun.ldstAddr (r : SRun) (w : Nat) (write : Bool) : Except SRun Nat :=
  let ra := (r.sreg (bits w 53 50)).toNat
  let ofs := bits w 15 0
  if bit w 45 then (if r.setup then .ok ((ra + ofs) % 2 ^ 32) else .error (r.flag fOwnRefused))
  else
    let g := r.x.ag (bits w 49 46)
    if g.mode = 2 ∧ ¬ r.ownsAG g then .error (r.flag fOwnRefused)
    else if g.mode = 3 ∨ (write ∧ g.mode = 1) then .error (r.flag fAgOob)
    else .ok ((g.base + (if g.mode = 0 then r.c.tag.toNat % 4 * g.pitch else 0) + ra + ofs) % 2 ^ 32)

/-- `ld` (R165): a refused or out-of-range read gives 0. -/
def iLd (r : SRun) (w : Nat) : SOut :=
  match r.ldstAddr w false with
  | .error r1 => (r1.setS (bits w 57 54) 0).done
  | .ok a =>
    if a % 4 = 0 ∧ a + 4 ≤ 0xC000 then (r.setS (bits w 57 54) (BitVec.ofNat 32 (r.x.rd a 4))).done
    else ((r.flag fAgOob).setS (bits w 57 54) 0).done

/-- `st` (R152, R165): a refused or out-of-range write is discarded. -/
def iSt (r : SRun) (w : Nat) : SOut :=
  match r.ldstAddr w true with
  | .error r1 => r1.done
  | .ok a =>
    if a % 4 = 0 ∧ a + 4 ≤ 0xBA80 then
      ({ r with x := r.x.wr a (le 4 (r.sreg (bits w 57 54)).toNat) } : SRun).done
    else (r.flag fAgOob).done

/-- `agrst` (R155): the walk returns to point 0; refused where the trigger does not own an ordered-mode descriptor. -/
def iAgrst (r : SRun) (w : Nat) : SOut :=
  let k := bits w 49 46
  let g := r.x.ag k
  if g.mode = 2 ∧ ¬ r.ownsAG g then (r.flag fOwnRefused).done
  else
    (r.putWalk k {}).done

end Sys2Proof.Machine
end

