-- ==== Sys2Proof/Machine/SiteVector.lean ====
section
/-! DEFINITION. Vector, tile, accumulator, cube and send instructions of a site (Table 5-13, 0x10 to 0x30), on the
instruction word as a number. -/
namespace Sys2Proof.Machine

def fpOne : W32 := 0x3F800000#32

/-- FN of `vop`, lane by lane. -/
def vopLane (fn : Nat) (a b c : W32) : W32 :=
  let (x, y) := (ofFp32 a, ofFp32 b)
  match fn with
  | 0 => laneAdd a b
  | 1 => laneSub a b
  | 2 => laneMul a b
  | 3 => laneFma a b c
  | 4 => laneMin a b
  | 5 => laneMax a b
  | 6 => a &&& 0x7FFFFFFF#32
  | 7 => a ^^^ 0x80000000#32
  | 8 => if fpEq x y then fpOne else 0
  | 9 => if fpLt x y then fpOne else 0
  | 10 => if fpLt x y ∨ fpEq x y then fpOne else 0
  | 11 => if c &&& 0x7FFFFFFF#32 = 0 then b else a
  | 12 => a + b
  | 13 => a &&& b
  | 14 => a ||| b
  | _ => a ^^^ b

/-- `vop`. -/
def iVop (r : SRun) (w : Nat) : SOut :=
  let (va, vb, vc) := (bits w 54 52, bits w 51 49, bits w 48 46)
  let b (l : Nat) : W32 := if bit w 41 then r.sreg (bits w 40 37) else r.lane vb l
  (r.setV (bits w 57 55) ((List.range 16).map fun l => vopLane (bits w 45 42) (r.lane va l) (b l) (r.lane vc l))).done

/-- `vtr`. -/
def iVtr (r : SRun) (w : Nat) : SOut :=
  if 5 < bits w 45 42 then r.illegal
  else (r.setV (bits w 57 55) ((r.vec (bits w 54 52)).map (laneTr (bits w 45 42)))).done

/-- One level of the fixed tree (R122). -/
def pairUp (f : W32 → W32 → W32) : List W32 → List W32
  | a :: b :: l => f a b :: pairUp f l
  | l => l

/-- `vhred` (R122). -/
def iVhred (r : SRun) (w : Nat) : SOut :=
  let fn := bits w 45 42
  if 2 < fn then r.illegal
  else
    let f := if fn = 0 then laneAdd else if fn = 1 then laneMin else laneMax
    let v := (pairUp f (pairUp f (pairUp f (pairUp f (r.vec (bits w 54 52)))))).headD 0
    (r.setV (bits w 57 55) (v :: List.replicate 15 0)).done

/-- `vperm`: 2 with `AMT` above 3, and 4 to 15, are illegal. -/
def iVperm (r : SRun) (w : Nat) : SOut :=
  let (pat, amt) := (bits w 45 42, bits w 41 38)
  let va := bits w 54 52
  let put (f : Nat → Nat) : SOut := (r.setV (bits w 57 55) ((List.range 16).map fun i => r.lane va (f i))).done
  match pat with
  | 0 => put fun _ => amt
  | 1 => put fun i => (i + amt) % 16
  | 2 => if 3 < amt then r.illegal else put fun i => i ^^^ 2 ^ amt
  | 3 => put fun i => 15 - i
  | _ => r.illegal

/-- `vmov`. -/
def iVmov (r : SRun) (w : Nat) : SOut :=
  let (v, s, l) := (bits w 57 55, bits w 54 51, bits w 50 47)
  if bit w 46 then (r.setV v (listSet (r.vec v) l (r.sreg s))).done
  else (r.setS s (r.lane v l)).done

/-! ### vld, vpack, vmx -/

/-- Registers that a format's elements fill or come from. -/
def regsOf (fmt : Nat) : Nat := match fmtWidth fmt with | 8 | 6 => 2 | 4 => 4 | _ => 1

/-- Registers VD, VD + 1, … from lanes. -/
def SRun.setVs (r : SRun) (v : Nat) : Nat → List W32 → SRun
  | 0, _ => r
  | n + 1, l => (r.setV v (l.take 16)).setVs (v + 1) n (l.drop 16)

/-- `vld`: one beat, or two for the 32-bit formats. -/
def iVld (r : SRun) (w : Nat) : SOut :=
  let (vd, src, f, sd) := (bits w 57 55, bits w 53 46, bits w 45 41, bits w 39 36)
  if 0xE < f ∨ 8 < vd + regsOf f ∨ ¬ r.x.srcOk src then r.illegal
  else
    let n := if isBlock f then (if f = 9 then 2 else 1) else 0
    match r.beat 0 src { n := n, vld := true, fmt := f, desc := sd } with
    | .wait => .keep r
    | .stop code q => .stop r code (some q)
    | .ok v sc r1 =>
      let held := r1.c.held ++ [v]
      let r2 : SRun := { r1 with c := { r1.c with held := held } }
      if fmtWidth f = 32 ∧ held.length < 2 then .keep r2
      else
        let ew := fmtWidth f
        let all := held.zipIdx.foldl (fun (a : Nat) p => a + p.1.toNat * 2 ^ (256 * p.2)) 0
        let lanes := (List.range (16 * regsOf f)).map fun i => widen f (sc.getD (i / 32) 0) (elemAt ew all i)
        (({ r2 with c := { r2.c with held := [] } } : SRun).setVs vd (regsOf f) lanes).done

/-- The rounding of a pack or an encode (R73, R74, R321, R322): the mode in force, and whether `CV_NAN` is set. -/
def SRun.rndMode (r : SRun) (m : Nat) : Nat × Bool :=
  if m ≠ 2 then (m, false)
  else if r.setup ∨ r.env.inv then (0, false)
  else if 1 < bits (r.sreg 12).toNat 31 28 then (0, true)
  else (2, false)

/-- The draw of element e (R321). -/
def SRun.draw (r : SRun) (e : Nat) : Nat :=
  let s12 := (r.sreg 12).toNat
  let s14 := (r.sreg 14).toNat
  let n0 : Nat := (r.sreg 13).toNat + bits s14 10 0 * 2 ^ 32
  drawOf r.env.seed (bits s12 31 28) (bits s12 23 0) (r.sreg 11).toNat (toTwos 43 ((n0 : Int) + (e : Int) * ofTwos 16 (bits s14 31 16)))

/-- Elements of the source registers of `vpack` and `vmx`: lane e mod 16 of VA + ⌊e / 16⌋. -/
def SRun.elem (r : SRun) (va e : Nat) : W32 := r.lane (va + e / 16) (e % 16)

/-- Codes that `vpack` takes (R168). -/
def packFmt (f : Nat) : Bool := decide (f ≤ 4 ∨ f = 0xB ∨ f = 0xC ∨ f = 0xE)

/-- One element narrowed by `vpack`; FP32 is copied. -/
def packElem (f : Nat) (rd : Rnd) (ovf : Bool) (v : W32) : Nat × Cv :=
  if f = 0 then (v.toNat, { nan := decide (rd.mode = 3) })
  else match fpFmtOf f with
    | some g => g.narrow rd ovf (ofFp32 v)
    | none =>
      let (lo, hi) : Int × Int := if f = 0xB then (-128, 127) else (-2147483648, 2147483647)
      let (x, cv) := narrowInt lo hi rd (ofFp32 v)
      (toTwos (fmtWidth f) x, cv)

/-- `vpack`. -/
def iVpack (r : SRun) (w : Nat) : SOut :=
  let (va, dst, f) := (bits w 57 55, bits w 54 47, bits w 46 42)
  if ¬ packFmt f ∨ 8 < va + regsOf f ∨ ¬ (selReg dst ∨ selDesc dst) then r.illegal
  else
    let (m, bad) := r.rndMode (bits w 41 40)
    let es := (List.range (16 * regsOf f)).map fun e => packElem f ⟨m, if m = 2 then r.draw e else 0⟩ (bit w 39) (r.elem va e)
    let cv := es.foldl (fun (a : Cv) p => a.or p.2) { nan := bad }
    let all := packElems (fmtWidth f) (es.map (·.1))
    let beats := if fmtWidth f = 32 then 2 else 1
    if selReg dst then
      ((r.cv cv).setV dst ((List.range 16).map fun i => BitVec.ofNat 32 (elemAt 32 all i))).done
    else
      match r.writeBeat (dst % 16) (le 32 (bits all (256 * r.c.beats + 255) (256 * r.c.beats))) none f with
      | none => .keep r
      | some r1 =>
        if r1.c.beats + 1 < beats then .keep { r1 with c := { r1.c with beats := r1.c.beats + 1 } }
        else (({ r1 with c := { r1.c with beats := 0 } } : SRun).cv cv).done

/-- `vmx`: one block of 32 elements with its scale byte (R48, R51, R156). -/
def iVmx (r : SRun) (w : Nat) : SOut :=
  let (va, dst, f) := (bits w 57 55, bits w 54 47, bits w 46 42)
  if ¬ isBlock f ∨ 8 < va + 2 ∨ ¬ selDesc dst then r.illegal
  else
    let (m, bad) := r.rndMode (bits w 41 40)
    let rd (e : Nat) : Rnd := ⟨m, if m = 2 then r.draw e else 0⟩
    let xs := (List.range 32).map fun e => ofFp32 (r.elem va e)
    let (scale, codes, cv) := if f = 0xD then umxEncode rd xs else mxEncode f rd (bit w 39) xs
    match r.writeBeat (dst % 16) (le (blkBytes f) (packElems (fmtWidth f) codes)) (some scale) f with
    | none => .keep r
    | some r1 => (r1.cv (cv.or { nan := bad })).done

/-! ### Tiles -/

/-- `tclr`; `KIND` 3 is illegal. -/
def iTclr (r : SRun) (w : Nat) : SOut :=
  let (t, k) := (bits w 57 52, bits w 51 50)
  if k = 3 then r.illegal
  else if r.owns t then (r.clearTile t k).done
  else (r.flag fOwnRefused).done

/-- `tmov` (R120). -/
def iTmov (r : SRun) (w : Nat) : SOut :=
  let (t, v) := (bits w 57 52, bits w 51 49)
  if bit w 48 then
    (if r.owns t then ((r.setTile t (r.vec v)).setKind t (b2n (bit w 47)) (r.accSat t)).done else (r.flag fOwnRefused).done)
  else if ¬ r.owns t then ((r.flag fOwnRefused).setV v (List.replicate 16 0)).done
  else if r.kind t = 2 then ((r.flag fCvNan).setV v (List.replicate 16 0)).done
  else (r.setV v (r.tile t)).done

/-- The value that a lane deposits. -/
def depositVal (int : Bool) (v : W32) : Fp := if int then fpOfInt v.toInt 0 else ofFp32 v

/-- `aadep` (Table 4-5). -/
def iAadep (r : SRun) (w : Nat) : SOut :=
  let (t, k) := (bits w 57 52, bits w 51 51)
  if ¬ r.owns t then (r.flag fOwnRefused).done
  else
    let r1 := r.toAA t
    let (v, rep) := aaDeposit (r1.word t k) ((r1.vec (bits w 50 48)).map (depositVal (bit w 47)))
    ((r1.setWord t k v).report rep).done

/-- A word combined into a word of a tile. -/
def SRun.combineInto (r : SRun) (t k : Nat) (v : W256) : SOut :=
  if ¬ r.owns t then (r.flag fOwnRefused).done
  else
    let r1 := r.toAA t
    let (x, rep) := aaCombine (r1.word t k) v
    ((r1.setWord t k x).report rep).done

/-- `aacmb`: a combine-queue entry, or a word of another tile (R143, R166). -/
def iAacmb (r : SRun) (w : Nat) : SOut :=
  let (t, k, src) := (bits w 57 52, bits w 51 51, bits w 50 43)
  if selAA src then
    let (v, r1) := r.readWord (bits w 42 37) (bits w 36 36)
    r1.combineInto t k v
  else if selQueue src ∧ (r.x.qd (src % 64)).mode = 3 then
    match r.takeToken (src % 64) {} with
    | .wait => .keep r
    | .stop code q => .stop r code (some q)
    | .ok v _ r1 => r1.combineInto t k v
  else r.illegal

/-- `aacvt` (R84, R85). -/
def iAacvt (r : SRun) (w : Nat) : SOut :=
  let f := bits w 47 43
  if ¬ (f ≤ 4 ∨ f = 0xC) then r.illegal
  else
    let (v, r1) := r.readWord (bits w 57 52) (bits w 51 51)
    let (x, cv, rep) := aaConvert v f (bit w 42)
    (((r1.cv cv).report rep).setV (bits w 50 48) (BitVec.ofNat 32 x :: List.replicate 15 0)).done

/-- `aaclr`. -/
def iAaclr (r : SRun) (w : Nat) : SOut :=
  let t := bits w 57 52
  if ¬ r.owns t then (r.flag fOwnRefused).done
  else ((r.toAA t).setWord t (bits w 51 51) aaZero).done

/-! ### The cube (R60 to R63, R117 to R119, R127 to R129, R166) -/

/-- One beat into a tile: its 16 new values, and whether one saturated. -/
def cubeBeat (cl : CubeClass) (fa fb : Nat) (sa sb : List Nat) (a b : W256) (old : List W32) : List W32 × Bool :=
  let out := (List.range 16).map fun i =>
    cubeOut cl fa fb (sa.getD (i / 4) 0) (sb.getD (i % 4) 0) (i / 4) (i % 4) (old.getD i 0) a.toNat b.toNat
  (out.map (·.1), out.any (·.2))

/-- In plane mode an operand goes on to the neighbour: what the forwarding path brought, and what a site of the west
column (A) or north row (B) takes through its own port, unless the site is the last of its row or column (R128). An `mma` of such a
site whose operands are all its own forwards them as any other does (DESIGN CHOICE, assumption 126). -/
def forwards (env : SEnv) (pos sel : Nat) : Bool :=
  match env.plane with
  | none => false
  | some (x, y) => if pos = 0 then (selFwd sel || decide (x = 0)) && decide (x < 31) else (selFwd sel || decide (y = 0)) && decide (y < 31)

/-- The tile made ready as the first beat executes: cleared by `ZERO` (R166), or taken as zero where its kind does not match
(R119). -/
def SRun.mmaTile (r : SRun) (t k : Nat) (zero : Bool) : SRun :=
  if ¬ r.owns t then r.flag fOwnRefused
  else if zero then r.clearTile t k
  else if r.kind t = k then r
  else ((r.setTile t (List.replicate 16 0)).setKind t k (r.accSat t)).flag fCvNan

/-- One beat of `mma`: both operands, or nothing. -/
def SRun.mmaBeat (r : SRun) (w : Nat) (cl : CubeClass) : Except SOut SRun :=
  let (t, sa, sb, fa, fb) := (bits w 57 52, bits w 51 44, bits w 43 36, bits w 35 31, bits w 30 26)
  let n := if cl.block then 4 else 0
  let (fe, fs) := (forwards r.env 0 sa, forwards r.env 1 sb)
  let sent (south : Bool) := (r.fwd.filter fun f => f.1 = south).length
  if (fe ∧ r.env.eastRoom ≤ sent false) ∨ (fs ∧ r.env.southRoom ≤ sent true) then .error (.keep r)
  else match r.beat 0 sa { n := n, fmt := fa, desc := bits w 14 11 } with
    | .wait => .error (.keep r)
    | .stop code q => .error (.stop r code (some q))
    | .ok a ea r1 =>
      match r1.beat 1 sb { n := n, fmt := fb, desc := bits w 10 7 } with
      | .wait => .error (.keep r)
      | .stop code q => .error (.stop r code (some q))
      | .ok b eb r2' =>
        let r2 := if r2'.c.beats = 0 then r2'.mmaTile t (if cl = .i8 then 1 else 0) (bit w 15) else r2'
        let r3 : SRun := { r2 with
          fwd := r2.fwd ++ (if fe then [(false, r2.c.tag, a)] else []) ++ (if fs then [(true, r2.c.tag, b)] else []),
          c := { r2.c with beats := r2.c.beats + 1 } }
        if r3.owns t then
          let (v, sat) := cubeBeat cl fa fb ea eb a b (r3.tile t)
          .ok ((r3.setTile t v).setKind t (r3.kind t) (r3.accSat t || sat))
        else .ok r3

/-- The remaining beats of `mma`, as far as operands are there. -/
def SRun.mmaBeats (w : Nat) (cl : CubeClass) : Nat → SRun → SOut
  | 0, r => ({ r with c := { r.c with beats := 0 } } : SRun).done
  | n + 1, r =>
    match r.mmaBeat w cl with
    | .ok r1 => SRun.mmaBeats w cl n r1
    | .error o => o

/-- `mma`. -/
def iMma (r : SRun) (w : Nat) : SOut :=
  let (sa, sb) := (bits w 51 44, bits w 43 36)
  if ¬ (r.x.srcOk sa ∨ selFwd sa) ∨ ¬ (r.x.srcOk sb ∨ selFwd sb) then r.illegal
  else match cubeClass (bits w 35 31) (bits w 30 26) with
    | none => (r.flag fCvNan).done
    | some cl =>
      if (selFwd sa ∨ selFwd sb) ∧ r.env.plane = none then (r.flag fCvNan).done
      else SRun.mmaBeats w cl (bits w 25 16 + 1 - r.c.beats) r

/-! ### send (R134, R157, R167) -/

/-- The token goes to the local port. -/
def SRun.emitTok (r : SRun) (w : Nat) (pay : W256) : SOut :=
  let e := mget 0 r.x.work (112 + bits w 45 40)
  let kind := bits w 57 54
  let tag := toTwos 20 (((if r.setup then 0 else r.c.tag.toNat : Nat) : Int) + ofTwos 8 (bits w 39 32))
  let seq := if bit w 31 then bits (r.sreg (bits w 30 27)).toNat 9 0 else bits w 26 17
  let wm := bits w 16 13
  let low := match kind with
    | 0 | 1 => dataLow wm seq
    | 3 => 16 + seq % 16
    | 4 => wm % 4 * 1024
    | _ => seq
  ({ r with flits := r.flits ++ [({ hdr := routeHdr e r.x.epoch.toNat tag kind low, payload := pay }, false)] } : SRun).done

/-- `send`. -/
def iSend (r : SRun) (w : Nat) : SOut :=
  let (kind, src) := (bits w 57 54, bits w 53 46)
  let e := (mget 0 r.x.work (112 + bits w 45 40)).toNat
  if ¬ (kind = 0 ∨ kind = 1 ∨ kind = 3 ∨ kind = 4 ∨ kind = 5) then r.illegal
  else if kind = 3 ∧ ¬ selAA src then r.illegal
  else if kind ≠ 3 ∧ kind ≠ 4 ∧ ¬ (selReg src ∨ r.x.srcOk src) then r.illegal
  else if ¬ bit e 23 ∨ bit e 22 ≠ decide (kind = 1) then (r.flag fRouteOff).done
  else if ¬ r.env.canSend then .keep r
  else if kind = 4 then r.emitTok w 0
  else if kind = 3 then
    let (v, r1) := r.readWord (bits w 12 7) (bits w 6 6)
    r1.emitTok w v
  else if selReg src then
    r.emitTok w (payOf ((List.range 4).map fun i =>
      (r.lane src (8 * bits w 5 5 + 2 * i)).toNat + (r.lane src (8 * bits w 5 5 + 2 * i + 1)).toNat * 2 ^ 32))
  else match r.beat 0 src {} with
    | .wait => .keep r
    | .stop code q => .stop r code (some q)
    | .ok v _ r1 => r1.emitTok w v

end Sys2Proof.Machine
end

