-- ==== Sys2Proof/Machine/Site.lean ====
section
/-! DEFINITION. How a site runs: issue, ordering, contexts, triggers, the acceptance of tokens, control operations, drain,
gating and scrub (chapters 4 and 5). -/
namespace Sys2Proof.Machine

/-! ### Corrections and stops (R108 to R110, R170) -/

/-- Corrections, one for each word corrected, counted in the isle's counters and in the site's own (R108). -/
def Dev.countEcc (d : Dev) (t : TimeBase) (s : Nat) (e : Ecc) : Dev :=
  let k := d.physSite s
  let h := d.siteHealth k
  if e.one + e.two = 0 then d
  else
    let times := if e.two = 0 then h.doubleTimes else lastHour t.ns (h.doubleTimes ++ List.replicate e.two t.ns)
    ((d.setSiteHealth k { h with single := h.single + e.one, double := h.double + e.two, doubleTimes := times }).bump
      0x2D00 (0x20 + siteIsle s) (e.one + e.two)).bump 0x2D00 (0x24 + siteIsle s) e.two

/-- An uncorrectable word of a site (R109): SRAM_UNCORRECTABLE; the site is marked (R590). -/
def Dev.siteUncorrectable (d : Dev) (t : TimeBase) (s tag place : Nat) : Dev :=
  let k := d.physSite s
  (d.setSiteHealth k { d.siteHealth k with hard := true }).siteFault t s 0x8005 tag place

/-! ### Triggers (Table 5-6) -/

structure TrigDesc where
  pc : Nat
  epc : Nat
  opq : List Nat
  step : Nat
  limit : Nat
  en : Bool
  deriving DecidableEq, Repr

def trigOf (w : Nat) : TrigDesc :=
  { pc := bits w 9 0, epc := bits w 19 10,
    opq := (if bit w 26 then [bits w 25 20] else []) ++ (if bit w 33 then [bits w 32 27] else []) ++
      (if bit w 40 then [bits w 39 34] else []),
    step := bits w 48 41, limit := bits w 50 49 + 1, en := bit w 51 }

def Site.trig (x : Site) (k : Nat) : Trigger := mget {} x.trigs k
def Site.trigD (x : Site) (k : Nat) : TrigDesc := trigOf (x.trig k).word.toNat

/-- Tag a precedes tag b (section 5.2). -/
def tagPrecedes (a b : BitVec 20) : Bool := let k := (b - a).toNat; decide (1 ≤ k) && decide (k ≤ 2 ^ 19)

/-- Open contexts of a trigger, oldest first. -/
def Site.openOf (x : Site) (k : Nat) : List Nat :=
  x.order.filter fun c => match mget none x.ctxs c with | some v => decide (v.trig = k) | none => false

/-- The tag that a late token is checked against (R149): of the oldest open context, else the start counter. -/
def Site.refTag (x : Site) (k : Nat) : BitVec 20 :=
  match x.openOf k with
  | c :: _ => (mget none x.ctxs c).elim 0 (·.tag)
  | [] => (x.trig k).counter

/-- The armed trigger whose operand queue q is. -/
def Site.consumer (x : Site) (q : Nat) : Option Nat :=
  (List.range 32).find? fun k => (x.trigD k).en && (x.trigD k).opq.contains q

/-- A token of a tag is late at a slotted or combine operand queue (R149). -/
def Site.late (x : Site) (q : Nat) (tag : BitVec 20) : Bool :=
  x.armed && decide ((x.qd q).mode = 2 ∨ (x.qd q).mode = 3) &&
    (match x.consumer q with | some k => tagPrecedes tag (x.refTag k) | none => false)

/-- A FIFO operand queue whose trigger has no context open and whose head has another tag than the start counter (R149). -/
def Site.fifoBad (x : Site) : Option (Nat × BitVec 20) :=
  if ¬ x.armed then none
  else ((List.range 32).flatMap fun k =>
    let td := x.trigD k
    if ¬ td.en ∨ x.openOf k ≠ [] then []
    else td.opq.filterMap fun q =>
      if (x.qd q).mode = 1 ∧ 0 < (x.q q).len then
        match x.ent q (x.q q).head with
        | some e => if e.tag ≠ (x.trig k).counter then some (q, e.tag) else none
        | none => none
      else none).head?

/-- A token held in a slotted or combine operand queue that is late when the tag store is armed (R149). -/
def Site.heldLate (x : Site) : Option (Nat × BitVec 20) :=
  ((List.range 64).flatMap fun q => (x.q q).entries.filterMap fun (_, e) => match e with
    | some v => if ¬ v.reserved ∧ x.late q v.tag then some (q, v.tag) else none
    | none => none).head?

/-- The site stops with TAG_SEQUENCE where a check finds a token. -/
def Dev.tagStop (d : Dev) (t : TimeBase) (s : Nat) (f : Option (Nat × BitVec 20)) : Dev :=
  match f with
  | some (q, tag) => d.siteFault t s 0x2008 tag.toNat q
  | none => d

/-- first_present (section 5.4.2): none, or whether the token is an empty one. -/
def Site.firstPresent (x : Site) (q : Nat) (c : BitVec 20) : Option Bool :=
  let dsc := x.qd q
  let i := if dsc.mode = 1 then (x.q q).head else dsc.slot c.toNat
  match x.ent q i with
  | none => none
  | some e =>
    if e.reserved ∨ e.tag ≠ c then none
    else if dsc.mode = 1 then (if 0 < (x.q q).len then some (decide (e.kind = 4)) else none)
    else if dsc.mode = 2 then some (decide (e.kind = 4))
    else if dsc.mode = 3 ∧ complete dsc e then some false
    else none

/-- A free context. -/
def Site.freeCtx (x : Site) : Option Nat := (List.range 4).find? fun c => mget none x.ctxs c = none

/-- ready(T) (section 5.4.2). -/
def Site.ready (x : Site) (k : Nat) : Bool :=
  let td := x.trigD k
  td.en && x.armed && x.stopped.isNone && !x.controlStop && x.setup.isNone && decide ((x.openOf k).length < td.limit) &&
    x.freeCtx.isSome && td.opq.all fun q => (x.firstPresent q (x.trig k).counter).isSome

/-- The trigger that fires: lowest start counter, then lowest entry (R97). -/
def Site.choice (x : Site) : Option Nat :=
  ((List.range 32).filter x.ready).foldl (fun a k => match a with
    | none => some k
    | some j => if (x.trig k).counter.toNat < (x.trig j).counter.toNat then some k else some j) none

/-- TRIGGER_FIRE (R148): a context opens; the counter becomes t + step (R95). -/
def Site.fire (x : Site) (k c : Nat) : Site :=
  let td := x.trigD k
  let tr := x.trig k
  let empty := td.opq.any fun q => x.firstPresent q tr.counter = some true
  { x with
    ctxs := mput none x.ctxs c (some { trig := k, tag := tr.counter, pc := if empty then td.epc else td.pc }),
    order := x.order ++ [c],
    trigs := mput {} x.trigs k { tr with counter := tr.counter + BitVec.ofNat 20 td.step } }

/-- TRIGGER_FIRE. -/
def execTriggerFire (s : SiteId) (st : State) : Host.Outcome State Fault Refusal :=
  act st fun t d =>
    let x := d.site s.val
    match x.fifoBad with
    | some f => if x.stopped.isNone then d.tagStop t s.val (some f) else d
    | none =>
      match x.choice, x.freeCtx with
      | some k, some c => d.setSite s.val (x.fire k c)
      | _, _ => d

/-! ### Ending an iteration and arming (R149, R150) -/

/-- Frees every entry of a tag in an operand queue; whether a token other than an empty one was freed. -/
def Site.freeTag (x : Site) (q : Nat) (tag : BitVec 20) : Site × Bool :=
  let dsc := x.qd q
  if dsc.mode = 1 then
    (List.range dsc.per).foldl (fun (a : Site × Bool) _ =>
      match a.1.ent q (a.1.q q).head with
      | some e => if 0 < (a.1.q q).len ∧ e.tag = tag then (a.1.popHead q, a.2 || decide (e.kind ≠ 4)) else a
      | none => a) (x, false)
  else
    (List.range dsc.per).foldl (fun (a : Site × Bool) j =>
      let i := dsc.slot tag.toNat + j
      match a.1.ent q i with
      | some e => if ¬ e.reserved ∧ e.tag = tag then (a.1.freeEntry q i, a.2 || decide (e.kind ≠ 4)) else a
      | none => a) (x, false)

/-- A context closes. -/
def Site.closeCtx (x : Site) (c : Nat) : Site :=
  match mget none x.ctxs c with
  | none => x
  | some v =>
    let (y, left) := (x.trigD v.trig).opq.foldl (fun (a : Site × Bool) q =>
      let (z, b) := a.1.freeTag q v.tag
      (z, a.2 || b)) (x, false)
    let y := if left then y.flag fTokLeft else y
    { y with ctxs := mput none y.ctxs c none, order := y.order.filter (· ≠ c) }

/-- `arm` in setup code: the tag store is armed and setup code ends; forced mode ends (R311). -/
def Site.arm (x : Site) : Site := { x with armed := true, setup := none, forced := false }

/-! ### Issue (R98 to R100) -/

/-- What surrounds a site's instructions: its job's plan, its place in a plane, its neighbours and its local port. The W and the N port
hold three operands each on the forwarding path, apart from the buffers and credits of the mesh (DESIGN CHOICE, assumption 127). -/
def Dev.siteEnv (d : Dev) (s : Nat) : SEnv :=
  let plan := (d.jobOfSite s).bind fun j => (d.job j).plan
  let corner := plan.bind fun p => (stageRecs p.image).findSome? fun r =>
    (r.planes.map (p.reef r.isle)).find? fun n => [n, n + 1, n + 6, n + 7].contains (siteReef s)
  { inv := plan.elim false (·.flag 0), seed := plan.elim 0 (·.seed),
    plane := corner.map fun n => (siteX s - n % 6 * 16, siteY s - n % 36 / 6 * 16),
    eastRoom := 3 - (d.site (s + 1)).fwdW.length, southRoom := 3 - (d.site (s + 96)).fwdN.length,
    canSend := d.canInject (siteNode s) 0 }

/-- An ordered instruction (R100). -/
def Site.ordered (x : Site) (w : Nat) : Bool :=
  let op := bits w 63 58
  let scale (f src sd : Nat) : Bool := isBlock f && !selDesc src && decide ((x.ag sd).mode = 2)
  decide (0x20 ≤ op ∧ op ≤ 0x26) || decide (op = 0x0C ∨ op = 0x0D) ||
    (decide (op = 0x0E) && decide ((x.ag (bits w 49 46)).mode = 2)) ||
    (decide (op = 0x12) && (x.orderedSel (bits w 53 46) || scale (bits w 45 41) (bits w 53 46) (bits w 39 36))) ||
    (decide (op = 0x13 ∨ op = 0x14) && x.orderedSel (bits w 54 47)) ||
    (decide (op = 0x30) && (selAA (bits w 53 46) || (decide (bits w 57 54 ≠ 4) && x.orderedSel (bits w 53 46))))

/-- The context is the oldest open context of its trigger. -/
def Site.oldest (x : Site) (c : Nat) : Bool :=
  match mget none x.ctxs c with
  | some v => decide ((x.openOf v.trig).head? = some c)
  | none => false

/-- The unit of an opcode at which an instruction may wait (R99): 1 the vector pipeline, 2 the cube, 3 the inject port. -/
def unitOf (op : Nat) : Option Nat :=
  if op = 0x20 then some 2 else if op = 0x30 then some 3
  else if (0x10 ≤ op ∧ op ≤ 0x17) ∨ (0x21 ≤ op ∧ op ≤ 0x26) then some 1 else none

/-- Who issues, as a number. -/
def whoNo : Who → Nat
  | .ctx k => k.val
  | .setup => 4

/-- The unit accepts the instruction: no instruction that another has issued before waits there (R99: units accept work in the order of
issue). -/
def Site.unitFree (x : Site) (w : Who) (op : Nat) : Bool :=
  match unitOf op with
  | none => true
  | some u => let h := mget 0 x.units u; decide (h = 0 ∨ h = whoNo w + 1)

/-- What waited of a stream waits no more: its instruction is executed now. -/
def Site.offUnits (x : Site) (w : Who) : Site := { x with units := x.units.filter fun e => decide (e.2 ≠ whoNo w + 1) }

/-- An instruction waits at its unit (R99). -/
def SRun.waitsAt (r : SRun) (w : Who) (op : Nat) : SRun :=
  match unitOf op with
  | none => r
  | some u => { r with x := { r.x with units := mput 0 r.x.units u (whoNo w + 1) } }

/-- The end of an instruction as its unit sees it. -/
def SOut.atUnit (o : SOut) (w : Who) (op : Nat) : SOut :=
  match o with
  | .keep r => .keep (r.waitsAt w op)
  | o => o

/-- The running instruction stream: a context, or setup code. -/
def Site.runner (x : Site) (w : Who) : Option Context :=
  match w with
  | .setup => x.setup
  | .ctx k => mget none x.ctxs k.val

/-- What a run leaves: the site, its context, flits at the local port, forwarded operands, reports. -/
def Dev.writeBack (d : Dev) (t : TimeBase) (s : Nat) (w : Who) (r : SRun) : Dev :=
  let x := match w with
    | .setup => { r.x with setup := some r.c }
    | .ctx k => { r.x with ctxs := mput none r.x.ctxs k.val (some r.c) }
  let d1 := d.setSite s x
  let d2 := r.flits.foldl (fun (d : Dev) f => d.inject (siteNode s) f.1 f.2) d1
  let d3 := r.fwd.foldl (fun (d : Dev) f =>
    if f.1 then d.setSite (s + 96) { d.site (s + 96) with fwdN := (d.site (s + 96)).fwdN ++ [f.2] }
    else d.setSite (s + 1) { d.site (s + 1) with fwdW := (d.site (s + 1)).fwdW ++ [f.2] }) d2
  d3.aaReport t (d3.jobOfSite s) (siteIsle s) 0 (siteWhere s) r.c.tag.toNat r.rep

/-- The end of an instruction. -/
def Dev.siteEnds (d : Dev) (t : TimeBase) (s : Nat) (w : Who) (o : SOut) : Dev :=
  match o with
  | .keep r => d.writeBack t s w r
  | .next r pc =>
    let d1 := d.writeBack t s w { r with c := { r.c with pc := pc } }
    if 1024 ≤ pc then d1.siteFault t s 0x200B r.c.tag.toNat r.c.pc else d1
  | .close r =>
    let d1 := d.writeBack t s w r
    match w with
    | .setup => d1
    | .ctx k =>
      let y := (d1.site s).closeCtx k.val
      (d1.setSite s y).tagStop t s y.fifoBad
  | .armed r =>
    let d1 := d.writeBack t s w r
    let y := (d1.site s).arm
    ((d1.setSite s y).tagStop t s (y.heldLate.orElse fun _ => y.fifoBad)).forcedEnd t s
  | .stop r code place =>
    if code = 0x8005 then d.siteUncorrectable t s r.c.tag.toNat (place.getD r.c.pc)
    else d.siteFault t s code r.c.tag.toNat (place.getD r.c.pc)

/-- The next instruction of a context or of setup code, when its opcode is `op`: a stopped site issues nothing (R109), an
ordered instruction waits for its context to be the oldest of its trigger (R100), a unit takes no instruction before one that waits there
(R99), a word that no opcode or a reserved bit
makes illegal stops the site (R164, R170). -/
def Dev.siteInstr (d : Dev) (t : TimeBase) (s : Nat) (w : Who) (e : Ecc) (op : Nat) (f : SRun → Nat → SOut) : Dev :=
  let x := d.site s
  match x.runner w with
  | none => d
  | some c =>
    let word := (mget 0 x.prog c.pc).toNat
    let isSetup : Bool := match w with | .setup => true | _ => false
    let first : Bool := match w with | .ctx k => x.oldest k.val | .setup => true
    if x.stopped.isSome ∨ x.controlStop then d
    else match opFields (bits word 63 58) with
      | none => d.siteFault t s 0x200B c.tag.toNat c.pc
      | some fs =>
        if bits word 63 58 ≠ op then d
        else if ¬ isSetup ∧ x.ordered word ∧ ¬ first then d
        else if ¬ x.unitFree w op then d
        else if e.bad then d.siteUncorrectable t s c.tag.toNat c.pc
        else if ¬ reservedZero word fs then d.siteFault t s 0x200B c.tag.toNat c.pc
        else (d.countEcc t s e).siteEnds t s w
          ((f { x := x.offUnits w, c := c, setup := isSetup, env := d.siteEnv s } word).atUnit w op)

/-! ### Acceptance of tokens (R139 to R142, R149, R154, R182) -/

inductive Accept where
  /-- not accepted: the token waits (R116) -/
  | wait
  | stop (code : Nat)
  /-- accepted; what a combination reports -/
  | ok (x : Site) (rep : AARep)
  deriving DecidableEq, Repr

/-- The payload with the words whose `WMASK` bit is 0 as zero (R133). -/
def maskPay (m : Nat) (p : W256) : W256 := payOf ((List.range 4).map fun i => if bit m i then payWord p i else 0)

/-- The multicast agent of which a flit is a copy: its reef within the isle (R211). -/
def Transit.agent (x : Transit) : Option Nat := match x.src with | .reef r => if x.copy then some (r.val % 36) else none | _ => none

/-- The reservation that a token fills: the copy of the agent that holds it (R212; assumption 132). -/
def Site.fills (x : Site) (f : Flit) (agent : Option Nat) : Option Nat :=
  (List.range x.resv.length).find? fun i => match x.resv[i]? with
    | some v => v.granted && decide (agent = some v.agent) && decide (v.queue = f.queue) && decide (v.tag.toNat = f.tag) && decide (v.seq = f.seq)
    | none => false

/-- A data, multicast or shape token (R139). -/
def Site.acceptData (x : Site) (f : Flit) (bad : Bool) (agent : Option Nat := none) : Accept :=
  let q := f.queue
  let dsc := x.qd q
  let tag : BitVec 20 := BitVec.ofNat 20 f.tag
  let pay := if f.kind = 5 then f.payload else maskPay f.hi4 f.payload
  let new : Entry := { kind := BitVec.ofNat 4 f.kind, tag := tag, seq := f.seq, bad := bad }
  if 8 ≤ f.kind then .stop 0x200A
  else if dsc.mode = 0 then .stop 0x200C
  else if dsc.mode = 3 then .stop 0x200A
  else if x.late q tag then .stop 0x2008
  else
    let res := if f.kind = 5 then none else x.fills f agent
    let y := match res with | some i => { x with resv := x.resv.eraseIdx i } | none => x
    if dsc.mode = 1 then
      let v := x.q q
      let i := (v.head + v.len) % dsc.per
      if dsc.per ≤ v.len then .wait
      else match x.ent q i with
        | some e => if e.reserved ∧ res.isSome then .ok ((y.putEntry q i new f.hdr pay).setQ q
              { (y.putEntry q i new f.hdr pay).q q with len := v.len + 1 }) {} else .wait
        | none => .ok ((x.putEntry q i new f.hdr pay).setQ q { (x.putEntry q i new f.hdr pay).q q with len := v.len + 1 }) {}
    else
      let i := dsc.slot f.tag + f.seq % dsc.per
      let empty : Bool := match x.ent q (dsc.slot f.tag) with | some e => decide (e.kind = 4) && decide (e.tag = tag) | none => false
      if empty then .stop 0x200A
      else match x.ent q i with
        | some e => if e.reserved ∧ res.isSome then .ok (y.putEntry q i new f.hdr pay) {} else .wait
        | none => .ok (x.putEntry q i new f.hdr pay) {}

/-- A reduce-AA token (R140). -/
def Site.acceptAA (x : Site) (f : Flit) (bad : Bool) : Accept :=
  let q := f.queue
  let dsc := x.qd q
  let tag : BitVec 20 := BitVec.ofNat 20 f.tag
  let i := dsc.slot f.tag + f.aaSeq % dsc.per
  if dsc.mode = 0 then .stop 0x200C
  else if dsc.mode ≠ 3 then .stop 0x200A
  else if f.contrib = 0 then .stop 0x2009
  else if x.late q tag then .stop 0x2008
  else
    let put (n : Nat) (w : W256) (b : Bool) (rep : AARep) : Accept :=
      if dsc.expect < n then .stop 0x2009
      else .ok (x.putEntry q i { kind := 3, tag := tag, seq := f.aaSeq, count := n, bad := b } f.hdr w) rep
    match x.ent q i with
    | none => put f.contrib f.payload bad {}
    | some e =>
      if e.tag = tag ∧ e.seq = f.aaSeq ∧ ¬ complete dsc e then
        let (w, rep) := aaCombine (x.payload q i) f.payload
        put (e.count + f.contrib) w (e.bad || bad) rep
      else .wait

/-- A reduce-AA token is combined into the entry it finds, whose word is then read (R140, R108). -/
def Site.readsAA (x : Site) (f : Flit) : Bool :=
  let dsc := x.qd f.queue
  decide (dsc.mode = 3) && decide (f.contrib ≠ 0) && !x.late f.queue (BitVec.ofNat 20 f.tag) &&
    (match x.ent f.queue (dsc.slot f.tag + f.aaSeq % dsc.per) with
     | some e => decide (e.tag.toNat = f.tag) && decide (e.seq = f.aaSeq) && !complete dsc e
     | none => false)

/-- An empty token (R141). -/
def Site.acceptEmpty (x : Site) (f : Flit) : Accept :=
  let q := f.queue
  let dsc := x.qd q
  let tag : BitVec 20 := BitVec.ofNat 20 f.tag
  let s0 := dsc.slot f.tag
  let new : Entry := { kind := 4, tag := tag }
  if dsc.mode = 0 then .stop 0x200C
  else if x.late q tag then .stop 0x2008
  else if dsc.mode = 1 then
    let v := x.q q
    let i := (v.head + v.len) % dsc.per
    if dsc.per ≤ v.len ∨ (x.ent q i).isSome then .wait
    else .ok ((x.putEntry q i new f.hdr 0).setQ q { (x.putEntry q i new f.hdr 0).q q with len := v.len + 1 }) {}
  else if dsc.mode = 2 then (if (x.ent q s0).isSome then .wait else .ok (x.putEntry q s0 new f.hdr 0) {})
  else
    let js := List.range dsc.per
    let free (j : Nat) : Bool := match x.ent q (s0 + j) with | none => true | some e => decide (e.tag = tag) && decide (e.seq = j)
    let ovr (j : Nat) : Bool := match x.ent q (s0 + j) with | none => decide (dsc.expect < 1) | some e => decide (dsc.expect < e.count + 1)
    if ¬ js.all free then .wait
    else if js.any ovr then .stop 0x2009
    else .ok (js.foldl (fun (y : Site) j =>
      match x.ent q (s0 + j) with
      | none => y.putEntry q (s0 + j) { kind := 4, tag := tag, seq := j, count := 1 } f.hdr aaZero
      | some e => y.setQ q { y.q q with entries := mput none (y.q q).entries (s0 + j) (some { e with count := e.count + 1 }) }) x) {}

/-- What a site does with a flit that reached it, before its kind is looked at: a stopped partition discards it (R182), a
site stopped by an error leaves it (R115), and a flit of another epoch is discarded (R154). -/
inductive Gate where
  | pass
  | leave
  | discard
  | mismatch
  deriving DecidableEq, Repr

/-- The gate of a flit. A flit that comes between the drained report and Begin epoch waits in the router (R310). -/
def Site.gate (x : Site) (f : Flit) : Gate :=
  if x.controlStop then .discard
  else if x.stopped.isSome then .leave
  else if f.epoch = x.epoch.toNat then .pass
  else if x.drainedReported then .leave
  else if x.forced then .discard
  else .mismatch

/-- A flit leaves the router and is counted as discarded. -/
def Dev.discardAt (d : Dev) (s : Nat) (p : Port) (c : Cls) : Dev :=
  let d1 := d.takeFlit (siteNode s) p c
  d1.setSite s { d1.site s with discard := (d1.site s).discard + 1 }

/-- The flit at the head of an input buffer reaches a unit of the site, when it is of a kind that `sel` names. -/
def Dev.siteEject (d : Dev) (t : TimeBase) (s : Nat) (p : Port) (c : Cls) (sel : Flit → Bool) (go : Dev → Transit → Dev) : Dev :=
  match d.arrived (siteNode s) p c with
  | none => d
  | some tr =>
    let f := tr.flit
    if ¬ sel f then d
    else match (d.site s).gate f with
      | .leave => d
      | .discard => d.discardAt s p c
      | .mismatch => (d.takeFlit (siteNode s) p c).siteFault t s 0x2002 f.tag f.queue
      | .pass => go d tr

/-- Tokens that the ring of a spill channel holds. -/
def Dev.spillChan (d : Dev) (s q : Nat) : Option (Nat × Nat) :=
  let e := (mget 0 (d.site s).work (112 + q)).toNat
  if bit e 23 ∧ bits e 8 2 = 0x60 then some (bits e 1 0 * 36 + bits e 15 9, bits e 21 16) else none

/-- Capacity of a spill ring, in tokens (R313). -/
def spillCap (w0 : Nat) : Nat := (bits w0 24 18 + 1) * (bits w0 35 25 + 1) * 32 / 40

/-- A token that cannot be placed goes to the spill ring of its queue as one flit (R314); while the ring is full it waits. -/
def Dev.spillToken (d : Dev) (t : TimeBase) (s : Nat) (p : Port) (c : Cls) (tr : Transit) : Dev :=
  let f := tr.flit
  let q := f.queue
  match d.spillChan s q with
  | none => d
  | some (r, ch) =>
    let cn := mget {} (d.lag r).chans ch
    if (f.kind = 0 ∨ f.kind = 1) ∧ f.hi4 = 0 then d
    else if ¬ tr.refill ∧ spillCap cn.w0.toNat ≤ ((d.site s).q q).out ∨ ¬ d.canInject (siteNode s) 0 then d
    else
      let x := d.site s
      let v := x.q q
      let job := d.jobOfSite s
      let d1 := d.takeFlit (siteNode s) p c
      let d2 := d1.setSite s (x.setQ q { v with
        spilling := true, spillLogged := true, blockedSince := none, out := v.out + b2n (!tr.refill), refillOut := v.refillOut && !tr.refill })
      let d3 := if v.spillLogged then d2
        else d2.logErr t 0x2003 (job := job.getD 0x1FF) (die := siteIsle s) (unit := 0) (wh := siteWhere s)
      let d4 := match job with
        | some j => d3.bump (0x4000 + j) 0x15 1
        | none => d3
      d4.inject (siteNode s) { hdr := mkHdr (r / 36) 0x60 (r % 36) ch f.epoch f.tag f.kind (f.h 13 0), payload := f.payload } tr.bad

/-- An accepted token leaves the router; the site wakes (R126). -/
def Dev.acceptTok (d : Dev) (t : TimeBase) (s : Nat) (p : Port) (c : Cls) (tr : Transit) (a : Accept) : Dev :=
  let x := d.site s
  let q := tr.flit.queue
  match a with
  | .wait =>
    if (x.qd q).spill ∧ (x.q q).spilling then d.spillToken t s p c tr
    else if (x.q q).blockedSince.isNone then d.setSite s (x.setQ q { x.q q with blockedSince := some t.ns })
    else d
  | .stop code => d.siteFault t s code tr.flit.tag q
  | .ok y rep =>
    let v := y.q q
    let left := v.out - 1
    let v' : Queue :=
      if tr.refill then { v with
        blockedSince := none, out := left, refillOut := false, spilling := decide (0 < left), refill := if left = 0 then 0 else v.refill,
        refillDue := v.refillDue && decide (0 < left) }
      else { v with blockedSince := none }
    let z : Site := { y.setQ q v' with gated := false }
    let d1 := (d.takeFlit (siteNode s) p c).setSite s z
    (d1.aaReport t (d1.jobOfSite s) (siteIsle s) 0 (siteWhere s) tr.flit.tag rep).tagStop t s z.fifoBad

/-- TOKEN_EJECT (R139): data, multicast, shape, and the reserved kinds. -/
def execTokenEject (s : SiteId) (p : Port) (c : Cls) (st : State) : Host.Outcome State Fault Refusal :=
  act st fun t d => d.siteEject t s.val p c (fun f => decide (f.kind = 0 ∨ f.kind = 1 ∨ f.kind = 5 ∨ 8 ≤ f.kind))
    fun d tr => d.acceptTok t s.val p c tr ((d.site s.val).acceptData tr.flit tr.bad tr.agent)

/-- REDUCE_AA_EJECT (R140). The words of the entry that the token is combined into are checked (R108, R109). -/
def execReduceAaEject (s : SiteId) (p : Port) (c : Checked Cls) (st : State) : Host.Outcome State Fault Refusal :=
  act st fun t d => d.siteEject t s.val p c.val (fun f => decide (f.kind = 3))
    fun d tr =>
      let a := (d.site s.val).acceptAA tr.flit tr.bad
      if (d.site s.val).readsAA tr.flit then
        (if c.ecc.bad then d.siteUncorrectable t s.val tr.flit.tag tr.flit.queue else (d.countEcc t s.val c.ecc).acceptTok t s.val p c.val tr a)
      else d.acceptTok t s.val p c.val tr a

/-- EMPTY_TOKEN_EJECT (R141). -/
def execEmptyTokenEject (s : SiteId) (p : Port) (c : Cls) (st : State) : Host.Outcome State Fault Refusal :=
  act st fun t d => d.siteEject t s.val p c (fun f => decide (f.kind = 4))
    fun d tr => d.acceptTok t s.val p c tr ((d.site s.val).acceptEmpty tr.flit)

/-- DRAIN_MARKER_EJECT (R142): the drained flag of its queue, whatever the mode. -/
def execDrainMarkerEject (s : SiteId) (p : Port) (c : Cls) (st : State) : Host.Outcome State Fault Refusal :=
  act st fun t d => d.siteEject t s.val p c (fun f => decide (f.kind = 6)) fun d tr =>
    let x := d.site s.val
    (d.takeFlit (siteNode s.val) p c).setSite s.val (x.setQ tr.flit.queue { x.q tr.flit.queue with drained := true })

/-! ### Control operations (R160, Table 5-12) -/

/-- WRITE_DATA_SRAM: n of 3 is reserved and ignored; so is an address that is no multiple of 8 (assumption 22). -/
def execWriteDataSram (s : SiteId) (n : Fin 4) (addr : W16) (w : List W64) (st : State) : Host.Outcome State Fault Refusal :=
  act st fun _ d =>
    if n.val = 3 ∨ addr.toNat % 8 ≠ 0 then d
    else d.setSite s.val ((d.site s.val).wr addr.toNat ((w.take (n.val + 1)).flatMap fun x => le 8 x.toNat))

/-- WRITE_PROGRAM_STORE: four words from an address that is a multiple of 4. -/
def execWriteProgramStore (s : SiteId) (addr : BitVec 10) (w : List W64) (st : State) : Host.Outcome State Fault Refusal :=
  act st fun _ d =>
    if addr.toNat % 4 ≠ 0 then d
    else d.setSite s.val { d.site s.val with prog := mputs 0 (d.site s.val).prog addr.toNat (w.take 4) }

/-- WRITE_TRIGGER_ENTRY. -/
def execWriteTriggerEntry (s : SiteId) (entry : Fin 32) (w : W64) (st : State) : Host.Outcome State Fault Refusal :=
  act st fun _ d =>
    let x := d.site s.val
    d.setSite s.val { x with trigs := mput {} x.trigs entry.val { x.trig entry.val with word := w } }

/-- WRITE_TILE_METADATA. -/
def execWriteTileMetadata (s : SiteId) (tile : Fin 64) (w : W16) (st : State) : Host.Outcome State Fault Refusal :=
  act st fun _ d => d.setSite s.val { d.site s.val with tmeta := mput 0 (d.site s.val).tmeta tile.val w }

/-- Occupied queue entries of a site. -/
def Site.occupied (x : Site) : Nat :=
  sumNat (x.queues.map fun e => (e.2.entries.filter fun v => match v.2 with | some y => !y.reserved | none => false).length)

/-- Begin epoch: the epoch register and the forced mode are set, the descriptor area is copied into the working registers,
queues empty (counted as discards in a forced reconfiguration, R309), walks restart, and setup code runs from address 0. -/
def Site.begin_ (x : Site) (epoch : BitVec 4) (forced : Bool) : Site :=
  { x with
    epoch := epoch, forced := forced, ctxs := [], order := [], setup := some {}, armed := false, walks := [],
    work := mputs 0 [] 0 ((List.range 176).map fun i => BitVec.ofNat 64 (x.rd (0xBA80 + 8 * i) 8)),
    discard := x.discard + (if forced then x.occupied else 0),
    queues := [], stopped := none, controlStop := false, units := [], gated := false, drainedReported := false, fwdW := [], fwdN := [],
    resv := [] }

/-- A site begins an epoch; the words of the descriptor area are checked as they are copied (R108, R109, R151). -/
def Dev.beginSite (d : Dev) (t : TimeBase) (s : Nat) (epoch : BitVec 4) (forced : Bool) (e : Ecc) : Dev :=
  let d1 := d.setSite s ((d.site s).begin_ epoch forced)
  if e.bad then d1.siteUncorrectable t s 0 0 else d1.countEcc t s e

/-- BEGIN_EPOCH. -/
def execBeginEpoch (s : SiteId) (epoch : BitVec 4) (forced : Checked Bool) (st : State) : Host.Outcome State Fault Refusal :=
  act st fun t d => d.beginSite t s.val epoch forced.val forced.ecc

/-- CONTROL_STOP. -/
def execControlStop (s : SiteId) (st : State) : Host.Outcome State Fault Refusal :=
  act st fun _ d => d.setSite s.val (d.site s.val).ctlStop

/-- READ_STATUS: a data token to perimeter control, which passes it on to the control cores (assumption 119); its queue, tag and
position are free (assumption 3). -/
def execReadStatus (s : SiteId) (st : State) : Host.Outcome State Fault Refusal :=
  act st fun _ d =>
    let x := d.site s.val
    let (v, d1) := d.fresh 36
    let v := v.toNat
    d1.putFlit (siteNode s.val) .loc .first
      { flit := { hdr := mkHdr (siteIsle s.val) 0x61 10 (bits v 5 0) x.epoch.toNat (bits v 25 6) 0 (dataLow 15 (bits v 35 26))
                  payload := payOf [x.status.toNat, x.discard] }
        src := siteNode s.val, answer := true }

/-! ### Drain, gating, scrub (R110, R126, R145) -/

/-- A site reports drained (R145, R309): every queue with `DRN_IN` has its drained flag, no context is open, no trigger is
ready, no queue spills or awaits a refill. -/
def Site.canDrain (x : Site) : Bool :=
  x.order.isEmpty && x.stopped.isNone && !x.controlStop && !x.drainedReported &&
    (List.range 32).all (fun k => !x.ready k) &&
    (List.range 64).all fun q => (!(x.qd q).drnIn || (x.q q).drained) && !(x.q q).spilling && !(x.q q).refillOut

/-- SITE_DRAINED (R145): the report goes to perimeter control, and a drain marker to every route entry with `VALID` and
`DRN`, in ascending order. Reports belong to a drain of the job that holds the site (R309). -/
def execSiteDrained (s : SiteId) (st : State) : Host.Outcome State Fault Refusal :=
  act st fun _ d =>
    let x := d.site s.val
    match d.jobOfSite s.val with
    | none => d
    | some j =>
      if ¬ x.canDrain ∨ (d.job j).drainAt.isNone then d
      else
        let d1 := d.setSite s.val { x with drainedReported := true }
        let d2 := d1.setJob j { d1.job j with
          drained := insNat (d1.job j).drained s.val, drainLeft := (d1.job j).drainLeft + x.occupied }
        (List.range 64).foldl (fun (d : Dev) k =>
          let e := mget 0 x.work (112 + k)
          if bit e.toNat 23 ∧ bit e.toNat 24 then
            d.inject (siteNode s.val) { hdr := routeHdr e x.epoch.toNat 0 6 0, payload := 0 }
          else d) d2

/-- SITE_GATE (R126): after 16 idle clocks sequencer and units are gated. -/
def execSiteGate (s : SiteId) (st : State) : Host.Outcome State Fault Refusal :=
  act st fun _ d =>
    let x := d.site s.val
    if x.order.isEmpty ∧ x.setup.isNone ∧ (List.range 32).all (fun k => !x.ready k) then d.setSite s.val { x with gated := true }
    else d

/-- SCRUB_WORD (R110): the next of 7,680 words is read and checked. -/
def execScrubWord (s : SiteId) (e : Ecc) (st : State) : Host.Outcome State Fault Refusal :=
  act st fun t d =>
    let x := d.site s.val
    let d1 := d.setSite s.val { x with scrub := (x.scrub + 1) % 7680, scrubOverdue := false }
    if e.bad then d1.siteUncorrectable t s.val 0xFFFFFFFF x.scrub else d1.countEcc t s.val e

/-- SCRUB_OVERDUE (R110): the word has waited 64 cell clocks; its request rises to priority 3. -/
def execScrubOverdue (s : SiteId) (st : State) : Host.Outcome State Fault Refusal :=
  act st fun _ d => d.setSite s.val { d.site s.val with scrubOverdue := true }

/-! ### The instructions -/

/-- NOP. -/
def execNop (s : SiteId) (w : Who) (e : Ecc) (st : State) : Host.Outcome State Fault Refusal :=
  act st fun t d => d.siteInstr t s.val w e 0x00 (fun r _ => r.done)
/-- END (R150). -/
def execEnd (s : SiteId) (w : Who) (e : Ecc) (st : State) : Host.Outcome State Fault Refusal :=
  act st fun t d => d.siteInstr t s.val w e 0x01 iEnd
/-- ARM. -/
def execArm (s : SiteId) (w : Who) (e : Ecc) (st : State) : Host.Outcome State Fault Refusal :=
  act st fun t d => d.siteInstr t s.val w e 0x02 iArm
/-- BR. -/
def execBr (s : SiteId) (w : Who) (e : Ecc) (st : State) : Host.Outcome State Fault Refusal :=
  act st fun t d => d.siteInstr t s.val w e 0x03 iBr
/-- DBNZ. -/
def execDbnz (s : SiteId) (w : Who) (e : Ecc) (st : State) : Host.Outcome State Fault Refusal :=
  act st fun t d => d.siteInstr t s.val w e 0x04 iDbnz
/-- RDST (R104). -/
def execRdst (s : SiteId) (w : Who) (e : Ecc) (st : State) : Host.Outcome State Fault Refusal :=
  act st fun t d => d.siteInstr t s.val w e 0x05 iRdst
/-- CLRST (R104). -/
def execClrst (s : SiteId) (w : Who) (e : Ecc) (st : State) : Host.Outcome State Fault Refusal :=
  act st fun t d => d.siteInstr t s.val w e 0x06 iClrst
/-- SETCTR. -/
def execSetctr (s : SiteId) (w : Who) (e : Ecc) (st : State) : Host.Outcome State Fault Refusal :=
  act st fun t d => d.siteInstr t s.val w e 0x07 iSetctr
/-- SOP. -/
def execSop (s : SiteId) (w : Who) (e : Ecc) (st : State) : Host.Outcome State Fault Refusal :=
  act st fun t d => d.siteInstr t s.val w e 0x08 iSop
/-- SOPI. -/
def execSopi (s : SiteId) (w : Who) (e : Ecc) (st : State) : Host.Outcome State Fault Refusal :=
  act st fun t d => d.siteInstr t s.val w e 0x09 iSopi
/-- LI. -/
def execLi (s : SiteId) (w : Who) (e : Ecc) (st : State) : Host.Outcome State Fault Refusal :=
  act st fun t d => d.siteInstr t s.val w e 0x0A iLi
/-- TAGR. -/
def execTagr (s : SiteId) (w : Who) (e : Ecc) (st : State) : Host.Outcome State Fault Refusal :=
  act st fun t d => d.siteInstr t s.val w e 0x0B iTagr
/-- LD (R165). -/
def execLd (s : SiteId) (w : Who) (e : Ecc) (st : State) : Host.Outcome State Fault Refusal :=
  act st fun t d => d.siteInstr t s.val w e 0x0C iLd
/-- ST (R165). -/
def execSt (s : SiteId) (w : Who) (e : Ecc) (st : State) : Host.Outcome State Fault Refusal :=
  act st fun t d => d.siteInstr t s.val w e 0x0D iSt
/-- AGRST (R155). -/
def execAgrst (s : SiteId) (w : Who) (e : Ecc) (st : State) : Host.Outcome State Fault Refusal :=
  act st fun t d => d.siteInstr t s.val w e 0x0E iAgrst
/-- VOP. -/
def execVop (s : SiteId) (w : Who) (e : Ecc) (st : State) : Host.Outcome State Fault Refusal :=
  act st fun t d => d.siteInstr t s.val w e 0x10 iVop
/-- VTR. -/
def execVtr (s : SiteId) (w : Who) (e : Ecc) (st : State) : Host.Outcome State Fault Refusal :=
  act st fun t d => d.siteInstr t s.val w e 0x11 iVtr
/-- VLD. -/
def execVld (s : SiteId) (w : Who) (e : Ecc) (st : State) : Host.Outcome State Fault Refusal :=
  act st fun t d => d.siteInstr t s.val w e 0x12 iVld
/-- VPACK. -/
def execVpack (s : SiteId) (w : Who) (e : Ecc) (st : State) : Host.Outcome State Fault Refusal :=
  act st fun t d => d.siteInstr t s.val w e 0x13 iVpack
/-- VMX. -/
def execVmx (s : SiteId) (w : Who) (e : Ecc) (st : State) : Host.Outcome State Fault Refusal :=
  act st fun t d => d.siteInstr t s.val w e 0x14 iVmx
/-- VHRED (R122). -/
def execVhred (s : SiteId) (w : Who) (e : Ecc) (st : State) : Host.Outcome State Fault Refusal :=
  act st fun t d => d.siteInstr t s.val w e 0x15 iVhred
/-- VPERM. -/
def execVperm (s : SiteId) (w : Who) (e : Ecc) (st : State) : Host.Outcome State Fault Refusal :=
  act st fun t d => d.siteInstr t s.val w e 0x16 iVperm
/-- VMOV. -/
def execVmov (s : SiteId) (w : Who) (e : Ecc) (st : State) : Host.Outcome State Fault Refusal :=
  act st fun t d => d.siteInstr t s.val w e 0x17 iVmov
/-- MMA (R166). -/
def execMma (s : SiteId) (w : Who) (e : Ecc) (st : State) : Host.Outcome State Fault Refusal :=
  act st fun t d => d.siteInstr t s.val w e 0x20 iMma
/-- TCLR. -/
def execTclr (s : SiteId) (w : Who) (e : Ecc) (st : State) : Host.Outcome State Fault Refusal :=
  act st fun t d => d.siteInstr t s.val w e 0x21 iTclr
/-- TMOV (R120). -/
def execTmov (s : SiteId) (w : Who) (e : Ecc) (st : State) : Host.Outcome State Fault Refusal :=
  act st fun t d => d.siteInstr t s.val w e 0x22 iTmov
/-- AADEP (R123). -/
def execAadep (s : SiteId) (w : Who) (e : Ecc) (st : State) : Host.Outcome State Fault Refusal :=
  act st fun t d => d.siteInstr t s.val w e 0x23 iAadep
/-- AACMB (R123). -/
def execAacmb (s : SiteId) (w : Who) (e : Ecc) (st : State) : Host.Outcome State Fault Refusal :=
  act st fun t d => d.siteInstr t s.val w e 0x24 iAacmb
/-- AACVT (R84). -/
def execAacvt (s : SiteId) (w : Who) (e : Ecc) (st : State) : Host.Outcome State Fault Refusal :=
  act st fun t d => d.siteInstr t s.val w e 0x25 iAacvt
/-- AACLR. -/
def execAaclr (s : SiteId) (w : Who) (e : Ecc) (st : State) : Host.Outcome State Fault Refusal :=
  act st fun t d => d.siteInstr t s.val w e 0x26 iAaclr
/-- SEND (R167). -/
def execSend (s : SiteId) (w : Who) (e : Ecc) (st : State) : Host.Outcome State Fault Refusal :=
  act st fun t d => d.siteInstr t s.val w e 0x30 iSend

end Sys2Proof.Machine
end

