-- ==== Sys2Proof/Machine/Hbm.lean ====
section
/-! DEFINITION. HBM controllers (sections 7.1 to 7.5 and 7.8 to 7.10): the address map, regions, the sector code, requests
and burst slots, refresh, scrub, the error budget and channel map-out. -/
namespace Sys2Proof.Machine

/-! ### Sectors and lane buffers (R237, R246) -/

/-- A sector as the last write accepted left it: a lane buffer's word, else the stored one. -/
def Stack.rd (k : Stack) (sector : Nat) : W256 :=
  match (mget [] k.lanes (k.pcOf sector)).find? (fun e => e.1 = sector) with
  | some e => e.2
  | none => k.load sector

/-- Sectors of a read, counted from its first, among lo to lo + n − 1. -/
def HbmReq.among (r : HbmReq) (lo n : Nat) : List Nat :=
  if r.write then [] else (List.range r.count).filter fun i => decide (lo ≤ r.sector + i ∧ r.sector + i < lo + n)

/-- A read remembers which of its sectors were written after it was accepted (R229). -/
def HbmReq.touched (r : HbmReq) (lo n : Nat) : HbmReq := { r with overwritten := (r.among lo n).foldl insNat r.overwritten }

/-- The same for whole sectors, which leave the poison table with the write (R231, R237). -/
def HbmReq.renewed (r : HbmReq) (lo n : Nat) : HbmReq :=
  { r.touched lo n with replaced := (r.among lo n).foldl insNat r.replaced }

/-- A write of a whole sector: a buffered copy gives way, and the sector leaves the poison table (R231, R237). -/
def Stack.wr (k : Stack) (sector : Nat) (w : W256) : Stack :=
  let pc := k.pcOf sector
  { k with
    mem := k.store k.mem sector w, lanes := mput [] k.lanes pc ((mget [] k.lanes pc).filter fun e => decide (e.1 ≠ sector)),
    poison := k.poison.filter fun p => decide (p ≠ sector),
    queue := k.queue.map (·.renewed sector 1), issued := k.issued.map (·.renewed sector 1) }

/-- A read-modify-write of a sector (R241): it stays in the poison table, if it is there (R231). -/
def Stack.modify (k : Stack) (sector : Nat) (w : W256) : Stack :=
  let pc := k.pcOf sector
  { k with
    mem := k.store k.mem sector w, lanes := mput [] k.lanes pc ((mget [] k.lanes pc).filter fun e => decide (e.1 ≠ sector)),
    queue := k.queue.map (·.touched sector 1), issued := k.issued.map (·.touched sector 1) }

/-- Sectors lo to lo + n − 1 hold zeros (R224): encrypted zeros read as zero. -/
def Stack.zero (k : Stack) (lo n : Nat) : Stack :=
  let hit (s : Nat) : Bool := decide (lo ≤ s) && decide (s < lo + n)
  { k with
    mem := mdrop hit k.mem, poison := k.poison.filter fun s => !hit s,
    lanes := mmap [] (fun _ l => l.filter fun e => !hit e.1) k.lanes,
    queue := k.queue.map (·.renewed lo n), issued := k.issued.map (·.renewed lo n) }

/-! ### Admission (R223, R224) -/

inductive Admit where
  | ok | wait | range | denied
  deriving DecidableEq, Repr

/-- What a controller answers to a request (R218, R223, R224, R256): served, held while the stack or the region is being
zero-filled, or refused. -/
def Stack.verdict (k : Stack) (who : Requester) (sector count : Nat) (write : Bool) : Admit :=
  if k.mapping.isSome then .wait
  else if k.sectors < sector + count then .range
  else match who with
    | .scrubber => .ok
    | .firmware =>
      match k.regionAt sector count with
      | some (_, w) => if regKind w = 3 ∨ regKind w = 4 then .ok else .denied
      | none => .denied
    | .job slot job =>
      match k.regionAt sector count with
      | some (i, w) =>
        if regSlot w ≠ slot ∨ (regJob w ≠ job ∧ regJob w ≠ 0xFF) ∨ 3 ≤ regKind w ∨ (write ∧ regKind w = 2) then .denied
        else if k.zeroing.contains i then .wait else .ok
      | none => .denied

/-- The HBM address of a sector (R217). -/
def haOf (k sector : Nat) : Nat := k * 2 ^ 36 + sector * 32

/-- A refused request is recorded, and its job stops (R218, R223). -/
def Dev.hbmRefuse (d : Dev) (t : TimeBase) (k sector code : Nat) (job : Option Nat) : Dev :=
  match job with
  | some j => d.jobError t j code (4 + k) 2 k (detail := haOf k sector)
  | none => d.logErr t code (die := 4 + k) (unit := 2) (wh := k) (detail := haOf k sector)

/-! ### Counts, poison and the error budget (R229 to R231, R254, R255, R261) -/

def Stack.chan (k : Stack) (c : Nat) : HbmChannel := mget {} k.chans c
def Stack.setChan (k : Stack) (c : Nat) (x : HbmChannel) : Stack := { k with chans := mput {} k.chans c x }

/-- Poison entries of a channel (`HBM_CH_POISON_c`). -/
def Stack.poisonOf (k : Stack) (c : Nat) : Nat := (k.poison.filter fun s => decide (k.chanOf s = c)).length

/-- Jobs that own a region in a stack (R255). -/
def Dev.jobsInStack (d : Dev) (k : Nat) : List Nat :=
  d.jobs.filterMap fun (j, b) => if b.regions.any fun r => decide (r.2.1 = k) then some j else none

/-- The error budget of a channel is spent (R254). -/
def Dev.budgetSpent (d : Dev) (k c : Nat) : Bool :=
  let x := d.stk k
  let h := x.chan c
  decide (d.objN 0x2C00 3 ≤ h.two) || decide (d.objN 0x2C00 4 ≤ h.ue) || decide (256 ≤ x.poisonOf c) || decide (1024 ≤ x.poison.length)

/-- A channel whose budget is spent becomes failing; the jobs with a region in the stack stop at their next tide points, and
a job that has stopped already gives its regions there back (R255). -/
def Dev.failChannel (d : Dev) (t : TimeBase) (k c : Nat) : Dev :=
  let x := d.stk k
  let h := x.chan c
  if h.failing ∨ ¬ d.budgetSpent k c ∨ ¬ x.active.getLsbD c then d
  else
    let d1 := (d.setStk k (x.setChan c { h with failing := true })).nvOwn (0x2C10 + k) (0x31 + c) [1]
    (d1.jobsInStack k).foldl (fun d j => if d.jobHasStopped j then d.releaseFailing j else d.stopSoon t j 0x3003) d1

/-- The budgets of a stack's channels are checked: a full poison table spends them all (R231, R254). -/
def Dev.budget (d : Dev) (t : TimeBase) (k : Nat) : Dev := (List.range 16).foldl (fun d c => d.failChannel t k c) d

/-- A correction of n symbols is counted; HBM_CORRECTED at most once per channel per 60 s (R229, R254, R261). -/
def Dev.corrected (d : Dev) (t : TimeBase) (k sector n : Nat) : Dev :=
  let x := d.stk k
  let c := x.chanOf sector
  let h := x.chan c
  let h1 : HbmChannel := { h with
    two := h.two + (if n = 2 then 1 else 0), oneSince := h.oneSince + (if n = 1 then 1 else 0),
    twoSince := h.twoSince + (if n = 2 then 1 else 0) }
  let due : Bool := match h.lastLog with | none => true | some e => decide (e + 60000000000 ≤ t.elapsed)
  let h2 : HbmChannel := if due then { h1 with oneSince := 0, twoSince := 0, lastLog := some t.elapsed } else h1
  let d1 := (d.setStk k (x.setChan c h2)).bump 0x2C00 (0x50 + k) 1
  let d2 := if due then d1.logErr t 0x3001 (die := 4 + k) (unit := 2) (wh := c) (detail := h1.oneSince + h1.twoSince * 2 ^ 32) else d1
  if n = 2 then (d2.nvOwn (0x2C10 + k) (1 + c) (le 2 h2.two)).budget t k else d2

/-- A sector enters the poison table when it has room (R230, R231); the reads of it that were accepted after read number
`seq`, and before a write that replaced it, find it there (R237). -/
def Stack.poisoned (x : Stack) (sector seq : Nat) : Stack :=
  let later (r : HbmReq) : HbmReq := { r with
    bad := ((r.among sector 1).filter fun i => decide (seq < r.seq) && !r.replaced.contains i).foldl insNat r.bad }
  { x with poison := if x.poison.length < 1024 then insNat x.poison sector else x.poison,
           queue := x.queue.map later, issued := x.issued.map later }

/-- The same when a write accepted after the read has replaced the sector: only the reads accepted between find it bad. -/
def Stack.poisonedBetween (x : Stack) (sector seq : Nat) : Stack :=
  let later (r : HbmReq) : HbmReq := { r with
    bad := ((r.among sector 1).filter fun i => decide (seq < r.seq) && r.replaced.contains i).foldl insNat r.bad }
  { x with queue := x.queue.map later, issued := x.issued.map later }

/-- An uncorrectable sector of read number `seq` is recorded, counted and poisoned, unless a write accepted after the read
has replaced it; the job that the read was made for stops (R230, R231, R237). -/
def Dev.uncorrectable (d : Dev) (t : TimeBase) (k sector : Nat) (job : Option Nat) (seq : Nat) (replaced : Bool := false) : Dev :=
  let x := d.stk k
  let c := x.chanOf sector
  let h := x.chan c
  let x0 := x.setChan c { h with ue := h.ue + 1 }
  let x1 : Stack := if replaced then x0.poisonedBetween sector seq else x0.poisoned sector seq
  let d1 := ((d.setStk k x1).bump 0x2C00 (0x60 + k) 1).nvOwn (0x2C10 + k) (0x11 + c) (le 1 (min 255 (h.ue + 1)))
  (d1.hbmRefuse t k sector 0x3002 job).budget t k

/-- A request is accepted: it has the next number and enters the queue (R237). -/
def Stack.accept (k : Stack) (r : HbmReq) : Stack := { k with queue := k.queue ++ [{ r with seq := k.accepted }], accepted := k.accepted + 1 }

/-- A request enters a controller's queue. -/
def Dev.pushReq (d : Dev) (k : Nat) (r : HbmReq) : Dev := d.setStk k ((d.stk k).accept r)

/-- A sector of a read as it goes through the decoder. -/
structure SectorRead where
  sector : Nat
  /-- its data, as it stood at acceptance -/
  data : W256
  /-- it was in the poison table -/
  poisoned : Bool
  /-- a write was accepted after it; a write of the whole sector -/
  overwritten : Bool
  replaced : Bool
  /-- number of the read in the order of acceptance -/
  seq : Nat
  deriving DecidableEq, Repr

/-- One sector read through the decoder: its data, unless it is uncorrectable; corrections are counted and written back in
P3 unless a later write has overwritten the sector (R229 to R231). -/
def Dev.decodeSector (d : Dev) (t : TimeBase) (k : Nat) (r : SectorRead) (err : SymErrs) (job : Option Nat) : Option W256 × Dev :=
  let sector := r.sector
  if r.poisoned then (none, d.uncorrectable t k sector job r.seq r.replaced)
  else
    let back (d : Dev) : Dev :=
      if r.overwritten then d else d.pushReq k { cls := 3, sector := sector, write := true, job := job }
    match rsDecode err with
    | .good 0 => (some r.data, d)
    | .good n => (some r.data, back (d.corrected t k sector n))
    | .wrong 0 => let (v, d1) := d.fresh 256; (some v, d1)
    | .wrong n =>
      let (v, d1) := d.fresh 256
      let d2 := d1.corrected t k sector n
      (some v, back (if r.overwritten then d2 else d2.setStk k { d2.stk k with mem := (d2.stk k).store (d2.stk k).mem sector v }))
    | .bad => (none, d.uncorrectable t k sector job r.seq r.replaced)

/-- A sector read at once, as it stands. -/
def Dev.readSector (d : Dev) (t : TimeBase) (k sector : Nat) (err : SymErrs) (job : Option Nat) : Option W256 × Dev :=
  let x := d.stk k
  d.decodeSector t k
    { sector := sector, data := x.rd sector, poisoned := x.poison.contains sector, overwritten := false, replaced := false,
      seq := x.accepted } err job

/-- Consecutive sectors read at once; the first uncorrectable one ends the read: its number, among those asked for. -/
def Dev.readSectors (d : Dev) (t : TimeBase) (k sector n : Nat) (errs : HbmErrs) (job : Option Nat) :
    List W256 × Option Nat × Dev :=
  (List.range n).foldl (fun (a : List W256 × Option Nat × Dev) i =>
    match a with
    | (l, some b, d) => (l, some b, d)
    | (l, none, d) => match d.readSector t k (sector + i) (errs.at (k * 2 ^ 31 + sector + i)) job with
      | (some w, d1) => (l ++ [w], none, d1)
      | (none, d1) => (l, some i, d1)) ([], none, d)

/-- Consecutive whole sectors written. -/
def Dev.writeSectors (d : Dev) (k sector : Nat) (l : List W256) : Dev :=
  d.setStk k ((List.range l.length).foldl (fun x i => x.wr (sector + i) (l.getD i 0)) (d.stk k))

/-! ### Requests (R223, R233 to R237) -/

/-- A completed granule of a stream block waits for GRANULE_COMPLETE (R274). -/
def Dev.streamGot (d : Dev) (i sid pos granule : Nat) (data : List W256) : Dev :=
  let a := d.arb i
  let s := mget {} a.streams sid
  d.setArb i { a with streams := mput {} a.streams sid { s with
    inprog := s.inprog.map fun b => if b.pos = pos then { b with got := mins b.got granule data } else b } }

/-- A block descriptor read ahead has come (R267). -/
def Dev.listGot (d : Dev) (i sid pos : Nat) (data : List W256) : Dev :=
  let a := d.arb i
  let s := mget {} a.streams sid
  let w := data.getD 0 0
  d.setArb i { a with streams := mput {} a.streams sid { s with
    ahead := mins s.ahead pos ((List.range 4).map fun k => w.extractLsb' (64 * k) 64) } }

/-- A write has been accepted: what waits for it is told (R274, R284). -/
def Dev.writeAccepted (d : Dev) (r : ReplyTo) : Dev :=
  match r with
  | .stream i sid pos g => d.streamGot i.val sid pos g []
  | .spill i _ =>
    let a := d.arb i.val
    d.setArb i.val { a with escape := a.escape.map fun e => { e with accepted := e.accepted + 1 } }
  | _ => d

/-- The burst slots of an access whose requester has its data already, or has written it: one request per granule. -/
def Dev.owe (d : Dev) (k sector n : Nat) (r : HbmReq) : Dev :=
  (List.range ((sector % 8 + n + 7) / 8)).foldl (fun d i =>
    let a := max sector ((sector / 8 + i) * 8)
    d.pushReq k { r with sector := a, slots := min (sector + n) ((sector / 8 + i + 1) * 8) - a, reply := .taken }) d

/-- Bytes laid over consecutive sectors: a sector that they cover is written whole, one that they cover in part is read,
merged and written back, and keeps its place in the poison table (R231, R241). -/
def Stack.laid (x : Stack) (at_ : Nat) (b : List Byte) : Stack :=
  let s := at_ / 32
  (List.range ((at_ % 32 + b.length + 31) / 32)).foldl (fun (x : Stack) i =>
    let lo := (s + i) * 32 - at_
    let part := if i = 0 then b.take (32 - at_ % 32) else (b.drop lo).take 32
    let o := if i = 0 then at_ % 32 else 0
    if part.length = 32 then x.wr (s + i) (bytesPay part)
    else let old := payBytes (x.rd (s + i))
         x.modify (s + i) (bytesPay (old.take o ++ part ++ old.drop (o + part.length)))) x

/-- Bytes written at an HBM address for a requester, in class P3 (R233). -/
def Dev.poke (d : Dev) (who : Requester) (job : Option Nat) (ha : Nat) (b : List Byte) : Dev :=
  if b.isEmpty then d
  else
    let k := ha / 2 ^ 36
    (d.setStk k ((d.stk k).laid (ha % 2 ^ 36) b)).owe k (ha % 2 ^ 36 / 32) ((ha % 32 + b.length + 31) / 32)
      { cls := 3, write := true, who := who, job := job }

/-- The request that a burst slot of a pseudo-channel goes to (R235), by its place in the queue. -/
def Stack.grant (k : Stack) (pc : Nat) (busy : List Nat) : Option Nat :=
  let mine (i : Nat) (c : Nat) : Bool := match k.queue[i]? with
    | some r => decide (r.cls = c) && decide (k.pcOf r.sector = pc)
    | none => false
  let can (i : Nat) : Bool := match k.queue[i]? with
    | some r => !busy.contains (k.bankOf r.sector)
    | none => false
  let waits (c : Nat) : Bool := (List.range k.queue.length).any fun i => mine i c
  let first (c : Nat) : Option Nat :=
    let l := (List.range k.queue.length).filter fun i => mine i c && can i
    let key (i : Nat) : Nat := match k.queue[i]? with | some r => r.deadline * 256 + r.sid % 256 | none => 0
    match l with
    | [] => none
    | i :: r => if c = 1 then some (r.foldl (fun b j => if key j < key b then j else b) i) else some i
  let highest := (List.range 5).findSome? first
  if waits 4 ∧ 255 ≤ mget 0 k.p4wait pc then (first 4).orElse fun _ => highest
  else if waits 3 ∧ 7 ≤ mget 0 k.p3wait pc then (first 3).orElse fun _ => highest
  else highest

/-- Nothing returns for a request once its slots are granted. -/
def HbmReq.done (r : HbmReq) : Bool := r.write || decide (r.reply = .taken)

/-- HBM_BURST_GRANT (R235): a request whose slots are all granted is issued; a write is then done. -/
def Stack.burst (k : Stack) (pc : Nat) (busy : List Nat) : Stack :=
  let g := k.grant pc busy
  let cls := (g.bind fun i => k.queue[i]?).elim 9 (·.cls)
  let waits (c : Nat) : Bool := k.queue.any fun r => decide (r.cls = c) && decide (k.pcOf r.sector = pc)
  let cnt (c : Nat) (m : Map Nat) : Map Nat :=
    if cls = c then mput 0 m pc 0 else if waits c then mput 0 m pc (mget 0 m pc + 1) else m
  let k1 : Stack := { k with p3wait := cnt 3 k.p3wait, p4wait := cnt 4 k.p4wait }
  match g with
  | none => k1
  | some i =>
    match k.queue[i]? with
    | none => k1
    | some r =>
      if 1 < r.slots then { k1 with queue := listSet k.queue i { r with slots := r.slots - 1 } }
      else { k1 with queue := k.queue.eraseIdx i, issued := if r.done then k.issued else k.issued ++ [{ r with slots := 0 }] }

/-- HBM_BURST_GRANT; a stack that is being re-formed serves nothing (R256). -/
def execHbmBurstGrant (k : StackId) (pc : Fin 32) (busy : List (Fin 48)) (s : State) : Host.Outcome State Fault Refusal :=
  act s fun _ d => if (d.stk k.val).mapping.isSome then d else d.setStk k.val ((d.stk k.val).burst pc.val (busy.map (·.val)))

/-! ### Windows' replies (R242, R243) -/

/-- A reply token of a window. -/
def Window.reply (w : Window) (epoch : Nat) (h : HeldReply) (p : W256) : Flit :=
  let aa := w.w1.getLsbD 32
  { hdr := routeHdr w.w2 epoch h.tag.toNat (if aa then 3 else 0) (if aa then 16 + h.seq % 16 else dataLow 15 h.seq), payload := p }

/-- The stop of a controller. -/
def hbmNode (k : Nat) : Node := stopNode (k / 4) (stopOfDy (k % 4))

/-- The replies of a window that are ready leave in the order of acceptance (R243); those of a window without a reply route go to
firmware (R244). -/
def Dev.drainWindow (d : Dev) (k w : Nat) : Nat → Dev
  | 0 => d
  | n + 1 =>
    let x := d.stk k
    match x.reorder.find? (fun h => decide (h.window = w)) with
    | some h => match h.data with
      | some p =>
        let d1 := d.setStk k { x with reorder := x.reorder.filter fun e => decide (e.ticket ≠ h.ticket) }
        let r := mget {} x.windows w
        (if r.w2.getLsbD 23 then d1.inject (hbmNode k) (r.reply (mget 0 x.epochs w) h p) else d1).drainWindow k w n
      | none => d
    | none => d

/-- A window's read has been decoded: its data is held for its turn; an uncorrectable sector ends its request there (R242). -/
def Dev.windowData (d : Dev) (k w ticket : Nat) (data : Option W256) : Dev :=
  let x := d.stk k
  match x.reorder.find? fun h => decide (h.ticket = ticket) with
  | none => d
  | some h =>
    let ro := match data with
      | some p => x.reorder.map fun e => if e.ticket = ticket then { e with data := some p } else e
      | none => x.reorder.filter fun e => !(decide (e.req = h.req) && decide (ticket ≤ e.ticket))
    (d.setStk k { x with reorder := ro }).drainWindow k w x.reorder.length

/-! ### Escape chunks and refills (R258, R259, R286) -/

/-- Stack and first sector of an escape chunk: 64 chunks of 256 KiB in each stack of the isle. -/
def chunkAt (isle c : Nat) : Nat × Nat := (4 * isle + c / 64, c % 64 * 8192)

/-- Owner of a chunk of an isle: slot × 256 + job, plus 1; 0: free (R259). -/
def Dev.chunkOwner (d : Dev) (isle c : Nat) : Nat := mget 0 (d.stk (4 * isle + c / 64)).escMap (c % 64)
def Dev.setChunk (d : Dev) (isle c owner : Nat) : Dev :=
  let k := d.stk (4 * isle + c / 64)
  d.setStk (4 * isle + c / 64) { k with escMap := mput 0 k.escMap (c % 64) owner }

/-- A chunk is released and zero-filled (R259, R224). -/
def Dev.freeChunk (d : Dev) (isle c : Nat) : Dev :=
  let (k, s) := chunkAt isle c
  let d1 := d.setChunk isle c 0
  d1.setStk k (((d1.stk k).zero s 8192).accept { cls := 3, sector := s, write := true, slots := 8192 })

/-- Chunks of an isle that a job holds. -/
def Dev.chunksOf (d : Dev) (isle j : Nat) : List Nat :=
  (List.range 256).filter fun c => let v := d.chunkOwner isle c; decide (v ≠ 0) && decide ((v - 1) % 256 = j)

/-- Chunks that a job holds on the package. -/
def Dev.jobChunks (d : Dev) (j : Nat) : Nat := sumNat ((List.range 4).map fun i => (d.chunksOf i j).length)

/-- Reply i of a `FETCH` leaves for its route. -/
def Refill.reply (f : Refill) (epoch i : Nat) (w : W256) : Flit :=
  { hdr := routeHdr f.route epoch f.tag.toNat 0 (dataLow 15 (f.seq + i)), payload := w }

/-- The next part of a refill is requested of the chunk's stack: class P1, due at the time of the `FETCH` (R286). -/
def Dev.askRefill (d : Dev) (r pair : Nat) (f : Refill) : Dev :=
  let x := d.stk f.stack
  d.setStk f.stack { x with arriving := x.arriving ++
    [{ cls := 1, sector := f.sector, count := min f.left (8 - f.sector % 8), deadline := f.asked, job := some f.job,
       reply := .refill (Fin.ofNat 144 r) pair }] }

/-- The chunks of released blocks are freed once no `FETCH` reads them any more. -/
def Dev.settleChunks (d : Dev) (r pair : Nat) : Dev :=
  let p := mget {} (d.lag r).pairs pair
  if p.refill.isSome ∨ p.fetches.any (fun f => f.data.isNone) then d
  else p.freeing.foldl (fun d c => d.freeChunk (r / 36) c)
    (d.setLag r { d.lag r with pairs := mput {} (d.lag r).pairs pair { p with freeing := [] } })

/-- The `FETCH` operations that wait are served, up to the next one of an escaped block (R279). -/
def Dev.serveFetches (d : Dev) (r pair : Nat) : Nat → Dev
  | 0 => d
  | n + 1 =>
    let l := d.lag r
    let p := mget {} l.pairs pair
    let put (p : Pair) : Dev := d.setLag r { l with pairs := mput {} l.pairs pair p }
    match p.fetches with
    | [] => d
    | f :: rest =>
      match f.data with
      | none => (put { p with fetches := rest, refill := some f.refill }).askRefill r pair f.refill
      | some ws =>
        ((List.range ws.length).foldl (fun (d : Dev) i => d.inject (reefNode r) (f.refill.reply l.epoch.toNat i (ws.getD i 0)))
          (put { p with fetches := rest })).serveFetches r pair n

/-- The outstanding refill of a pair has ended. -/
def Dev.refillEnd (d : Dev) (r pair : Nat) : Dev :=
  let l := d.lag r
  let p := mget {} l.pairs pair
  ((d.setLag r { l with pairs := mput {} l.pairs pair { p with refill := none } }).serveFetches r pair (p.fetches.length + 1)).settleChunks
    r pair

/-! ### Completed reads -/

/-- A part of an escaped block's refill leaves for its route; the next part is requested (R286). -/
def Dev.refillData (d : Dev) (r pair : Nat) (data : List W256) : Dev :=
  let l := d.lag r
  let p := mget {} l.pairs pair
  match p.refill with
  | none => d
  | some f =>
    let epoch := l.epoch.toNat
    let d1 := (List.range data.length).foldl (fun (d : Dev) i => d.inject (hbmNode f.stack) (f.reply epoch i (data.getD i 0))) d
    if f.left ≤ data.length then d1.refillEnd r pair
    else
      let g : Refill := { f with seq := f.seq + data.length, sector := f.sector + data.length, left := f.left - data.length }
      (d1.setLag r { d1.lag r with pairs := mput {} (d1.lag r).pairs pair { p with refill := some g } }).askRefill r pair g

/-- The line that a granule waited for does not come (R192): the granule of a stopped stream counts as complete, that of
another waits for the lagoon again. -/
def Dev.fillLost (d : Dev) (i sid pos g : Nat) : Dev :=
  let a := d.arb i
  let s := mget {} a.streams sid
  if s.stopped then d.streamGot i sid pos g []
  else d.setArb i { a with streams := mput {} a.streams sid { s with
    inprog := s.inprog.map fun b => if b.pos = pos then { b with cached := b.cached ++ [g] } else b } }

/-- A request delivers nothing any more (R223, R230): what waited for it is given up; a granule of a block counts as
complete, its stream having stopped with the job. -/
def Dev.readFails (d : Dev) (k : Nat) (r : HbmReq) : Dev :=
  match r.reply with
  | .window w tk => d.windowData k w tk none
  | .refill rf pair => d.refillEnd rf.val pair
  | .stream i sid pos g => d.streamGot i.val sid pos g []
  | .spill i _ =>
    let a := d.arb i.val
    d.setArb i.val { a with escape := a.escape.map fun e => { e with accepted := e.accepted + 1 } }
  | .fill rf line =>
    let l := d.lag rf.val
    (l.fills.filter fun f => decide (f.1 = line)).foldl (fun d f => d.fillLost (rf.val / 36) f.2.1 f.2.2.1 f.2.2.2)
      (d.setLag rf.val { l with fills := l.fills.filter fun f => decide (f.1 ≠ line) })
  | _ => d

/-- The data of a read goes where the read was asked for. -/
def Dev.readDelivers (d : Dev) (k : Nat) (r : HbmReq) (data : List W256) : Dev :=
  match r.reply with
  | .window w tk => d.windowData k w tk data.head?
  | .stream i sid pos g => d.streamGot i.val sid pos g data
  | .list i sid pos => d.listGot i.val sid pos data
  | .refill rf pair => d.refillData rf.val pair data
  | .fill rf line => let l := d.lag rf.val; d.setLag rf.val { l with fillData := mins l.fillData line data }
  | _ => d

/-- Narrow requests of class P0 that wait at a pseudo-channel (R234). -/
def Stack.narrowWaiting (k : Stack) (pc : Nat) : Nat :=
  (k.queue.filter fun r => decide (r.cls = 0) && decide (k.pcOf r.sector = pc)).length

/-- The narrow queues have room for n sectors (R234). -/
def Stack.narrowFree (k : Stack) (sector n : Nat) : Bool :=
  let secs := (List.range n).map (sector + ·)
  secs.all fun s => decide (k.narrowWaiting (k.pcOf s) + (secs.filter fun x => decide (k.pcOf x = k.pcOf s)).length ≤ 64)

/-- A request waits in its sender (R224, R234, R256): its region is being zero-filled, the stack is re-formed, or its narrow
queue is full. It holds back no request of another region or class. -/
def Stack.holds (k : Stack) (r : HbmReq) : Bool :=
  decide (k.verdict r.who r.sector r.count r.write = .wait) || (decide (r.cls = 0) && !k.narrowFree r.sector r.count)

/-- HBM_REQUEST_ACCEPT (R223): the oldest request that waits for the stack, and that the controller can take, is checked and queued in its class; a write is
applied, and a read takes its data, in the order of acceptance (R237). -/
def Dev.requestAccept (d : Dev) (t : TimeBase) (k : Nat) : Dev :=
  let x := d.stk k
  match x.arriving.find? fun r => !x.holds r with
  | none => d
  | some r =>
    let d1 := d.setStk k { x with arriving := x.arriving.erase r }
    match x.verdict r.who r.sector r.count r.write with
    | .wait => d
    | .range => (d1.hbmRefuse t k r.sector 0x3004 r.job).readFails k r
    | .denied => (d1.hbmRefuse t k r.sector 0x3006 r.job).readFails k r
    | .ok =>
      let secs := (List.range r.count).map (r.sector + ·)
      if r.write then ((d1.writeSectors k r.sector r.data).pushReq k { r with data := [], slots := r.count }).writeAccepted r.reply
      else d1.pushReq k { r with
        data := secs.map x.rd, slots := r.count,
        bad := (List.range r.count).filter fun i => x.poison.contains (r.sector + i) }

/-- HBM_REQUEST_ACCEPT. -/
def execHbmRequestAccept (k : StackId) (s : State) : Host.Outcome State Fault Refusal := act s fun t d => d.requestAccept t k.val

/-- Sector j of a read. -/
def HbmReq.part (r : HbmReq) (j : Nat) : SectorRead :=
  { sector := r.sector + j, data := r.data.getD j 0, poisoned := r.bad.contains j, overwritten := r.overwritten.contains j,
    replaced := r.replaced.contains j, seq := r.seq }

/-- HBM_READ_COMPLETE (R229 to R231): every sector is decoded; one that is uncorrectable keeps the whole request's data
back but for a window, whose requests are of one sector. -/
def Dev.readComplete (d : Dev) (t : TimeBase) (k i : Nat) (errs : List SymErrs) (onDie : Nat) : Dev :=
  let x := d.stk k
  match x.issued[i]? with
  | none => d
  | some r =>
    if x.mapping.isSome then d else
    let d1 := (d.setStk k { x with issued := x.issued.eraseIdx i }).bump 0x2C00 (0x80 + k) onDie
    let (data, ok, d2) := (List.range r.count).foldl (fun (a : List W256 × Bool × Dev) j =>
      match a.2.2.decodeSector t k (r.part j) (errs.getD j []) r.job with
      | (some w, d) => (a.1 ++ [w], a.2.1, d)
      | (none, d) => (a.1, false, d)) (([], true, d1) : List W256 × Bool × Dev)
    if ok then d2.readDelivers k r data else d2.readFails k r

/-- HBM_READ_COMPLETE. -/
def execHbmReadComplete (k : StackId) (i : Nat) (errs : List SymErrs) (onDie : Nat) (s : State) :
    Host.Outcome State Fault Refusal := act s fun t d => d.readComplete t k.val i errs onDie

/-! ### Patrol scrub (R232) -/

/-- HBM_SCRUB_READ: the next sector read is issued in P4. -/
def execHbmScrubRead (k : StackId) (s : State) : Host.Outcome State Fault Refusal :=
  act s fun _ d =>
    let x := d.stk k.val
    if x.mapping.isSome ∨ x.sectors ≤ x.scrub then d
    else
      (d.setStk k.val { x with scrub := x.scrub + 1 }).pushReq k.val
        { cls := 4, sector := x.scrub, data := [x.rd x.scrub], who := .scrubber, reply := .scrub,
          bad := if x.poison.contains x.scrub then [0] else [] }

/-- HBM_SCRUB_PASS_END: every sector has been read. -/
def execHbmScrubPassEnd (k : StackId) (s : State) : Host.Outcome State Fault Refusal :=
  act s fun _ d =>
    let x := d.stk k.val
    if x.sectors ≤ x.scrub ∧ (x.queue ++ x.issued).all (fun r => decide (r.reply ≠ .scrub)) then
      (d.setStk k.val { x with scrub := 0 }).bump 0x2C00 7 1
    else d

/-! ### Refresh and temperature (R252, R253) -/

/-- The refresh multiplier that a sample asks for (Table 7-6): up at a threshold, down 3 °C below the one crossed. -/
def refreshOf (m : Nat) (c : Int) : Nat :=
  if 95 ≤ c then 4
  else if m = 4 then (if 92 < c then 4 else if 82 < c then 2 else 1)
  else if 85 ≤ c then 2
  else if m = 2 then (if 82 < c then 2 else 1)
  else 1

/-- HBM_TEMP_SAMPLE (R252, R253, R510). -/
def Dev.hbmTemp (d : Dev) (t : TimeBase) (k : Nat) (temp : W16) : Dev :=
  let c := temp.toInt
  let x := d.stk k
  let m := refreshOf x.refreshSet c
  let warn := d.warnDue t c x.warned
  let d1 := (d.setCtr 0x2C00 (0x10 + k) temp.toNat).setStk k { x with
    refreshSet := m, warned := if warn then some t.elapsed else x.warned }
  let d2 := if warn then d1.logErr t 0x0111 (die := 4 + k) else d1
  let d3 := if m ≠ x.refreshSet then d2.logErr t 0x0130 (die := 4 + k) (unit := 2) (wh := k) else d2
  if 105 < c then d3.enterFault t 0x3005 (die := 4 + k) (unit := 2) (detail := k) else d3

/-- HBM_TEMP_SAMPLE. -/
def execHbmTempSample (k : StackId) (t : W16) (s : State) : Host.Outcome State Fault Refusal := act s fun tb d => d.hbmTemp tb k.val t

/-- HBM_REFRESH (R252): the next refresh interval begins; a multiplier that was set comes into force. -/
def execHbmRefresh (k : StackId) (s : State) : Host.Outcome State Fault Refusal :=
  act s fun _ d => d.setStk k.val { d.stk k.val with refresh := (d.stk k.val).refreshSet }

/-! ### Zero-fill and channel map-out (R224, R256, R257) -/

/-- The overwrite of a region begins (R224, R233): one request of class P3 stands for its writes; the region serves no one
until it ends. -/
def Stack.zeroFill (k : Stack) (region lo len : Nat) : Stack :=
  let x := (k.zero lo len).accept { cls := 3, sector := lo, write := true, slots := len, reply := .zero region }
  { x with zeroing := insNat x.zeroing region }

/-- Steps 4 and 5 of the installation of a slot key. -/
def Dev.keyInstalled (d : Dev) (t : TimeBase) (n : Nat) (key : BitVec 512) : Dev :=
  let s := d.slot n
  ((d.setSlot n { s with hbmKey := some key, keyNext := none, keyFill := false, keyAns := none }).keyRecord t n 0xFF 5 0 false false
    []).lateResponse s.keyAns 2 0

/-- The installation of a slot key goes on (R541): the slot's DMA commands end, its regions are zero-filled under the key. -/
def Dev.keyProgress (d : Dev) (t : TimeBase) (n : Nat) : Dev :=
  let s := d.slot n
  let rs := (d.jobsOf n).flatMap fun j => (d.job j).regions.map fun r => (r.2.1, r.2.2.1, r.2.2.2.1, r.2.2.2.2.1)
  match s.keyNext with
  | none => d
  | some key =>
    if d.dmas.any fun x => decide (d.slotOf x.job = n) then d
    else if s.keyFill then (if rs.any fun r => (d.stk r.1).zeroing.contains r.2.2.2 then d else d.keyInstalled t n key)
    else
      let d0 := (List.range 16).foldl (fun d k => d.setStk k { d.stk k with keys := mput 0 (d.stk k).keys n key }) d
      let d1 := rs.foldl (fun d (k, lo, len, i) => d.setStk k ((d.stk k).zeroFill i lo len)) d0
      if rs.isEmpty then d1.keyInstalled t n key else d1.setSlot n { s with keyFill := true }

/-- The zero-fill of a region ends (R224): the new owner may be served, and an installation of a key that waits for it goes on. -/
def Dev.zeroFillEnd (d : Dev) (t : TimeBase) (k region : Nat) : Dev :=
  let x := d.stk k
  d.slots.foldl (fun d e => d.keyProgress t e.1) (d.setStk k { x with
    zeroing := x.zeroing.filter fun r => decide (r ≠ region), queue := x.queue.filter fun r => decide (r.reply ≠ .zero region) })

/-- CHANNEL_MAP_OUT (R256): when no job with a region in the stack runs any more. -/
def Dev.mapOut (d : Dev) (k c : Nat) : Dev :=
  let x := d.stk k
  if ¬ (x.chan c).failing ∨ ¬ x.active.getLsbD c ∨ x.mapping.isSome ∨
      (d.jobsInStack k).any (fun j => !d.jobHasStopped j) then d
  else
    let d1 := (d.jobsInStack k).foldl (fun d j => d.releaseRegions j (· = k)) d
    let y := (d1.stk k).flush.zero 0 (d1.stk k).sectors
    let z : Stack := { y with
      active := y.active &&& ~~~(BitVec.twoPow 16 c), mem := [], poison := [], mapping := some c,
      chans := mput {} y.chans c { y.chan c with failing := false } }
    (d1.setStk k z).nvOwn (0x2C10 + k) (0x31 + c) [2]

/-- CHANNEL_MAP_OUT. -/
def execChannelMapOut (k : StackId) (c : Fin 16) (s : State) : Host.Outcome State Fault Refusal := act s fun _ d => d.mapOut k.val c.val

/-- CHANNEL_MAP_OUT_END (R256): the zero-fill has ended and the reduced stack serves requests again. -/
def execChannelMapOutEnd (k : StackId) (s : State) : Host.Outcome State Fault Refusal :=
  act s fun t d =>
    let x := d.stk k.val
    match x.mapping with
    | none => d
    | some c => (d.setStk k.val { x with mapping := none }).logErr t 0x3003 (die := 4 + k.val) (unit := 2) (wh := c)

end Sys2Proof.Machine
end

