-- ==== Sys2Proof/Machine/HbmWin.lean ====
section
/-! DEFINITION. Controller windows and accumulate units (sections 7.6 and 7.7). -/
namespace Sys2Proof.Machine

/-- A window descriptor, decoded (Table 7-5). -/
structure Win where
  idx : Nat
  mode : Nat
  /-- first sector of the stack -/
  base : Nat
  slots : Nat
  per : Nat
  counter : Nat
  slot : Nat
  job : Nat
  deriving DecidableEq, Repr

def Stack.win (k : Stack) (i : Nat) : Win :=
  let w := mget {} k.windows i
  let a := w.w0.toNat
  let b := w.w1.toNat
  { idx := i, mode := bits a 34 32, base := bits a 27 0 * 8, slots := bits a 54 35 + 1, per := bits b 9 0 + 1,
    counter := bits b 17 10, slot := bits b 23 18, job := bits b 31 24 }

/-- Entry of a token: (t mod S) × P + (s mod P) (R241). -/
def Win.entry (w : Win) (tag seq : Nat) : Nat := tag % w.slots * w.per + seq % w.per

/-- The job has stopped: its flits are discarded on arrival (R182). -/
def Dev.jobStopped (d : Dev) (j : Nat) : Bool := (d.job j).stopping || decide ((d.job j).state = 6)

/-- A forced reconfiguration of the job's partition is in progress (R154, R311). -/
def Dev.jobForced (d : Dev) (j : Nat) : Bool := d.jobStopped j || decide ((d.job j).state = 1) || decide ((d.job j).trans = 3)

/-- A discard that a unit other than a site or a lagoon counts (R251). -/
def Dev.countDiscard (d : Dev) (j n : Nat) : Dev := d.setJob j { d.job j with discards := (d.job j).discards + n }

/-- What every unit that holds an epoch does with a flit of a job before it looks at it: a stopped job's flits, and in a
forced reconfiguration those of another epoch, are discarded and counted; otherwise a flit of another epoch stops the job
with EPOCH_MISMATCH (R154, R182, R240), and so does a payload word that arrived uncorrectable (R183, R109). `take` removes
the flit. -/
def Dev.unitGate (d : Dev) (t : TimeBase) (j epoch : Nat) (die unit wh : Nat) (tr : Transit) (take : Dev → Dev)
    (go : Dev → Dev) : Dev :=
  let f := tr.flit
  if d.jobStopped j ∨ (f.epoch ≠ epoch ∧ d.jobForced j) then (take d).countDiscard j 1
  else if f.epoch ≠ epoch then (take d).jobError t j 0x2002 die unit wh f.queue
  else if tr.bad then (take d).jobError t j 0x8005 die unit wh f.queue
  else go d

/-- The head of an input buffer leaves the stop of a controller. -/
def Dev.hbmTake (k : Nat) (p : Port) (c : Cls) (d : Dev) : Dev := d.takeFlit (hbmNode k) p c

/-- A flit that has reached a window of a mode (R240). -/
def Dev.winEject (d : Dev) (t : TimeBase) (k : Nat) (p : Port) (c : Cls) (mode : Nat) (kinds : List Nat) (mine : Flit → Bool)
    (go : Dev → Flit → Win → Dev) : Dev :=
  match d.arrived (hbmNode k) p c with
  | none => d
  | some tr =>
    let f := tr.flit
    let x := d.stk k
    let w := x.win f.queue
    let take := Dev.hbmTake k p c
    if x.mapping.isSome then d
    else if w.mode = 0 then (take d).logErr t 0x200A (die := 4 + k) (unit := 2) (wh := k) (tag := f.queue)
    else if w.mode ≠ mode then d
    else d.unitGate t w.job (mget 0 x.epochs f.queue) (4 + k) 2 k tr take fun d =>
      if ¬ kinds.contains f.kind then (take d).jobError t w.job 0x200A (4 + k) 2 k f.queue
      else if mine f then go d f w else d

/-- A window's request for an extent: served, held in its sender, or refused (R218, R223). -/
def Dev.winAdmit (d : Dev) (t : TimeBase) (k : Nat) (take : Dev → Dev) (w : Win) (sector count : Nat) (write : Bool)
    (go : Dev → Dev) : Dev :=
  match (d.stk k).verdict (.job w.slot w.job) sector count write with
  | .wait => d
  | .range => (take d).hbmRefuse t k sector 0x3004 (some w.job)
  | .denied => (take d).hbmRefuse t k sector 0x3006 (some w.job)
  | .ok => go d

/-! ### Narrow reads and writes (R241 to R243) -/

/-- The valid words of a payload laid over a sector. -/
def mergeWords (m : Nat) (old new : W256) : W256 :=
  payOf ((List.range 4).map fun i => if bit m i then payWord new i else payWord old i)

/-- NARROW_WRITE (R241): a whole sector, or a read-modify-write. -/
def Dev.narrowWrite (d : Dev) (t : TimeBase) (k : Nat) (p : Port) (c : Cls) (err : SymErrs) : Dev :=
  let take := Dev.hbmTake k p c
  d.winEject t k p c 2 [0] (fun _ => true) fun d f w =>
    let s := w.base + w.entry f.tag f.seq
    d.winAdmit t k take w s 1 true fun d =>
      let d0 := take d
      if f.hi4 = 15 then
        (d0.writeSectors k s [f.payload]).pushReq k { cls := 3, sector := s, write := true, job := some w.job }
      else
        match d0.readSector t k s err (some w.job) with
        | (none, d1) => d1
        | (some old, d1) =>
          (d1.setStk k ((d1.stk k).modify s (mergeWords f.hi4 old f.payload))).pushReq k
            { cls := 3, sector := s, write := true, slots := 2, job := some w.job }

/-- NARROW_WRITE. -/
def execNarrowWrite (k : StackId) (p : Port) (c : Cls) (err : SymErrs) (s : State) : Host.Outcome State Fault Refusal :=
  act s fun t d => d.narrowWrite t k.val p c err

/-- The narrow queues and the reorder buffer have room for n sectors (R234, R243). -/
def Stack.narrowRoom (k : Stack) (sector n : Nat) : Bool :=
  decide (k.reorder.length + n ≤ 256) && k.narrowFree sector n

/-- NARROW_READ (R242, R243). -/
def Dev.narrowRead (d : Dev) (t : TimeBase) (k : Nat) (p : Port) (c : Cls) : Dev :=
  let take := Dev.hbmTake k p c
  d.winEject t k p c 1 [0] (fun _ => true) fun d f w =>
    let q := payWord f.payload 0
    let n := bits q 34 32 + 1
    let s := w.base + bits q 31 0
    if w.slots * w.per < bits q 31 0 + n then (take d).hbmRefuse t k s 0x3004 (some w.job)
    else d.winAdmit t k take w s n false fun d =>
      if ¬ (d.stk k).narrowRoom s n then d
      else
        let d1 := take d
        let x := d1.stk k
        let tk := x.ticket
        let held := (List.range n).map fun i =>
          ({ window := w.idx, tag := BitVec.ofNat 20 f.tag, seq := (bits q 44 35 + i) % 1024, ticket := tk + i, req := tk } : HeldReply)
        let reqs := (List.range n).map fun i =>
          ({ cls := 0, seq := x.accepted + i, sector := s + i, data := [x.rd (s + i)], who := .job w.slot w.job, job := some w.job,
             reply := .window w.idx (tk + i), bad := if x.poison.contains (s + i) then [0] else [] } : HbmReq)
        d1.setStk k { x with ticket := tk + n, reorder := x.reorder ++ held, queue := x.queue ++ reqs, accepted := x.accepted + n }

/-- NARROW_READ. -/
def execNarrowRead (k : StackId) (p : Port) (c : Cls) (s : State) : Host.Outcome State Fault Refusal :=
  act s fun t d => d.narrowRead t k.val p c

/-! ### Atomics (R244) -/

/-- A sector operation: the new first word, from the old one and the payload. The reply carries the prior contents; its
position is free (assumption 3). -/
def Dev.atomic (d : Dev) (t : TimeBase) (k : Nat) (p : Port) (c : Cls) (err : SymErrs) (op : Nat) (new : Nat → Flit → Nat) : Dev :=
  let take := Dev.hbmTake k p c
  let aop (f : Flit) : Nat := bits (payWord f.payload 0) 35 32
  d.winEject t k p c 3 [0] (fun f => decide (aop f = op) || decide (2 ≤ aop f)) fun d f w =>
    if 2 ≤ aop f then take d
    else
      let s := w.base + bits (payWord f.payload 0) 31 0
      d.winAdmit t k take w s 1 true fun d =>
        if ¬ (d.stk k).narrowRoom s 1 then d
        else
          match (take d).readSector t k s err (some w.job) with
          | (none, d1) => d1
          | (some old, d1) =>
            let fst := new (payWord old 0) f % 2 ^ 64
            let d2 := d1.setStk k ((d1.stk k).modify s (payOf [fst, payWord old 1, payWord old 2, payWord old 3]))
            let (v, d3) := d2.fresh 10
            let x := d3.stk k
            let d4 := (d3.setStk k { x with
              ticket := x.ticket + 1,
              reorder := x.reorder ++ [{ window := w.idx, tag := BitVec.ofNat 20 f.tag, seq := v.toNat, data := some old,
                                         ticket := x.ticket, req := x.ticket }] }).pushReq k
              { cls := 0, sector := s, write := true, slots := 2, job := some w.job }
            d4.drainWindow k w.idx (x.reorder.length + 1)

/-- ATOMIC_ADD (R244): payload word 1 is added. -/
def execAtomicAdd (k : StackId) (p : Port) (c : Cls) (err : SymErrs) (s : State) : Host.Outcome State Fault Refusal :=
  act s fun t d => d.atomic t k.val p c err 0 fun old f => old + payWord f.payload 1

/-- ATOMIC_COMPARE_REPLACE (R244): payload word 3 when the old value equals payload word 2. -/
def execAtomicCompareReplace (k : StackId) (p : Port) (c : Cls) (err : SymErrs) (s : State) : Host.Outcome State Fault Refusal :=
  act s fun t d => d.atomic t k.val p c err 1 fun old f => if old = payWord f.payload 2 then payWord f.payload 3 else old

/-! ### The accumulate unit (R245 to R251) -/

/-- A word is in its lane's buffer. -/
def Stack.buffered (k : Stack) (s : Nat) : Bool := (mget [] k.lanes (k.pcOf s)).any fun e => decide (e.1 = s)

/-- A lane's buffer takes a word, replacing the least recently used of 16 (R246). -/
def Stack.auPut (k : Stack) (s : Nat) (w : W256) : Stack :=
  let pc := k.pcOf s
  let l := (s, w) :: (mget [] k.lanes pc).filter fun e => decide (e.1 ≠ s)
  let out := l.drop 16
  { k with
    lanes := mput [] k.lanes pc (l.take 16), mem := out.foldl (fun m e => k.store m e.1 e.2) k.mem,
    queue := k.queue.map (·.touched s 1), issued := k.issued.map (·.touched s 1) }

/-- One operation on one AA word: a buffered word costs no burst slot, a missing one a read and a write in P2 (R245,
R246). An uncorrectable word gets no operation (R248). -/
def Dev.auOp (d : Dev) (t : TimeBase) (k s tag : Nat) (err : SymErrs) (w : Win) (op : W256 → W256 × AARep) : Option Dev × Dev :=
  let x := d.stk k
  let hit := x.buffered s
  let (v, d1) := if hit then (some (x.rd s), d) else d.readSector t k s err (some w.job)
  match v with
  | none => (none, d1)
  | some old =>
    let (new, rep) := op old
    let d2 := d1.setStk k ((d1.stk k).auPut s new)
    let d3 := if hit then d2 else d2.pushReq k { cls := 2, sector := s, write := true, slots := 2, job := some w.job }
    let d4 := d3.aaReport t (some w.job) (4 + k) 2 k tag rep w.idx
    (some d4, d4)

/-- The window's accumulate counter rises (R250). -/
def Dev.auCount (d : Dev) (k counter n : Nat) : Dev :=
  let x := d.stk k
  d.setStk k { x with counters := mput 0 x.counters counter (mget 0 x.counters counter + BitVec.ofNat 32 n) }

/-- AU_COMBINE (R247, R248): the token's word is combined into its entry. -/
def Dev.auCombine (d : Dev) (t : TimeBase) (k : Nat) (p : Port) (c : Cls) (err : SymErrs) : Dev :=
  let take := Dev.hbmTake k p c
  d.winEject t k p c 4 [0, 3] (fun f => decide (f.kind = 3)) fun d f w =>
    let s := w.base + w.entry f.tag f.aaSeq
    d.winAdmit t k take w s 1 true fun d =>
      match (take d).auOp t k s f.tag err w fun old => aaCombine old f.payload with
      | (some d1, _) => d1.auCount k w.counter f.contrib
      | (none, d1) => d1

/-- AU_COMBINE. -/
def execAuCombine (k : StackId) (p : Port) (c : Cls) (err : SymErrs) (s : State) : Host.Outcome State Fault Refusal :=
  act s fun t d => d.auCombine t k.val p c err

/-- AU_CLEAR (R247): the AA zero is written into the entry; the payload is ignored. -/
def Dev.auClear (d : Dev) (t : TimeBase) (k : Nat) (p : Port) (c : Cls) : Dev :=
  let take := Dev.hbmTake k p c
  d.winEject t k p c 4 [0, 3] (fun f => decide (f.kind = 0)) fun d f w =>
    let s := w.base + w.entry f.tag f.seq
    d.winAdmit t k take w s 1 true fun d =>
      let d1 := take d
      let x := (d1.stk k).auPut s aaZero
      let d2 := d1.setStk k { x with
        poison := x.poison.filter fun e => decide (e ≠ s), queue := x.queue.map (·.renewed s 1), issued := x.issued.map (·.renewed s 1) }
      if (d1.stk k).buffered s then d2
      else d2.pushReq k { cls := 2, sector := s, write := true, slots := 1, job := some w.job }

/-- AU_CLEAR. -/
def execAuClear (k : StackId) (p : Port) (c : Cls) (s : State) : Host.Outcome State Fault Refusal :=
  act s fun t d => d.auClear t k.val p c

/-- A deposit token (R247): value j of its valid words goes to word j of the entry; the counter rises by 1 when every
operation has been applied. -/
def Dev.auDeposit (d : Dev) (t : TimeBase) (k : Nat) (p : Port) (c : Cls) (errs : List SymErrs) (mode : Nat) (val : W32 → Fp) : Dev :=
  let take := Dev.hbmTake k p c
  d.winEject t k p c mode [0] (fun _ => true) fun d f w =>
    let s := w.base + w.entry f.tag f.seq * 8
    d.winAdmit t k take w s 8 true fun d =>
      let (ok, d1) := ((List.range 8).filter fun j => bit f.hi4 (j / 2)).foldl (fun (a : Bool × Dev) j =>
        let (r, d2) := a.2.auOp t k (s + j) f.tag (errs.getD j []) w fun old =>
          aaDeposit old [val (f.payload.extractLsb' (32 * j) 32)]
        (a.1 && r.isSome, d2)) (true, take d)
      if ok then d1.auCount k w.counter 1 else d1

/-- AU_DEPOSIT_FP32. -/
def execAuDepositFp32 (k : StackId) (p : Port) (c : Cls) (errs : List SymErrs) (s : State) : Host.Outcome State Fault Refusal :=
  act s fun t d => d.auDeposit t k.val p c errs 5 ofFp32

/-- AU_DEPOSIT_INT32. -/
def execAuDepositInt32 (k : StackId) (p : Port) (c : Cls) (errs : List SymErrs) (s : State) : Host.Outcome State Fault Refusal :=
  act s fun t d => d.auDeposit t k.val p c errs 6 fun v => fpOfInt v.toInt 0

/-- COUNTER_WAIT (R250): the request waits in the AU, which holds at most 64. -/
def Dev.counterWait (d : Dev) (t : TimeBase) (k : Nat) (p : Port) (c : Cls) : Dev :=
  d.winEject t k p c 7 [0] (fun _ => true) fun d f w =>
    let x := d.stk k
    if 64 ≤ x.waits.length then d
    else
      let d1 := Dev.hbmTake k p c d
      d1.setStk k { d1.stk k with waits := x.waits ++
        [{ window := w.idx, tag := BitVec.ofNat 20 f.tag, target := BitVec.ofNat 32 (payWord f.payload 0 / 2 ^ 32) }] }

/-- COUNTER_WAIT. -/
def execCounterWait (k : StackId) (p : Port) (c : Cls) (s : State) : Host.Outcome State Fault Refusal :=
  act s fun t d => d.counterWait t k.val p c

/-- The value of a window's counter. -/
def Stack.counterOf (k : Stack) (w : Nat) : W32 := mget 0 k.counters (k.win w).counter

/-- COUNTER_WAIT_REPLY (R250): pending wait i, once (counter − target) mod 2³² < 2³¹. -/
def Dev.waitReply (d : Dev) (k i : Nat) : Dev :=
  let x := d.stk k
  match x.waits[i]? with
  | none => d
  | some a =>
    let v := x.counterOf a.window
    if (v - a.target).toNat < 2 ^ 31 then
      (d.setStk k { x with waits := x.waits.eraseIdx i }).inject (hbmNode k)
        { hdr := routeHdr (mget {} x.windows a.window).w2 (mget 0 x.epochs a.window) a.tag.toNat 0 (dataLow 1 0),
          payload := payOf [v.toNat] }
    else d

/-- COUNTER_WAIT_REPLY. -/
def execCounterWaitReply (k : StackId) (i : Fin 64) (s : State) : Host.Outcome State Fault Refusal :=
  act s fun _ d => d.waitReply k.val i.val

end Sys2Proof.Machine
end

