-- ==== Sys2Proof/Machine/Lagoon.lean ====
section
/-! DEFINITION. Lagoons (section 6.6), their scrub (R583), the spill rings of site queues (R194, R313, R314), and multicast
(section 6.11). -/
namespace Sys2Proof.Machine

/-! ### Memory and regions (R186 to R188) -/

/-- The job on a lagoon's reef stops with an error of the lagoon; with no job there the error is logged. -/
def Dev.lagError (d : Dev) (t : TimeBase) (r code tag : Nat) : Dev :=
  match d.jobAt r with
  | some j => d.jobError t j code (r / 36) 1 (r % 36) tag
  | none => d.logErr t code (die := r / 36) (unit := 1) (wh := r % 36) (tag := tag)

/-- A read of lagoon words: a correction is counted; an uncorrectable word stops the job (R186, R108, R109). -/
def Dev.lagEcc (d : Dev) (t : TimeBase) (r : Nat) (e : Ecc) : Bool × Dev :=
  if e.bad then (false, d.lagError t r 0x8005 0xFFFFFFFF)
  else if e.one + e.two = 0 then (true, d)
  else (true, ((d.setLag r { d.lag r with corrected := (d.lag r).corrected + (e.one + e.two) }).bump 0x2D00 (0x20 + r / 36)
    (e.one + e.two)).bump 0x2D00 (0x24 + r / 36) e.two)

/-- Fields of a region descriptor (Table 6-6), in entries of 32 bytes. -/
def lrBase (w : W64) : Nat := bits w.toNat 5 0 * 2048
def lrSize (w : W64) : Nat := (bits w.toNat 11 6 + 1) * 2048
def lrKind (w : W64) : Nat := bits w.toNat 14 12
def lrSlot (w : W64) : Nat := bits w.toNat 20 15

/-- The region of a kind that holds an extent. -/
def Lagoon.regionAt (l : Lagoon) (kind entry count : Nat) : Option Nat :=
  (l.regions.find? fun (_, w) => decide (lrKind w = kind) && decide (lrBase w ≤ entry) && decide (entry + count ≤ lrBase w + lrSize w)).map
    (·.1)

/-- LAGOON_ZERO_END (R188): the region's overwrite is complete. -/
def execLagoonZeroEnd (r : ReefId) (region : Fin 16) (s : State) : Host.Outcome State Fault Refusal :=
  act s fun _ d => d.setLag r.val { d.lag r.val with zeroing := (d.lag r.val).zeroing.filter fun x => decide (x ≠ region.val) }

/-- LAGOON_SCRUB (R583): the next entry in address order. -/
def execLagoonScrub (r : ReefId) (e : Ecc) (s : State) : Host.Outcome State Fault Refusal :=
  act s fun t d =>
    let l := d.lag r.val
    ((d.setLag r.val { l with scrub := (l.scrub + 1) % 131072 }).lagEcc t r.val e).2

/-! ### Flits for a lagoon (R182, R190) -/

def Dev.lagTake (r : Nat) (p : Port) (c : Cls) (d : Dev) : Dev := d.takeFlit (reefNode r) p c

/-- A flit that has reached the lagoon, of a kind that `sel` names: of a stopped job it is discarded and counted, of another
epoch it stops the job or, in a forced reconfiguration, is discarded (R154, R182). -/
def Dev.lagEjectFrom (d : Dev) (t : TimeBase) (r : Nat) (p : Port) (c : Cls) (sel : Lagoon → Flit → Bool) (go : Dev → Transit → Dev) : Dev :=
  match d.arrived (reefNode r) p c with
  | none => d
  | some tr =>
    let f := tr.flit
    let l := d.lag r
    let take := Dev.lagTake r p c
    let job := d.jobAt r
    let stop := job.any d.jobStopped
    let forced := l.forced || job.any d.jobForced
    if ¬ sel l f then d
    else if stop ∨ (f.epoch ≠ l.epoch.toNat ∧ forced) then
      let d1 := take d
      d1.setLag r { d1.lag r with discard := (d1.lag r).discard + 1 }
    else if f.epoch ≠ l.epoch.toNat then (take d).lagError t r 0x2002 f.queue
    else if tr.bad then (take d).lagError t r 0x8005 f.queue
    else go d tr

/-- The same, for what its flit alone says. -/
def Dev.lagEject (d : Dev) (t : TimeBase) (r : Nat) (p : Port) (c : Cls) (sel : Lagoon → Flit → Bool) (go : Dev → Flit → Dev) : Dev :=
  d.lagEjectFrom t r p c sel fun d tr => go d tr.flit

/-! ### Channels (R189 to R191, R194) -/

/-- A channel descriptor, decoded. -/
structure Chan where
  base : Nat
  mode : Nat
  slots : Nat
  per : Nat
  deriving DecidableEq, Repr

def Lagoon.chan (l : Lagoon) (i : Nat) : Channel := mget {} l.chans i
def Lagoon.chanD (l : Lagoon) (i : Nat) : Chan :=
  let w := (l.chan i).w0.toNat
  { base := bits w 15 0 * 2, mode := bits w 17 16, slots := bits w 24 18 + 1, per := bits w 35 25 + 1 }

/-- Entry of a token in a window, as an entry of the lagoon. -/
def Chan.entry (c : Chan) (tag s : Nat) : Nat := c.base + tag % c.slots * c.per + s % c.per

/-- Data that lies above the bank is not held. -/
def Lagoon.putEntry (l : Lagoon) (e : Nat) (w : W256) : Lagoon := if e < 131072 then { l with mem := mput 0 l.mem e w } else l

/-- CHANNEL_WRITE_WINDOW (R190); a channel that is off, or a reserved queue, discards the token and the job stops. -/
def execChannelWriteWindow (r : ReefId) (p : Port) (c : Cls) (s : State) : Host.Outcome State Fault Refusal :=
  act s fun t d => d.lagEject t r.val p c
    (fun l f => decide (f.kind ≠ 1) && decide (f.queue < 62) && decide (32 ≤ f.queue ∨ (l.chanD f.queue).mode ≤ 1))
    fun d f =>
      let l := d.lag r.val
      let ch := l.chanD f.queue
      let d1 := Dev.lagTake r.val p c d
      if 32 ≤ f.queue ∨ ch.mode = 0 ∨ f.kind ≠ 0 then d1.lagError t r.val 0x200A f.queue
      else
        let e := ch.entry f.tag f.seq
        d1.setLag r.val ((d1.lag r.val).putEntry e (mergeWords f.hi4 (mget 0 l.mem e) f.payload))

/-- CHANNEL_READ_WINDOW (R190): `COUNT` tokens to the channel's route, in order. -/
def execChannelReadWindow (r : ReefId) (p : Port) (c : Cls) (e : Ecc) (s : State) : Host.Outcome State Fault Refusal :=
  act s fun t d => d.lagEject t r.val p c
    (fun l f => decide (f.kind ≠ 1) && decide (f.queue < 32) && decide ((l.chanD f.queue).mode = 2))
    fun d f =>
      let l := d.lag r.val
      let ch := l.chanD f.queue
      let d1 := Dev.lagTake r.val p c d
      if f.kind ≠ 0 then d1.lagError t r.val 0x200A f.queue
      else
        let q := payWord f.payload 0
        match d1.lagEcc t r.val e with
        | (false, d2) => d2
        | (true, d2) =>
          (List.range (bits q 20 11 + 1)).foldl (fun (d : Dev) i =>
            d.inject (reefNode r.val)
              { hdr := routeHdr (l.chan f.queue).w1 l.epoch.toNat f.tag 0 (dataLow 15 i),
                payload := mget 0 l.mem (ch.entry f.tag (bits q 10 0 + i)) }) d2

/-- n bytes of the bank from a byte address. -/
def Lagoon.bytes (l : Lagoon) (a n : Nat) : List Byte :=
  (((List.range ((a % 32 + n + 31) / 32)).flatMap fun k => payBytes (mget 0 l.mem (a / 32 + k))).drop (a % 32)).take n

/-- Bytes written from a byte address. -/
def Lagoon.putBytes (l : Lagoon) (a : Nat) (b : List Byte) : Lagoon :=
  let m := (a % 32 + b.length + 31) / 32
  let old := l.bytes (a / 32 * 32) (32 * m)
  let new := old.take (a % 32) ++ b ++ old.drop (a % 32 + b.length)
  (List.range m).foldl (fun l k => l.putEntry (a / 32 + k) (bytesPay (new.drop (32 * k)))) l

/-- Byte address of place i of a channel's spill ring: 40 bytes a token (R194). -/
def Lagoon.spillAt (l : Lagoon) (k i : Nat) : Nat := (l.chanD k).base * 32 + 40 * (i % spillCap (l.chan k).w0.toNat)

/-- A token joins the spill ring: its header and its payload (R194). -/
def Lagoon.spillPut (l : Lagoon) (k : Nat) (f : Flit) : Lagoon :=
  let c := l.chan k
  let l1 := l.putBytes (l.spillAt k (c.first + c.held)) (le 8 f.hdr.toNat ++ payBytes f.payload)
  { l1 with chans := mput {} l1.chans k { c with held := c.held + 1 } }

/-- The channel's window lies in the bank. -/
def Lagoon.chanInBank (l : Lagoon) (k : Nat) : Bool :=
  decide ((l.chanD k).base * 32 + 40 * spillCap (l.chan k).w0.toNat ≤ 4194304)

/-- The i-th oldest token of the spill ring. -/
def Lagoon.spillNth (l : Lagoon) (k i : Nat) : Flit :=
  let b := l.bytes (l.spillAt k ((l.chan k).first + i)) 40
  { hdr := BitVec.ofNat 64 (fieldAt b 0 8), payload := bytesPay (b.drop 8) }

/-- The oldest token leaves the spill ring. -/
def Lagoon.spillDrop (l : Lagoon) (k : Nat) : Lagoon :=
  let c := l.chan k
  { l with chans := mput {} l.chans k { c with first := (c.first + 1) % spillCap c.w0.toNat, held := c.held - 1 } }

/-- SPILL_REGION_FULL once per region per epoch (R194). -/
def Dev.spillFull (d : Dev) (t : TimeBase) (r : Nat) (ch : Chan) : Dev :=
  let l := d.lag r
  let g := (l.regionAt 4 ch.base 1).getD 16
  if l.spillFull.contains g then d
  else
    (d.setLag r { l with spillFull := insNat l.spillFull g }).logErr t 0x200D (job := (d.jobAt r).getD 0x1FF) (die := r / 36)
      (unit := 1) (wh := r % 36) (detail := g)

/-- A request for a spilled token: a data token with `WMASK` 0 (R314). -/
def Flit.asksSpill (f : Flit) : Bool := decide (f.kind = 0) && decide (f.hi4 = 0)

/-- SPILL_STORE (R194): the token is kept with its header; a full ring accepts none. -/
def execSpillStore (r : ReefId) (p : Port) (c : Cls) (s : State) : Host.Outcome State Fault Refusal :=
  act s fun t d => d.lagEject t r.val p c
    (fun l f => decide (f.kind ≠ 1) && decide (f.queue < 32) && decide ((l.chanD f.queue).mode = 3) && !f.asksSpill)
    fun d f =>
      let l := d.lag r.val
      let ch := l.chanD f.queue
      let cap := spillCap (l.chan f.queue).w0.toNat
      let n := (l.chan f.queue).held
      if cap ≤ n then d.spillFull t r.val ch
      else
        let d1 := Dev.lagTake r.val p c d
        let d2 := d1.setLag r.val ((d1.lag r.val).spillPut f.queue f)
        if n + 1 = cap then d2.spillFull t r.val ch else d2

/-- SPILL_RETURN (R194, R314): the oldest token goes back to its queue with its original header. -/
def execSpillReturn (r : ReefId) (p : Port) (c : Checked Cls) (s : State) : Host.Outcome State Fault Refusal :=
  act s fun t d => d.lagEject t r.val p c.val
    (fun l f => decide (f.queue < 32) && decide ((l.chanD f.queue).mode = 3) && f.asksSpill)
    fun d f =>
      let l := d.lag r.val
      let d1 := Dev.lagTake r.val p c.val d
      if (l.chan f.queue).held = 0 then d1
      else match d1.lagEcc t r.val c.ecc with
        | (false, d2) => d2
        | (true, d2) =>
          let g := l.spillNth f.queue 0
          (d2.setLag r.val ((d2.lag r.val).spillDrop f.queue)).putFlit (reefNode r.val) .loc (clsOf g.kind)
            { flit := { hdr := routeHdr (l.chan f.queue).w1 g.epoch g.tag g.kind (g.h 13 0), payload := g.payload },
              src := reefNode r.val, refill := true }

/-! ### Spilling at the site (R314) -/

/-- The consumer of queue q is held up by another of its operand queues. -/
def Site.starved (x : Site) (q : Nat) : Bool :=
  match x.consumer q with
  | some k => (x.trigD k).opq.any fun o => decide (o ≠ q) && (x.firstPresent o (x.trig k).counter).isNone
  | none => false

/-- A spill or an escape while the job drains: its cause is kept for the precedence rule (R447). -/
def Dev.drainSpills (d : Dev) (j code : Nat) : Dev :=
  let b := d.job j
  if b.state = 3 ∧ b.drainSpill.isNone then d.setJob j { b with drainSpill := some code } else d

/-- QUEUE_SPILL_START (R314): a token that has waited 2 µs, while the consuming trigger lacked another operand. -/
def execQueueSpillStart (s : SiteId) (p : Port) (c : Cls) (st : State) : Host.Outcome State Fault Refusal :=
  act st fun t d => d.siteEject t s.val p c (fun f => decide (f.kind ≠ 2 ∧ f.kind ≠ 6 ∧ f.kind ≠ 7)) fun d tr =>
    let x := d.site s.val
    let q := tr.flit.queue
    match (x.q q).blockedSince with
    | some e =>
      if (x.qd q).mode = 2 ∧ (x.qd q).spill ∧ ¬ (x.q q).spilling ∧ e + 2000 ≤ t.ns ∧ x.starved q then
        ((d.jobOfSite s.val).elim d fun j => d.drainSpills j 0x2003).spillToken t s.val p c tr
      else d
    | none => d

/-- REFILL_PASS (R314): the next spilled token of the present pass is asked for. -/
def execRefillPass (s : SiteId) (q : Fin 64) (st : State) : Host.Outcome State Fault Refusal :=
  act st fun _ d =>
    let x := d.site s.val
    let v := x.q q.val
    let n := if v.refill = 0 ∧ v.refillDue then v.out else v.refill
    match d.spillChan s.val q.val with
    | none => d
    | some (r, ch) =>
      if ¬ v.spilling ∨ v.refillOut ∨ n = 0 ∨ ¬ d.canInject (siteNode s.val) 0 then d
      else
        let d1 := d.setSite s.val (x.setQ q.val { v with
          refill := n - 1, refillOut := true, refillDue := if v.refill = 0 then false else v.refillDue })
        d1.inject (siteNode s.val)
          { hdr := mkHdr (r / 36) 0x60 (r % 36) ch x.epoch.toNat 0 0 (dataLow 0 0), payload := 0 }

/-! ### Multicast: the agent (R210, R211, R213) -/

/-- Targets of the flit in service. -/
def Lagoon.targets (l : Lagoon) (f : Flit) : List Nat := mget [] l.groups (f.group % 256)

/-- The site of a target entry: site number in [15:6], queue in [5:0] (R210). -/
def mcSite (r g : Nat) : Node := siteNode (siteNo (r / 36) (g / 64 / 96) (g / 64 % 96))

/-- A credit-kind flit of the agent to a target. -/
def Dev.mcCredit (d : Dev) (r : Nat) (f : Flit) (target ctype : Nat) : Dev :=
  d.inject (reefNode r)
    { hdr := mkHdr (r / 36) (target / 64 % 96) (target / 64 / 96) (target % 64) f.epoch f.tag 2 (ctype * 1024 + f.seq), payload := 0 }

/-- The agent goes on (R211): the next flit is taken into service; the next target is asked; when every target has granted,
the copies leave in site order. -/
def Dev.mcGo (d : Dev) (t : TimeBase) (r : Nat) : Nat → Dev
  | 0 => d
  | n + 1 =>
    let l := d.lag r
    match l.mc with
    | none =>
      match l.mcq with
      | [] => d
      | f :: rest => (d.setLag r { l with mcq := rest, mc := some { flit := f, start := t.ns } }).mcGo t r n
    | some m =>
      let ts := l.targets m.flit
      if m.asked ∨ m.retryAt.isSome then d
      else match ts[m.granted]? with
        | some g => (d.setLag r { l with mc := some { m with asked := true } }).mcCredit r m.flit g 1
        | none =>
          let f := m.flit
          let d1 := d.setLag r { l with mc := none }
          let d2 := ts.foldl (fun (d : Dev) g =>
            d.inject (reefNode r)
              { hdr := mkHdr (r / 36) (g / 64 % 96) (g / 64 / 96) (g % 64) f.epoch f.tag 0 (dataLow f.hi4 f.seq), payload := f.payload } (copy := true))
            d1
          d2.mcGo t r n

/-- MULTICAST_ACCEPT (R211): into the agent's queue of 16. -/
def execMulticastAccept (r : ReefId) (p : Port) (c : Cls) (s : State) : Host.Outcome State Fault Refusal :=
  act s fun t d => d.lagEject t r.val p c (fun _ f => decide (f.kind = 1)) fun d f =>
    let l := d.lag r.val
    if 16 ≤ l.mcq.length then d
    else
      let d1 := Dev.lagTake r.val p c d
      (d1.setLag r.val { d1.lag r.val with mcq := l.mcq ++ [f] }).mcGo t r.val 3

/-- The attempt has taken more than 50 µs: every target granted or asked is released, and the agent waits 1 µs (R211). -/
def Dev.mcTimeout (d : Dev) (t : TimeBase) (r : Nat) (m : McActive) : Dev :=
  let l := d.lag r
  let d1 := ((l.targets m.flit).take (m.granted + b2n m.asked)).foldl (fun d g => d.mcCredit r m.flit g 3) d
  (d1.setLag r { d1.lag r with mc := some { m with granted := 0, asked := false, retryAt := some t.ns } }).logErr t 0x2006
    (job := (d.jobAt r).getD 0x1FF) (die := r / 36) (unit := 1) (wh := r % 36) (tag := m.flit.tag)

/-- MC_GRANT (R211): the grant of the target that the agent waits for; any other is of an attempt that has ended. -/
def execMcGrant (r : ReefId) (p : Port) (s : State) : Host.Outcome State Fault Refusal :=
  act s fun t d => d.lagEjectFrom t r.val p .credit (fun _ f => decide (f.kind = 2) && decide (f.queue = 63)) fun d tr =>
    let f := tr.flit
    let d1 := Dev.lagTake r.val p .credit d
    let l := d1.lag r.val
    match l.mc with
    | none => d1
    | some m =>
      if m.asked ∧ f.hi4 = 2 ∧ f.tag = m.flit.tag ∧ f.seq = m.flit.seq ∧ (l.targets m.flit)[m.granted]?.map (mcSite r.val) = some tr.src then
        (if m.start + 50000 < t.ns then d1.mcTimeout t r.val m
         else (d1.setLag r.val { l with mc := some { m with granted := m.granted + 1, asked := false } }).mcGo t r.val 3)
      else d1

/-- MULTICAST_TIMEOUT (R211). -/
def execMulticastTimeout (r : ReefId) (s : State) : Host.Outcome State Fault Refusal :=
  act s fun t d =>
    match (d.lag r.val).mc with
    | some m => if m.retryAt.isNone ∧ m.start + 50000 < t.ns then d.mcTimeout t r.val m else d
    | none => d

/-- MULTICAST_RETRY (R211). -/
def execMulticastRetry (r : ReefId) (s : State) : Host.Outcome State Fault Refusal :=
  act s fun t d =>
    match (d.lag r.val).mc with
    | some m =>
      match m.retryAt with
      | some e =>
        if e + 1000 ≤ t.ns then
          (d.setLag r.val { d.lag r.val with mc := some { m with retryAt := none, start := t.ns } }).mcGo t r.val 3
        else d
      | none => d
    | none => d

/-! ### Multicast: the target (R181, R212) -/

/-- MC_RESERVE (R212): at most four reservations are held; a combine-mode queue, an unused queue and a reserved `CTYPE`
stop the site (R181). -/
def execMcReserve (s : SiteId) (p : Port) (st : State) : Host.Outcome State Fault Refusal :=
  act st fun t d => d.siteEject t s.val p .credit (fun f => decide (f.kind = 2) && decide (f.hi4 ≠ 3)) fun d tr =>
    let x := d.site s.val
    let f := tr.flit
    let m := (x.qd f.queue).mode
    if f.hi4 ≠ 1 ∨ m = 3 then (d.takeFlit (siteNode s.val) p .credit).siteFault t s.val 0x200A f.tag f.queue
    else if m = 0 then (d.takeFlit (siteNode s.val) p .credit).siteFault t s.val 0x200C f.tag f.queue
    else if 4 ≤ x.resv.length then d
    else
      let agent : Nat := match tr.src with | .reef r => r.val % 36 | _ => 0
      (d.takeFlit (siteNode s.val) p .credit).setSite s.val { x with
        resv := x.resv ++ [{ agent := agent, queue := f.queue, tag := BitVec.ofNat 20 f.tag, seq := f.seq }] }

/-- The entry that a reservation's token would take (R139); none where it is not free. -/
def Site.resvEntry (x : Site) (v : Reservation) : Option Nat :=
  let dsc := x.qd v.queue
  let i := if dsc.mode = 1 then ((x.q v.queue).head + (x.q v.queue).len) % dsc.per else dsc.slot v.tag.toNat + v.seq % dsc.per
  if (x.ent v.queue i).isSome ∨ (dsc.mode = 1 ∧ dsc.per ≤ (x.q v.queue).len) then none else some i

/-- MC_RESERVATION_GRANT (R212): the entry is marked reserved and MC_GRANT returned. -/
def execMcReservationGrant (s : SiteId) (k : Fin 4) (st : State) : Host.Outcome State Fault Refusal :=
  act st fun _ d =>
    let x := d.site s.val
    match x.resv[k.val]? with
    | none => d
    | some v =>
      match x.resvEntry v with
      | none => d
      | some i =>
        if v.granted ∨ ¬ d.canInject (siteNode s.val) 2 then d
        else
          let e : Entry := { tag := v.tag, seq := v.seq, reserved := true }
          let y := x.setQ v.queue { x.q v.queue with entries := mput none (x.q v.queue).entries i (some e) }
          (d.setSite s.val { y with resv := listSet y.resv k.val { v with granted := true } }).inject (siteNode s.val)
            { hdr := mkHdr (siteIsle s.val) 0x60 v.agent 63 x.epoch.toNat v.tag.toNat 2 (2 * 1024 + v.seq), payload := 0 }

/-- A reservation ends, pending or granted (R212). -/
def Site.release (x : Site) (agent queue : Nat) (tag : BitVec 20) (seq : Nat) : Site :=
  match (List.range x.resv.length).find? fun i => match x.resv[i]? with
    | some v => decide (v.agent = agent) && decide (v.queue = queue) && decide (v.tag = tag) && decide (v.seq = seq)
    | none => false with
  | none => x
  | some i =>
    let granted := (x.resv[i]?).any (·.granted)
    let y : Site := { x with resv := x.resv.eraseIdx i }
    if granted then
      y.setQ queue { y.q queue with entries := (y.q queue).entries.filter fun e => match e.2 with
        | some v => !(v.reserved && decide (v.tag = tag) && decide (v.seq = seq))
        | none => true }
    else y

/-- MC_RELEASE (R212). -/
def execMcRelease (s : SiteId) (p : Port) (st : State) : Host.Outcome State Fault Refusal :=
  act st fun t d => d.siteEject t s.val p .credit (fun f => decide (f.kind = 2) && decide (f.hi4 = 3)) fun d tr =>
    let agent : Nat := match tr.src with | .reef r => r.val % 36 | _ => 0
    let d1 := d.takeFlit (siteNode s.val) p .credit
    d1.setSite s.val ((d1.site s.val).release agent tr.flit.queue (BitVec.ofNat 20 tr.flit.tag) tr.flit.seq)

end Sys2Proof.Machine
end

