-- ==== Sys2Proof/Machine/Isthmus.lean ====
section
/-! DEFINITION. Isthmus bridges (sections 1.2 and 6.8): records and frames, transit, acknowledgement and resending, lane
repair. A direction 2b or 2b + 1 of bridge b has the other one as its reverse. -/
namespace Sys2Proof.Machine

/-- The other direction of a bridge. -/
def reverseDir (dir : Nat) : Nat := if dir % 2 = 0 then dir + 1 else dir - 1

/-! ### Records (R198) -/

/-- A kind that travels without a payload. -/
def bareKind (k : Nat) : Bool := decide (k = 2 ∨ k = 4 ∨ k = 6)

/-- Flit b continues a run that holds n flits from a: data with `WMASK` 0xF and consecutive `SEQ` from one edge index. -/
def continuesRun (a b : Transit) (n : Nat) : Bool :=
  decide (a.flit.kind = 0) && decide (b.flit.kind = 0) && decide (a.flit.hi4 = 15) && decide (b.flit.h 63 10 = a.flit.h 63 10) &&
    decide (b.flit.seq = (a.flit.seq + n) % 1024) && decide (a.edge = b.edge) && decide (n < 256)

/-- Length of the run at the front of a queue. -/
def runLen (a : Transit) : List Transit → Nat → Nat
  | [], n => n
  | b :: r, n => if continuesRun a b n then runLen a r (n + 1) else n

/-- Bytes of the run header. -/
def runHeader (a : Transit) (n : Nat) : List Byte := le 8 a.flit.hdr.toNat ++ [BitVec.ofNat 8 (n - 1), 0]

/-- One record, cut at the end of each of its flits. -/
def recordPieces (l : List Transit) : List (List Byte × Transit) :=
  match l with
  | [] => []
  | a :: r => (runHeader a l.length ++ (if bareKind a.flit.kind then [] else payBytes a.flit.payload), a) ::
      r.map fun x => (payBytes x.flit.payload, x)

/-- The stream of records fills a frame's payload of `room` bytes: the flits that end in it, its bytes, what is left of the record in
progress, the rest of the queue. A record goes on in the next frame, but its run header stands in one; while the other source waits
too (`alone` false), a record ends with its frame (assumption 23). -/
def fillFrame (alone : Bool) : Nat → Nat → List (List Byte × Transit) → List Transit →
    List Transit × List Byte × List (List Byte × Transit) × List Transit
  | 0, _, p, q => ([], [], p, q)
  | fuel + 1, room, (b, x) :: p, q =>
    if b.length ≤ room then
      let (l, bs, p1, q1) := fillFrame alone fuel (room - b.length) p q
      (x :: l, b ++ bs, p1, q1)
    else ([], b.take room, (b.drop room, x) :: p, q)
  | _ + 1, _, [], [] => ([], [], [], [])
  | fuel + 1, room, [], a :: r =>
    if room < 10 ∨ (alone = false ∧ bareKind a.flit.kind = false ∧ room < 42) then ([], [], [], a :: r)
    else
      let most := if alone then 256 else (room - 10) / 32
      let n := if bareKind a.flit.kind then 1 else min (runLen a r 1) most
      fillFrame alone fuel room (recordPieces ((a :: r).take n)) ((a :: r).drop n)

/-- The flits of a record stream, and what is left: the run in progress (its header, the flits delivered, the flits to come) and the
bytes of its next flit. Fewer bytes than a run header at the end of a frame are filler. -/
def takeStream : Nat → Option (W64 × Nat × Nat) → List Byte → List Flit × Option (W64 × Nat × Nat) × List Byte
  | 0, run, b => ([], run, b)
  | fuel + 1, some (h, i, left), b =>
    if b.length < 32 then ([], some (h, i, left), b)
    else
      let f : Flit := { hdr := BitVec.ofNat 64 (h.toNat / 1024 * 1024 + (h.toNat + i) % 1024), payload := bytesPay b }
      let (l, z) := takeStream fuel (if left ≤ 1 then none else some (h, i + 1, left - 1)) (b.drop 32)
      (f :: l, z)
  | fuel + 1, none, b =>
    if b.length < 10 then ([], none, [])
    else
      let h : W64 := BitVec.ofNat 64 (fieldAt b 0 8)
      let f : Flit := { hdr := h }
      if f.kind = 15 then ([], none, [])
      else if bareKind f.kind then
        (let (l, z) := takeStream fuel none (b.drop 10)
         (f :: l, z))
      else takeStream fuel (some (h, 0, fieldAt b 8 1 + 1)) (b.drop 10)

/-! ### Frames (R197) -/

/-- One bit of the CRC-24 of RFC 4880. -/
def crcStep (c : Nat) : Nat := if 2 ^ 23 ≤ c then (2 * c) ^^^ 0x1864CFB else 2 * c

/-- CRC-24 over bytes. -/
def crc24 (b : List Byte) : Nat :=
  b.foldl (fun c x => (List.range 8).foldl (fun c _ => crcStep c) (c ^^^ (x.toNat * 65536))) 0xB704CE

/-- A frame from its record bytes and its control fields. -/
def mkFrame (records : List Byte) (fseq ack : Nat) (nak : Bool) (cred bad : Nat) : Frame :=
  let filler := le 8 (15 * 2 ^ 14) ++ [0, 0]
  let body := padTo 250 (records ++ filler) ++ le 3 (fseq % 512 + ack % 512 * 512 + b2n nak * 2 ^ 18 + cred % 32 * 2 ^ 19)
  { bits := BitVec.ofNat 2048 (leNat (body ++ le 3 (crc24 body))), bad := bad }

/-- The 256 bytes of a frame. -/
def Frame.bytes (f : Frame) : List Byte := le 256 f.bits.toNat

/-! ### Sending (R19, R199 to R201) -/

/-- Marks of the flits whose payload is uncorrectable. -/
def badMask (l : List Transit) : Nat := sumNat (l.zipIdx.map fun (x, i) => b2n x.bad * 2 ^ i)

/-- Frames that carry the rest of the record in progress of a lost group (R203). -/
def tailFrames (g : Nat) : Nat → List (List Byte × Transit) → List Frame
  | 0, _ | _, [] => []
  | fuel + 1, p =>
    let (sent, bytes, p1, _) := fillFrame true 64 250 p []
    { mkFrame bytes 0 0 false 0 (badMask sent) with sent := sent, own := some g } :: tailFrames g fuel p1

/-- What the next frame of a group carries: its record bytes, the flits that end in it, the stream it belongs to, and the group after
it. Frames of a lost group come first (R203). Transit and local traffic take turns while both wait (R19); a record in progress goes
on (assumption 23). -/
def LaneGroup.nextLoad (l : LaneGroup) (lastTransit : Bool) : List Byte × List Transit × Option Nat × Bool × LaneGroup :=
  match l.early with
  | f :: r => (f.bytes.take 250, f.sent, f.own, lastTransit, { l with early := r })
  | [] =>
    let transit := if l.tail.isEmpty then (if l.transitQ.isEmpty then false else if l.localQ.isEmpty then true else !lastTransit)
      else l.tailTransit
    let alone := if transit then l.localQ.isEmpty else l.transitQ.isEmpty
    let (sent, bytes, p, rest) := fillFrame alone 64 250 l.tail (if transit then l.transitQ else l.localQ)
    (bytes, sent, none, (if bytes.isEmpty then lastTransit else transit),
      { l with localQ := if transit then l.localQ else rest, transitQ := if transit then rest else l.transitQ, tail := p,
               tailTransit := transit })

/-- A lane group has records to send. -/
def LaneGroup.waits (l : LaneGroup) : Bool := !l.localQ.isEmpty || !l.transitQ.isEmpty || !l.tail.isEmpty || !l.early.isEmpty

/-- TRANSIT_GRANT (R19): one frame of the lane group leaves, from transit or from local traffic in turn; a frame of filler
where only an acknowledgement, a NAK or buffers are owed to the other side. -/
def Dev.transitGrant (d : Dev) (dir g : Nat) : Dev :=
  let l := d.lgroup dir g
  let r := d.lgroup (reverseDir dir) g
  let b := d.bdir dir
  let owed := r.ackOwed || r.nakOut || decide (0 < r.freed)
  if l.down ∨ l.retraining ∨ l.credit = 0 ∨ 64 ≤ l.unacked.length ∨ (l.waits = false ∧ ¬ owed) then d
  else
    let (bytes, sent, own, transit, l0) := l.nextLoad b.lastTransit
    let cred := min 31 r.freed
    let f : Frame :=
      { mkFrame bytes l.fseq ((r.expect + 511) % 512) r.nakOut cred (badMask sent) with sent := sent, own := own }
    let l1 : LaneGroup := { l0 with
      fseq := (l.fseq + 1) % 512, unacked := l.unacked ++ [(l.fseq, f)], wire := l.wire ++ [f], credit := l.credit - 1 }
    let r1 : LaneGroup := { r with ackOwed := false, nakOut := false, freed := r.freed - cred }
    let d1 := (d.setLgroup dir g l1).setLgroup (reverseDir dir) g r1
    d1.setBdir dir { d1.bdir dir with lastTransit := transit }

/-- TRANSIT_GRANT. -/
def execTransitGrant (d : BridgeDir) (g : Fin 32) (s : State) : Host.Outcome State Fault Refusal :=
  act s fun _ x => x.transitGrant d.val g.val

/-- A NAK reaches the sender (R200): the frames from the oldest unacknowledged one are sent again and counted; after eight
NAKs of one frame the group retrains. -/
def Dev.isthmusNak (d : Dev) (dir g : Nat) : Dev :=
  let l := d.lgroup dir g
  if ¬ l.nakIn ∨ l.retraining ∨ l.down then d
  else if 8 ≤ l.naks + 1 then d.setLgroup dir g { l with nakIn := false, naks := 0, retraining := true }
  else
    (d.setLgroup dir g { l with nakIn := false, naks := l.naks + 1, wire := l.wire ++ l.unacked.map (·.2) }).bump 0x2D00
      (0x18 + dir) l.unacked.length

/-- ISTHMUS_NAK. -/
def execIsthmusNak (d : BridgeDir) (g : Fin 32) (s : State) : Host.Outcome State Fault Refusal :=
  act s fun _ x => x.isthmusNak d.val g.val

/-! ### Receiving (R200, R201, R204) -/

/-- Where an arriving flit goes (R204): to the transit switch, which keeps its lane group, or on from the port. -/
def Dev.portHop (d : Dev) (dir g : Nat) (x : Transit) : Option (Sum (Nat × Nat) Hop) :=
  let (i, k) := arrival dir
  match x.target with
  | .absent => none
  | tg =>
    if tg.isle = some i ∨ tg.isle = none then (d.hopStop i k x (clsOf x.flit.kind)).map .inr
    else
      let out := outDir i (viaCw i (tg.isle.getD 0))
      some (.inl (out, d.liveGroup out g))

/-- Flits that have been received leave the port in order, as far as their next buffers have room; a frame's buffer frees with
its last flit (R201). A flit to no endpoint leaves nothing behind. -/
def Dev.drainRx (d : Dev) (dir g : Nat) : Nat → Dev
  | 0 => d
  | n + 1 =>
    let l := d.lgroup dir g
    match l.rx with
    | [] => d
    | (x, last) :: rest =>
      let d1 := d.setLgroup dir g { l with rx := rest, freed := l.freed + b2n last }
      match d.portHop dir g x with
      | none => d1.drainRx dir g n
      | some (.inl (out, h)) =>
        let m := d1.lgroup out h
        (d1.setLgroup out h { m with transitQ := m.transitQ ++ [x] }).drainRx dir g n
      | some (.inr h) => if d.hopReady h then (d1.hopTo h x).drainRx dir g n else d

/-- What a frame says of the other direction: frames acknowledged, a NAK, buffers freed (R197). -/
def LaneGroup.told (l : LaneGroup) (ack : Nat) (nak : Bool) (cred : Nat) : LaneGroup :=
  let keep := l.unacked.dropWhile fun e => decide ((ack + 512 - e.1) % 512 < 256)
  { l with unacked := keep, naks := if keep.length < l.unacked.length then 0 else l.naks, nakIn := l.nakIn || nak,
           credit := min 64 (l.credit + cred) }

/-- ISTHMUS_FRAME_RECEIVE (R200): the oldest frame on the wires arrives with its bit errors; what had been received before
goes on first. -/
def Dev.frameReceive (d : Dev) (dir g : Nat) (noise : BitVec 2048) : Dev :=
  let d0 := d.drainRx dir g (d.lgroup dir g).rx.length
  let l := d0.lgroup dir g
  match l.wire with
  | [] => d0
  | f0 :: rest =>
    let f : Frame := { f0 with bits := f0.bits ^^^ noise }
    let b := f.bytes
    let ctl := fieldAt b 250 3
    let good := decide (crc24 (b.take 253) = fieldAt b 253 3)
    let l1 : LaneGroup := { l with wire := rest }
    if ¬ good then d0.setLgroup dir g { l1 with nakOut := true, discarding := true }
    else if bits ctl 8 0 ≠ l.expect then d0.setLgroup dir g { l1 with nakOut := l.nakOut || !l.discarding, discarding := true }
    else
      let src := f.own.getD g
      let k := d0.lgroup dir src
      let (fs, run, part) := takeStream 64 k.rxRun (k.rxPart ++ b.take 250)
      let xs := fs.zipIdx.map fun (x, i) => (({ flit := x, bad := bit f.bad i } : Transit), decide (i + 1 = fs.length))
      let d1 := d0.setLgroup dir src { k with rxRun := run, rxPart := part }
      let l2 : LaneGroup := { d1.lgroup dir g with
        wire := rest, expect := (l.expect + 1) % 512, discarding := false, nakOut := false, ackOwed := true, rx := l.rx ++ xs,
        freed := l.freed + b2n fs.isEmpty }
      let d1 := d1.setLgroup dir g l2
      let rev := reverseDir dir
      let d2 := d1.setLgroup rev g ((d1.lgroup rev g).told (bits ctl 17 9) (bit ctl 18) (bits ctl 23 19))
      d2.drainRx dir g l2.rx.length

/-- ISTHMUS_FRAME_RECEIVE. -/
def execIsthmusFrameReceive (d : BridgeDir) (g : Fin 32) (noise : BitVec 2048) (s : State) : Host.Outcome State Fault Refusal :=
  act s fun _ x => x.frameReceive d.val g.val noise

/-! ### Retraining and lost groups (R200, R203) -/

/-- Bridge directions that the path from one isle to another crosses (Table 1-3). -/
def pathDirs (i j : Nat) : List Nat :=
  if i = j then []
  else
    let a := outDir i (viaCw i j)
    let m := (arrival a).1
    if m = j then [a] else [a, outDir m (viaCw m j)]

/-- Isle pairs between which a plan's traffic goes (R203): every valid route entry of its sites, channels, streams, windows, guards,
causeways and collectives, the records between causeways, and the streams between an arbiter and the stacks of other isles (R21). -/
def Plan.routeEnds (p : Plan) (b : Job) : List (Nat × Nat) :=
  let img := p.image
  let rot := rotIsle p.rho
  let ent (i : Nat) (e : W64) : List (Nat × Nat) := if bit e.toNat 23 then [(rot i, rot (bits e.toNat 1 0))] else []
  (siteRecs img).flatMap (fun r => (List.range 64).flatMap fun k => ent r.isle (r.desc.getD (112 + k) 0)) ++
  (reefRecs img).flatMap (fun r => r.chans.flatMap fun c => ent r.isle c.2) ++
  (streamsRecs img).flatMap (fun r => r.routes.flatMap (ent r.isle) ++ r.streams.flatMap fun s => s.blocks.flatMap fun w =>
    let k := b.ha (bits (w.getD 0 0).toNat 39 0) / 2 ^ 36 / 4
    [(rot r.isle, k), (k, rot r.isle)]) ++
  (winRecs img).flatMap (fun r => ent r.isle r.d.route) ++
  (List.range 4).flatMap (fun i => (List.range (fieldAt (sectionBytes img 8) (4 + 2 * i) 2)).flatMap fun k =>
    ent i (BitVec.ofNat 64 (guardRoute img i k))) ++
  ((cwBytes img).map cwRecOf).flatMap (fun c => c.routes.flatMap (ent c.isle) ++ if c.recDest = 1 then [(rot c.isle, rot c.recIsle)] else []) ++
  match collRec img with | some r => r.buckets.flatMap fun b => ent b.isle b.croute | none => []

/-- The isle pairs of a job's traffic. -/
def Dev.jobRoutes (d : Dev) (j : Nat) : List (Nat × Nat) :=
  match (d.job j).plan with | some p => p.routeEnds (d.job j) | none => []

/-- The frames that the receiver has not yet taken in order, each marked with the group whose stream it continues (assumption 91). -/
def LaneGroup.unreceived (l : LaneGroup) (g : Nat) : List Frame :=
  (l.unacked.filter fun e => decide ((e.1 + 512 - l.expect) % 512 < 256)).map fun e => { e.2 with own := some (e.2.own.getD g) }

/-- A group goes down (R203): the next group up first sends again the frames that were not acknowledged, then what is left of their
stream, and goes on with the flits of both. The fifth group lost in one direction stops every job whose routes cross it. -/
def Dev.groupDown (d : Dev) (t : TimeBase) (dir g : Nat) : Dev :=
  let l := d.lgroup dir g
  let d1 := d.setLgroup dir g { l with
    localQ := [], transitQ := [], tail := [], early := [], unacked := [], wire := [], rx := [], retraining := false, nakIn := false,
    down := true, spares := 0 }
  let n := d1.liveGroup dir g
  let m := d1.lgroup dir n
  let d2 := if n = g then d1 else d1.setLgroup dir n { m with
    early := m.early ++ l.unreceived g ++ l.early ++ tailFrames g 64 l.tail,
    localQ := m.localQ ++ l.localQ, transitQ := m.transitQ ++ l.transitQ, rx := m.rx ++ l.rx }
  let d3 := (d2.setCtr 0x2D00 (0x10 + dir) (d2.ctrN 0x2D00 (0x10 + dir) + 2 ^ g)).logErr t 0x200E (die := 20 + dir / 2) (unit := 4)
    (wh := dir) (detail := g)
  let lost := ((List.range 32).filter fun k => (d3.lgroup dir k).down).length
  if lost = 5 then
    (d3.liveJobs.filter fun j => (d3.jobRoutes j).any fun r => (pathDirs r.1 r.2).contains dir).foldl (fun d j =>
      d.jobError t j 0x200E (20 + dir / 2) 4 dir (detail := g)) d3
  else d3

/-- ISTHMUS_RETRAIN_END (R203): failed lanes are spared while spares are left; with none left the group goes down. -/
def Dev.retrainEnd (d : Dev) (t : TimeBase) (dir g lanes : Nat) : Dev :=
  let l := d.lgroup dir g
  if ¬ l.retraining then d
  else
    let d1 := (List.range (min lanes l.spares)).foldl (fun d _ =>
      d.logErr t 0x4001 (die := 20 + dir / 2) (unit := 4) (wh := dir) (detail := g)) d
    if l.spares < lanes then d1.groupDown t dir g
    else
      (d1.setLgroup dir g { l with
        spares := l.spares - lanes, retraining := false, naks := 0, wire := l.wire ++ l.unacked.map (·.2) }).bump 0x2D00 (0x18 + dir)
          l.unacked.length

/-- ISTHMUS_RETRAIN_END. -/
def execIsthmusRetrainEnd (d : BridgeDir) (g : Fin 32) (lanes : Fin 67) (s : State) : Host.Outcome State Fault Refusal :=
  act s fun t x => x.retrainEnd t d.val g.val lanes.val

end Sys2Proof.Machine
end

