-- ==== Sys2Proof/Machine/Streams.lean ====
section
/-! DEFINITION. Streams and semaphore pairs (chapter 8), lagoon caches (R192). -/
namespace Sys2Proof.Machine

/-! ### Descriptors (Tables 8-1 and 8-2) -/

/-- A stream descriptor, decoded. -/
structure StreamD where
  list : Nat
  nblk : Nat
  dir : Nat
  pair : Nat
  poolReef : Nat
  poolBase : Nat
  poolSlots : Nat
  slotSize : Nat
  route : Nat
  anchor : Nat
  rel : List Nat
  loops : Nat
  tideLoop : Nat
  tagLoop : Nat
  stride : Int
  deriving DecidableEq, Repr

def Stream.d (s : Stream) : StreamD :=
  let w (i : Nat) : Nat := (s.words.getD i 0).toNat
  { list := bits (w 0) 39 0, nblk := bits (w 0) 55 40 + 1, dir := bits (w 0) 57 56, pair := bits (w 1) 11 0,
    poolReef := bits (w 1) 17 12, poolBase := bits (w 1) 33 18, poolSlots := bits (w 1) 41 34 + 1, slotSize := bits (w 1) 51 42 + 1,
    route := bits (w 1) 57 52, anchor := bits (w 2) 7 0,
    rel := (List.range 4).filterMap fun i => if bit (w 2) (40 + i) then some (bits (w 2) (15 + 8 * i) (8 + 8 * i)) else none,
    loops := bits (w 3) 15 0, tideLoop := bits (w 3) 31 16, tagLoop := bits (w 3) 51 32, stride := ofTwos 40 (bits (w 4) 39 0) }

/-- A block descriptor, decoded. -/
structure BlockD where
  ha : Nat
  ng : Nat
  nr : Nat
  rstride : Int
  dl : Nat
  tide : Nat
  tag : Nat
  deriving DecidableEq, Repr

def blockOf (l : List W64) : BlockD :=
  let w (i : Nat) : Nat := (l.getD i 0).toNat
  { ha := bits (w 0) 39 0, ng := bits (w 0) 47 40 + 1, nr := bits (w 0) 63 48 + 1, rstride := ofTwos 40 (bits (w 1) 39 0),
    dl := bits (w 1) 63 40, tide := bits (w 2) 15 0, tag := bits (w 2) 35 16 }

/-- Granules of a block (R268). -/
def BlockD.granules (b : BlockD) : Nat := b.ng * b.nr

/-- HA of a granule on a pass, modulo 2⁴⁰ (R268). -/
def granuleHa (s : StreamD) (b : BlockD) (pass g : Nat) : Nat :=
  toTwos 40 ((b.ha : Int) + (g / b.ng : Nat) * b.rstride + pass * s.stride + (g % b.ng * 256 : Nat))

/-- First lagoon entry of a pool slot. -/
def StreamD.slotEntry (s : StreamD) (slot : Nat) : Nat := s.poolBase * 2 + slot * s.slotSize * 8

def Arbiter.stream (a : Arbiter) (sid : Nat) : Stream := mget {} a.streams sid
def Arbiter.setStream (a : Arbiter) (sid : Nat) (s : Stream) : Arbiter := { a with streams := mput {} a.streams sid s }

/-! ### Pairs (R193) -/

/-- Lagoon and bank slot of a pair of an isle (R193). -/
def Dev.pairAt (d : Dev) (isle pair : Nat) : Option (Nat × Nat) :=
  let v := mget 0 (d.arb isle).semMap pair
  if v = 0 then none else some (isle * 36 + (v - 1) / 128, (v - 1) % 128)

def Dev.pair (d : Dev) (r slot : Nat) : Pair := mget {} (d.lag r).pairs slot
def Dev.setPair (d : Dev) (r slot : Nat) (p : Pair) : Dev :=
  d.setLag r { d.lag r with pairs := mput {} (d.lag r).pairs slot p }

/-- A counter rises by n, to at most 65,535; what was lost is recorded (R193). -/
def Dev.addPair (d : Dev) (t : TimeBase) (r slot : Nat) (full : Bool) (n : Nat) : Dev :=
  let p := d.pair r slot
  let v := (if full then p.full else p.empty).toNat + n
  let w : W16 := BitVec.ofNat 16 (min 65535 v)
  let d1 := d.setPair r slot (if full then { p with full := w } else { p with empty := w })
  if 65535 < v then
    d1.logErr t 0x2010 (job := (d.jobAt r).getD 0x1FF) (die := r / 36) (unit := 1) (wh := r % 36) (tag := slot)
  else d1

/-- A counter falls by n. -/
def Dev.subPair (d : Dev) (r slot : Nat) (full : Bool) (n : Nat) : Dev :=
  let p := d.pair r slot
  d.setPair r slot (if full then { p with full := p.full - BitVec.ofNat 16 n } else { p with empty := p.empty - BitVec.ofNat 16 n })

/-! ### Block lists and eligibility (R267, R269 to R271) -/

/-- List position, counted over all passes, of the next block to start. -/
def Stream.at_ (s : Stream) : Nat := s.pass * s.d.nblk + s.next

/-- Every block of the list has been started on every pass. -/
def Stream.listDone (s : Stream) : Bool := decide (s.d.loops ≠ 0) && decide (s.d.loops ≤ s.pass)

/-- Descriptor of the next block to start, once it has been read. -/
def Stream.nextWords (s : Stream) : Option (List W64) := (s.ahead.find? fun e => decide (e.1 = s.at_)).map (·.2)

/-- Block descriptors are requested up to eight ahead of issue, through the narrow path in class P0 (R267). -/
def Dev.askList (d : Dev) (isle sid : Nat) : Dev :=
  let a := d.arb isle
  let s := a.stream sid
  let sd := s.d
  let first := max s.asked s.at_
  let last := if sd.loops = 0 then s.at_ + 8 else min (s.at_ + 8) (sd.loops * sd.nblk)
  if sd.dir = 0 ∨ s.stopped then d
  else
    let d1 := d.setArb isle (a.setStream sid { s with
      asked := max first last, ahead := s.ahead.filter fun e => decide (s.at_ ≤ e.1) })
    (List.range (last - first)).foldl (fun d i =>
      let ha := sd.list + 32 * ((first + i) % sd.nblk)
      let k := ha / 2 ^ 36
      d.setStk k { d.stk k with arriving := (d.stk k).arriving ++
        [{ cls := 0, sector := ha % 2 ^ 36 / 32, who := .firmware, job := some s.job, sid := sid,
           reply := .list (Fin.ofNat 4 isle) sid (first + i) }] }) d1

/-- Effective tide and tag of a block on the present pass (R269). -/
def Stream.tideOf (s : Stream) (b : BlockD) : Nat := (b.tide + s.pass * s.d.tideLoop) % 65536
def Stream.tagOf (s : Stream) (b : BlockD) : Nat := (b.tag + s.pass * s.d.tagLoop) % 2 ^ 20

/-- A tide count has reached a tide, modulo 2¹⁶ (R270). -/
def tideReached (count tide : Nat) : Bool := let k := (tide + 65536 - count % 65536) % 65536; decide (k = 0) || decide (32768 < k)

/-- Deadline of a block (R271): the stamp of its tide point, or the oldest kept, and `DL` × 16 ns. -/
def Arbiter.deadlineOf (a : Arbiter) (s : Stream) (b : BlockD) : Nat :=
  let st := mget [] a.stamps (s.job * 256 + s.d.anchor)
  let tide := s.tideOf b
  let at_ := (st.find? fun e => decide (e.1 % 65536 = tide)).elim (st.getLast?.elim 0 (·.2)) (·.2)
  at_ + b.dl * 16

/-- Tide count of a stream's anchor stage. -/
def Arbiter.tideCount (a : Arbiter) (s : Stream) : Nat := mget 0 a.tides (s.job * 256 + s.d.anchor)

/-! ### Dispatch (R264, R272) -/

/-- Requests outstanding of an arbiter. -/
def Arbiter.outstanding (a : Arbiter) : Nat :=
  sumNat (a.streams.map fun e => sumNat (e.2.inprog.map fun b => b.sent - b.doneCount - b.got.length))

/-- The stream and block whose granule goes next: earliest deadline, then lowest stream id, then list order. A stopped stream
sends nothing further (R288). -/
def Arbiter.nextGranule (a : Arbiter) : Option (Nat × InBlock) :=
  let all := a.streams.flatMap fun (sid, s) => s.inprog.filterMap fun b =>
    if b.sent < (blockOf b.words).granules ∧ ¬ s.stopped then some (sid, b) else none
  match all with
  | [] => none
  | x :: r => some (r.foldl (fun m y => if y.2.deadline < m.2.deadline then y else m) x)

/-- The next block of a stream may start (R270): the stream runs, fewer than two blocks are in progress, the block's
descriptor has been read, its tide is reached, and the counter that its direction tests is not zero. -/
def Dev.mayStart (d : Dev) (isle sid : Nat) : Bool :=
  let a := d.arb isle
  let s := a.stream sid
  match d.pairAt isle s.d.pair, s.nextWords with
  | some (r, q), some w =>
    decide (s.d.dir ≠ 0) && !s.stopped && !s.done && !s.listDone && decide ((d.job s.job).state = 2) && decide (s.inprog.length < 2) &&
      (if s.d.dir = 3 then decide ((d.pair r q).full ≠ 0) else decide ((d.pair r q).empty ≠ 0)) &&
      tideReached (a.tideCount s) (s.tideOf (blockOf w))
  | _, _ => false

/-- Deadline of the next block of a stream. -/
def Arbiter.nextDeadline (a : Arbiter) (s : Stream) : Nat := a.deadlineOf s (blockOf (s.nextWords.getD []))

/-- An eligible block that has not started comes before a deadline and stream (R272). -/
def Dev.startsBefore (d : Dev) (isle deadline sid : Nat) : Bool :=
  let a := d.arb isle
  a.streams.any fun e => decide (e.1 ≠ sid) && d.mayStart isle e.1 &&
    (let x := a.nextDeadline e.2; decide (x < deadline) || (decide (x = deadline) && decide (e.1 < sid)))

/-- The eight lagoon entries of a granule. -/
def Lagoon.granule (l : Lagoon) (e : Nat) : List W256 := (List.range 8).map fun i => mget 0 l.mem (e + i)

/-- The isle has a cache region of a slot (R192). -/
def Dev.cacheReef (d : Dev) (isle slot : Nat) : Bool :=
  (List.range 36).any fun r => (d.lag (isle * 36 + r)).regions.any fun e => decide (lrKind e.2 = 3) && decide (lrSlot e.2 = slot)

/-- One granule is dispatched: to the engine of its controller, or to wait for the lagoon through which its cacheable range
is read (R192, R272). -/
def Dev.putGranule (d : Dev) (isle sid : Nat) (b : InBlock) : Dev :=
  let a := d.arb isle
  let s := a.stream sid
  let sd := s.d
  let g := b.sent
  let ha := granuleHa sd (blockOf b.words) b.pass g
  let k := ha / 2 ^ 36
  let sec := ha % 2 ^ 36 / 32
  let x := d.stk k
  let cacheable := decide (sd.dir ≠ 3) && (x.regionAt sec 8).any (fun e => decide (regKind e.2 = 2)) && d.cacheReef isle s.slot
  let upd (f : InBlock → InBlock) : Dev :=
    d.setArb isle (a.setStream sid { s with inprog := s.inprog.map fun y => if y.pos = b.pos then f y else y })
  if cacheable then upd fun y => { y with sent := g + 1, cached := y.cached ++ [g] }
  else
    let d1 := upd fun y => { y with sent := g + 1 }
    let data := if sd.dir = 3 then (d.lag (isle * 36 + sd.poolReef)).granule (sd.slotEntry b.slot + 8 * g) else []
    d1.setStk k { d1.stk k with arriving := (d1.stk k).arriving ++
      [{ cls := if sd.dir = 3 then 3 else 1, sector := sec, count := 8, write := decide (sd.dir = 3), data := data,
         who := .job s.slot s.job, job := some s.job, deadline := if sd.dir = 3 then 0 else b.deadline, sid := sid,
         reply := .stream (Fin.ofNat 4 isle) sid b.pos g }] }

/-- The same; the data of a write granule is read from its pool through the lagoon's code (R186), and the rest of the command's
errors is left. -/
def Dev.sendGranule (d : Dev) (t : TimeBase) (isle sid : Nat) (b : InBlock) (e : Ecc) : Dev × Ecc :=
  let sd := ((d.arb isle).stream sid).d
  if sd.dir = 3 then
    match d.lagEcc t (isle * 36 + sd.poolReef) e with
    | (true, d1) => (d1.putGranule isle sid b, {})
    | (false, d1) => (d1, {})
  else (d.putGranule isle sid b, e)

/-- Granules are dispatched while fewer than 1,024 are outstanding, in the order of the eligible blocks' deadlines (R264,
R272). -/
def Dev.pump (d : Dev) (t : TimeBase) (isle : Nat) (e : Ecc) : Nat → Dev
  | 0 => d
  | n + 1 =>
    let a := d.arb isle
    if 1024 ≤ a.outstanding then d
    else match a.nextGranule with
      | some (sid, b) =>
        if d.startsBefore isle b.deadline sid then d
        else let (d1, e1) := d.sendGranule t isle sid b e
             d1.pump t isle e1 n
      | none => d

/-! ### Circular waits (R283, R284) -/

/-- A stream is space-blocked (R283). -/
def Dev.spaceBlocked (d : Dev) (isle sid : Nat) : Bool :=
  let a := d.arb isle
  let s := a.stream sid
  let sd := s.d
  decide (sd.dir = 1 ∨ sd.dir = 2) && !s.stopped && !s.done && !s.listDone &&
    s.nextWords.any (fun w => tideReached (a.tideCount s) (s.tideOf (blockOf w))) &&
    (match d.pairAt isle sd.pair with | some (r, q) => decide ((d.pair r q).empty = 0) | none => false)

/-- Edges of the wait-for graph of an isle. -/
def Dev.waitsFor (d : Dev) (isle : Nat) : List (Nat × Nat) :=
  let bs := (d.arb isle).streams.filterMap fun e => if d.spaceBlocked isle e.1 then some e.1 else none
  bs.flatMap fun s => ((d.arb isle).stream s).d.rel.filterMap fun r => if bs.contains r then some (s, r) else none

/-- Nodes reached from a set within n edges. -/
def reachFrom (es : List (Nat × Nat)) : Nat → List Nat → List Nat
  | 0, s => s
  | n + 1, s =>
    let s' := es.foldl (fun a e => if a.contains e.1 then insNat a e.2 else a) s
    if s'.length = s.length then s else reachFrom es n s'

/-- A set of streams forms a cycle: each reaches each by edges within the set. -/
def isCycle (es : List (Nat × Nat)) (set : List Nat) : Bool :=
  let inner := es.filter fun e => set.contains e.1 && set.contains e.2
  !set.isEmpty && set.all fun s =>
    let r := reachFrom inner set.length ((inner.filter fun e => decide (e.1 = s)).map (·.2))
    set.all r.contains

/-- A shortest path back to s, as the set of its nodes: breadth first over (node, path). -/
def shortCycle (es : List (Nat × Nat)) (s : Nat) : Nat → List (Nat × List Nat) → List Nat → Option (List Nat)
  | 0, _, _ => none
  | n + 1, front, seen =>
    match front.find? fun e => es.contains (e.1, s) with
    | some e => some e.2
    | none =>
      let next := front.flatMap fun e => es.filterMap fun x =>
        if x.1 = e.1 ∧ ¬ seen.contains x.2 then some (x.2, insNat e.2 x.2) else none
      if next.isEmpty then none else shortCycle es s n next (next.foldl (fun a e => insNat a e.1) seen)

/-- The victim of a cycle (R284): the member of `DIR` 1 with a delivered block whose next block is due latest. -/
def Dev.victim (d : Dev) (isle : Nat) (set : List Nat) : Option (Nat × Block) :=
  let a := d.arb isle
  let cand := set.filterMap fun sid =>
    let s := a.stream sid
    if s.d.dir ≠ 1 then none
    else (d.pairAt isle s.d.pair).bind fun (r, q) => (d.pair r q).delivered.find? (·.chunk.isNone) |>.map fun b =>
      (sid, b, a.nextDeadline s)
  match cand with
  | [] => none
  | x :: r =>
    let y := r.foldl (fun m e => if m.2.2 < e.2.2 ∨ (m.2.2 = e.2.2 ∧ m.1 < e.1) then e else m) x
    some (y.1, y.2.1)

/-- The chunk to allocate: in the stack with the most free chunks (R284). -/
def Dev.freeChunkAt (d : Dev) (isle : Nat) : Option Nat :=
  let free (k : Nat) : List Nat :=
    (List.range 64).filterMap fun c => if d.chunkOwner isle (64 * k + c) = 0 then some (64 * k + c) else none
  (free ((List.range 4).foldl (fun b k => if (free b).length < (free k).length then k else b) 0)).head?

/-- A cycle has no member that can be a victim, or no chunk is free (R287). -/
def Dev.cycleStuck (d : Dev) (isle : Nat) (set : List Nat) : Bool := (d.victim isle set).isNone || (d.freeChunkAt isle).isNone

/-- The cycles that have lasted 4 µs are counted once, for each job with a stream in them (R289). -/
def Dev.countCycles (d : Dev) (t : TimeBase) (isle : Nat) : Dev :=
  let a := d.arb isle
  let due (c : Cycle) : Bool := decide (c.since + 4000 ≤ t.ns) && !c.counted
  (a.cycles.filter due).foldl (fun d c => c.jobs.foldl (fun d j => d.bump (0x4000 + j) 0x32 1) d)
    (d.setArb isle { a with cycles := a.cycles.map fun c => { c with counted := c.counted || due c } })

/-- The cycles being timed follow the wait-for graph (R284): those that have lasted 4 µs are counted, one that has ceased is
dropped, a new one starts now, and each one's time without a way out goes on, begins or ends (R287). A new cycle is the
shortest closed path through one of its streams (assumption 24). -/
def Dev.trackCycles (d0 : Dev) (t : TimeBase) (isle : Nat) : Dev :=
  let d := d0.countCycles t isle
  let a := d.arb isle
  let es := d.waitsFor isle
  if es.isEmpty ∧ a.cycles.isEmpty then d
  else
    let keep := a.cycles.filter fun c => isCycle es c.set
    let nodes := es.foldl (fun l e => insNat l e.1) []
    let fresh := nodes.filterMap fun s => shortCycle es s 256 [(s, [s])] [s]
    let cs := fresh.foldl (fun (l : List Cycle) c =>
      if l.any (fun x => decide (x.set = c)) then l
      else l ++ [{ set := c, jobs := (c.map fun s => (a.stream s).job).foldl insNat [], since := t.ns }]) keep
    d.setArb isle { a with cycles := cs.map fun c => { c with
      stuck := if d.cycleStuck isle c.set then some (c.stuck.getD t.ns) else none } }

/-! ### Blocks (R270 to R275, R288) -/

/-- The lowest free slot of a pool (R275). -/
def Stream.freeSlot (s : Stream) : Nat := ((List.range s.d.poolSlots).find? fun i => !s.used.contains i).getD 0

/-- BLOCK_START (R270, R272): the first of the eligible blocks starts; the counter tested falls by 1, its granules are
dispatched, and further descriptors are read. -/
def Dev.blockStart (d : Dev) (t : TimeBase) (isle sid : Nat) (e : Ecc) : Dev :=
  let a := d.arb isle
  let s := a.stream sid
  let sd := s.d
  match d.pairAt isle sd.pair, s.nextWords with
  | some (r, q), some w =>
    if ¬ d.mayStart isle sid ∨ d.startsBefore isle (a.nextDeadline s) sid then d
    else
      let b := blockOf w
      let tag := s.tagOf b
      let slot := if sd.dir = 1 then s.freeSlot else tag % sd.poolSlots
      let blk : InBlock := {
        pos := s.at_ % 2 ^ 32, words := w, pass := s.pass, deadline := a.deadlineOf s b, tag := BitVec.ofNat 20 tag, slot := slot }
      let wrap := decide (s.next + 1 = sd.nblk)
      let s1 : Stream := { s with
        inprog := s.inprog ++ [blk], used := if sd.dir = 1 then insNat s.used slot else s.used,
        next := if wrap then 0 else s.next + 1, pass := if wrap then s.pass + 1 else s.pass }
      let d1 := d.subPair r q (decide (sd.dir = 3)) 1
      (((d1.setArb isle ((d1.arb isle).setStream sid s1)).pump t isle e 1024).askList isle sid).trackCycles t isle
  | _, _ => d

/-- BLOCK_START. -/
def execBlockStart (i : IsleId) (sid : Checked (Fin 256)) (s : State) : Host.Outcome State Fault Refusal :=
  act s fun t d => d.blockStart t i.val sid.val.val sid.ecc

/-- A block in progress is replaced. -/
def Dev.setBlock (d : Dev) (isle sid : Nat) (b : InBlock) : Dev :=
  let a := d.arb isle
  let s := a.stream sid
  d.setArb isle (a.setStream sid { s with inprog := s.inprog.map fun y => if y.pos = b.pos then b else y })

/-- STREAM_LATE: counted, and recorded once per stream per epoch (R273). -/
def Dev.streamLate (d : Dev) (t : TimeBase) (isle sid : Nat) : Dev :=
  let a := d.arb isle
  let s := a.stream sid
  let d1 := d.bump (0x4000 + s.job) 0x31 1
  if s.lateLogged then d1
  else
    (d1.setArb isle (a.setStream sid { s with lateLogged := true })).logErr t 0x0140 (job := s.job) (die := isle) (unit := 3) (wh := sid)

/-- GRANULE_COMPLETE (R273 to R275): data read goes into its slot, or as tokens to the route, in address order; a block of a
stopped job is discarded (R288). -/
def Dev.granuleComplete (d : Dev) (t : TimeBase) (isle sid blk g : Nat) (e : Ecc) : Dev :=
  let a := d.arb isle
  let s := a.stream sid
  let sd := s.d
  match s.inprog[blk]? with
  | none => d
  | some b =>
    match b.got.find? fun e => e.1 = g with
    | none => d
    | some (_, data) =>
      if sd.dir = 2 ∧ g ≠ b.doneCount then d
      else
        let b1 : InBlock := { b with got := mdel b.got g, doneCount := b.doneCount + 1 }
        let d1 := d.setBlock isle sid b1
        let d2 :=
          if s.stopped then d1
          else if sd.dir = 1 then
            let r := isle * 36 + sd.poolReef
            d1.setLag r ((List.range data.length).foldl (fun (l : Lagoon) i =>
              l.putEntry (sd.slotEntry b.slot + 8 * g + i) (data.getD i 0)) (d1.lag r))
          else if sd.dir = 2 then
            let epoch := (d.lag ((d.pairAt isle sd.pair).elim (isle * 36) (·.1))).epoch.toNat
            (List.range data.length).foldl (fun (d : Dev) i =>
              d.inject (stopNode isle (stopOfDy 9))
                { hdr := routeHdr (mget 0 a.routes sd.route) epoch b.tag.toNat 0 (dataLow 15 (8 * g + i)), payload := data.getD i 0 }) d1
          else d1
        let whole := decide (b1.doneCount = (blockOf b.words).granules)
        let d3 := if whole ∧ sd.dir ≠ 3 ∧ ¬ s.stopped ∧ b.deadline < t.ns then d2.streamLate t isle sid else d2
        d3.pump t isle e 1024

/-- GRANULE_COMPLETE. -/
def execGranuleComplete (i : IsleId) (sid : Fin 256) (blk : Fin 2) (granule : Checked Nat) (s : State) : Host.Outcome State Fault Refusal :=
  act s fun t d => d.granuleComplete t i.val sid.val blk.val granule.val granule.ecc

/-- Every granule of a block is done; of a stopped stream, every granule that was dispatched (R288). -/
def InBlock.complete (b : InBlock) (stopped : Bool) : Bool :=
  decide ((blockOf b.words).granules ≤ b.doneCount) || (stopped && decide (b.sent ≤ b.doneCount + b.cached.length))

/-- The stream after its block at the head has ended. -/
def Stream.endBlock (s : Stream) (pos : Nat) : Stream :=
  let l := s.inprog.filter fun b => decide (b.pos ≠ pos)
  { s with inprog := l, done := s.listDone && l.isEmpty }

/-- BLOCK_DELIVERED (R274): in list order. -/
def Dev.blockDelivered (d : Dev) (t : TimeBase) (isle sid : Nat) : Dev :=
  let a := d.arb isle
  let s := a.stream sid
  let sd := s.d
  match s.inprog.head?, d.pairAt isle sd.pair with
  | some b, some (r, q) =>
    if ¬ b.complete s.stopped ∨ sd.dir = 3 then d
    else if s.stopped then d.setArb isle (a.setStream sid (s.endBlock b.pos))
    else
      let a1 : Arbiter := { a.setStream sid (s.endBlock b.pos) with
        cycles := a.cycles.map fun c => if c.set.contains sid then { c with since := t.ns, counted := false } else c }
      let d1 := (d.setArb isle a1).addPair t r q true 1
      let p := d1.pair r q
      let blk : Block := { pos := b.pos, slot := b.slot, tag := b.tag, entries := (blockOf b.words).granules * 8 }
      let d2 := if sd.dir = 1 then d1.setPair r q { p with delivered := p.delivered ++ [blk] } else d1
      d2.trackCycles t isle
  | _, _ => d

/-- BLOCK_DELIVERED. -/
def execBlockDelivered (i : IsleId) (sid : Fin 256) (s : State) : Host.Outcome State Fault Refusal :=
  act s fun t d => d.blockDelivered t i.val sid.val

/-- WRITE_BLOCK_COMPLETE (R274). -/
def Dev.writeBlockComplete (d : Dev) (t : TimeBase) (isle sid : Nat) : Dev :=
  let a := d.arb isle
  let s := a.stream sid
  match s.inprog.find? (·.complete s.stopped), d.pairAt isle s.d.pair with
  | some b, some (r, q) =>
    if s.d.dir ≠ 3 then d
    else
      let d1 := d.setArb isle (a.setStream sid (s.endBlock b.pos))
      if s.stopped then d1 else d1.addPair t r q false 1
  | _, _ => d

/-- WRITE_BLOCK_COMPLETE. -/
def execWriteBlockComplete (i : IsleId) (sid : Fin 256) (s : State) : Host.Outcome State Fault Refusal :=
  act s fun t d => d.writeBlockComplete t i.val sid.val

/-! ### Escape (R284 to R287, R289) -/

/-- STREAM_ESCAPE (R284): the victim's oldest delivered block is written into a chunk. -/
def Dev.streamEscape (d0 : Dev) (t : TimeBase) (isle : Nat) (e : Ecc) : Dev :=
  let d := d0.trackCycles t isle
  let a := d.arb isle
  if a.escape.isSome then d
  else
    match (a.cycles.filter fun c => decide (c.since + 4000 ≤ t.ns)).findSome? (fun c => d.victim isle c.set), d.freeChunkAt isle with
    | some (sid, b), some c =>
      let s := a.stream sid
      match d.lagEcc t (isle * 36 + s.d.poolReef) e with
      | (false, d0) => d0
      | (true, d0) =>
      let (k, sec) := chunkAt isle c
      let n := b.entries / 8
      let a1 : Arbiter := { a with escape := some { sid := sid, block := b, chunk := c } }
      let l := d.lag (isle * 36 + s.d.poolReef)
      let reqs := (List.range n).map fun g =>
        ({ cls := 3, sector := sec + 8 * g, count := 8, write := true, data := l.granule (s.d.slotEntry b.slot + 8 * g),
           who := .firmware, job := some s.job, sid := sid, reply := .spill (Fin.ofNat 4 isle) g } : HbmReq)
      let d1 := (d0.setArb isle a1).setChunk isle c (s.slot * 256 + s.job + 1)
      let d2 := d1.setStk k { d1.stk k with arriving := (d1.stk k).arriving ++ reqs }
      let held := d2.jobChunks s.job
      (if d2.ctrN (0x4000 + s.job) 0x33 < held then d2.setCtr (0x4000 + s.job) 0x33 held else d2).drainSpills s.job 0x2004
    | _, _ => d

/-- STREAM_ESCAPE. -/
def execStreamEscape (i : Checked IsleId) (s : State) : Host.Outcome State Fault Refusal :=
  act s fun t d => d.streamEscape t i.val.val i.ecc

/-- ESCAPE_SPILL_COMPLETE (R284): the slot is freed, empty rises, and the measurement of every cycle restarts. A block that
was released meanwhile gives its chunk back. -/
def Dev.spillComplete (d : Dev) (t : TimeBase) (isle : Nat) : Dev :=
  let a := d.arb isle
  match a.escape with
  | none => d
  | some e =>
    if e.accepted < e.block.entries / 8 then d
    else
      let s := a.stream e.sid
      let a1 : Arbiter := { a with escape := none, cycles := a.cycles.map fun c => { c with since := t.ns, counted := false } }
      match d.pairAt isle s.d.pair with
      | none => (d.setArb isle a1).freeChunk isle e.chunk
      | some (r, q) =>
        let p := d.pair r q
        let held := (p.delivered ++ p.acquired).any fun b => decide (b.pos = e.block.pos)
        if ¬ held then (d.setArb isle a1).freeChunk isle e.chunk
        else
          let mark (b : Block) : Block := if b.pos = e.block.pos then { b with chunk := some e.chunk } else b
          let d1 := d.setArb isle (a1.setStream e.sid { s with used := s.used.filter fun x => decide (x ≠ e.block.slot) })
          let d2 := d1.setPair r q { p with delivered := p.delivered.map mark, acquired := p.acquired.map mark }
          let d3 := (d2.addPair t r q false 1).bump (0x4000 + s.job) 0x30 1
          (d3.logErr t 0x2004 (job := s.job) (die := isle) (unit := 3) (wh := e.sid) (tag := e.block.tag.toNat)
            (detail := e.block.pos + e.chunk * 2 ^ 32)).trackCycles t isle

/-- ESCAPE_SPILL_COMPLETE. -/
def execEscapeSpillComplete (i : IsleId) (s : State) : Host.Outcome State Fault Refusal := act s fun t d => d.spillComplete t i.val

/-- STREAM_CYCLE_UNRESOLVED (R287): a cycle without a victim, or without a free chunk, for 100 ms. -/
def Dev.cycleUnresolved (d0 : Dev) (t : TimeBase) (isle : Nat) : Dev :=
  let d := d0.trackCycles t isle
  let a := d.arb isle
  match a.cycles.find? fun c => c.stuck.any fun e => decide (e + 100000000 ≤ t.ns) with
  | none => d
  | some c =>
    c.jobs.foldl (fun d j => d.jobError t j 0x2011 isle 3 9) (d.setArb isle { a with cycles := a.cycles.filter fun x => decide (x.set ≠ c.set) })

/-- STREAM_CYCLE_UNRESOLVED. -/
def execStreamCycleUnresolved (i : IsleId) (s : State) : Host.Outcome State Fault Refusal := act s fun t d => d.cycleUnresolved t i.val

/-- A job's streams on an isle have nothing outstanding (R288). -/
def Dev.streamsQuiet (d : Dev) (isle j : Nat) : Bool :=
  let a := d.arb isle
  a.streams.all (fun (_, s) => decide (s.job ≠ j) || (s.inprog.isEmpty &&
    (match d.pairAt isle s.d.pair with | some (r, q) => (d.pair r q).refill.isNone && (d.pair r q).fetches.isEmpty | none => true))) &&
  (match a.escape with | some e => decide ((a.stream e.sid).job ≠ j) | none => true)

/-- Code of a stream arbiter among the units that report drained. -/
def arbiterUnit (isle : Nat) : Nat := 40000 + isle

/-- STREAMS_DRAINED (R288, R309): the arbiter's report. -/
def execStreamsDrained (i : IsleId) (j : JobId) (s : State) : Host.Outcome State Fault Refusal :=
  act s fun _ d =>
    let b := d.job j.val
    if b.drainAt.isSome ∧ d.streamsQuiet i.val j.val then
      d.setJob j.val { b with drained := insNat b.drained (arbiterUnit i.val) }
    else d

/-! ### Lagoon caches (R192) -/

/-- The cache of a slot in a lagoon: its sets of eight lines, and the key of a line's set. -/
def Lagoon.cacheSet (l : Lagoon) (slot line : Nat) : Option Nat :=
  (l.regions.find? fun e => decide (lrKind e.2 = 3) && decide (lrSlot e.2 = slot)).map fun e =>
    e.1 * 2 ^ 16 + line % max 1 (lrSize e.2 / 64)

/-- LAGOON_CACHE_READ (R192): a granule that waits for the lagoon is delivered on a hit, and fetched in P1 on a miss. -/
def Dev.cacheRead (d : Dev) (t : TimeBase) (r sid line : Nat) (e : Ecc) : Dev :=
  let isle := r / 36
  let a := d.arb isle
  let s := a.stream sid
  let l := d.lag r
  let found := s.inprog.findSome? fun b => (b.cached.find? fun g => granuleHa s.d (blockOf b.words) b.pass g / 256 = line).map fun g => (b, g)
  match found, l.cacheSet s.slot line with
  | some (b, g), some key =>
    if s.stopped then d else
    let d1 := d.setBlock isle sid { b with cached := b.cached.filter fun x => decide (x ≠ g) }
    let set := mget [] l.cache key
    match set.find? fun c => c.line = line with
    | some c =>
      let d2 := d1.setLag r { l with cache := mput [] l.cache key (c :: set.filter fun x => decide (x.line ≠ line)) }
      match d2.lagEcc t r e with
      | (true, d3) => d3.streamGot isle sid b.pos g c.data
      | (false, d3) => d3
    | none =>
      let again := l.fills.any fun f => decide (f.1 = line)
      let d2 := d1.setLag r { l with fills := l.fills ++ [(line, sid, b.pos, g)] }
      if again then d2
      else
        let k := line / 2 ^ 28
        d2.setStk k { d2.stk k with arriving := (d2.stk k).arriving ++
          [{ cls := 1, sector := line % 2 ^ 28 * 8, count := 8, who := .job s.slot s.job, job := some s.job, deadline := b.deadline,
             sid := sid, reply := .fill (Fin.ofNat 144 r) line }] }
  | _, _ => d

/-- LAGOON_CACHE_READ. -/
def execLagoonCacheRead (r : ReefId) (sid : Fin 256) (line : BitVec 32) (e : Ecc) (s : State) : Host.Outcome State Fault Refusal :=
  act s fun t d => d.cacheRead t r.val sid.val line.toNat e

/-- LAGOON_CACHE_FILL (R192): the line fetched takes the place of the least recently used of its set, and is delivered. -/
def Dev.cacheFill (d : Dev) (r line : Nat) : Dev :=
  let isle := r / 36
  let l := d.lag r
  match l.fillData.find? fun e => e.1 = line with
  | none => d
  | some (_, data) =>
    let mine := l.fills.filter fun f => decide (f.1 = line)
    let l1 : Lagoon := { l with fillData := mdel l.fillData line, fills := l.fills.filter fun f => decide (f.1 ≠ line) }
    let l2 := match mine.head?.bind fun f => l.cacheSet ((d.arb isle).stream f.2.1).slot line with
      | some key =>
        let set := (mget [] l.cache key).filter fun c => decide (c.line ≠ line)
        { l1 with cache := mput [] l1.cache key ((({ line := line, data := data } : CacheLine) :: set).take 8) }
      | none => l1
    mine.foldl (fun d f => d.streamGot isle f.2.1 f.2.2.1 f.2.2.2 data) (d.setLag r l2)

/-- LAGOON_CACHE_FILL. -/
def execLagoonCacheFill (r : ReefId) (line : BitVec 32) (s : State) : Host.Outcome State Fault Refusal :=
  act s fun _ d => d.cacheFill r.val line.toNat

end Sys2Proof.Machine
end

