-- ==== Sys2Proof/Machine/Semaphores.lean ====
section
/-! DEFINITION. The semaphore banks (section 8.5): requests, waits, replies, acquired blocks. -/
namespace Sys2Proof.Machine

/-- A request's fields (Table 8-3), with its tag. -/
structure SemReq where
  pair : Nat
  op : Nat
  n : Nat
  k : Nat
  first : Nat
  count : Nat
  route : W64
  seq : Nat
  tag : Nat
  deriving DecidableEq, Repr

def semReqOf (f : Flit) : SemReq :=
  let w := payWord f.payload 0
  { pair := bits w 11 0, op := bits w 15 12, n := bits w 31 16, k := bits w 35 32, first := bits w 48 36, count := bits w 58 49 + 1,
    route := BitVec.ofNat 64 (payWord f.payload 1), seq := bits (payWord f.payload 2) 9 0, tag := f.tag }

/-- Bank slot of a pair, when the semaphore map places the pair in this bank (R193). -/
def Dev.bankSlot (d : Dev) (r pair : Nat) : Option Nat :=
  (d.pairAt (r / 36) pair).bind fun (b, q) => if b = r then some q else none

/-- The `DIR` 1 stream that a pair is bound to. -/
def Dev.poolStream (d : Dev) (isle pair : Nat) : Option (Nat × Stream) :=
  ((d.arb isle).streams.find? fun (_, s) => decide (s.d.dir = 1) && decide (s.d.pair = pair))

/-- `RROUTE` is valid and names no site outside the job's partition (R281). -/
def Dev.rrouteOk (d : Dev) (r : Nat) (route : W64) : Bool :=
  let e := route.toNat
  bit e 23 && (bit e 22 || decide (96 ≤ bits e 8 2) || decide (96 ≤ bits e 15 9) ||
    (match d.jobAt r with
     | some j => (d.job j).reefs.contains (siteReef (siteNo (bits e 1 0) (bits e 15 9) (bits e 8 2)))
     | none => true))

/-- A request that the bank refuses (R281). -/
def Dev.semBad (d : Dev) (r : Nat) (q : SemReq) : Bool :=
  match d.bankSlot r q.pair with
  | none => true
  | some slot =>
    let p := d.pair r slot
    decide (8 ≤ q.op) || (decide (1 ≤ q.op ∧ q.op ≤ 4) && decide (q.n = 0)) ||
    (decide (5 ≤ q.op) && (d.poolStream (r / 36) q.pair).isNone) ||
    (decide (q.op = 5) && decide (16 ≤ p.acquired.length)) ||
    (decide (q.op = 6) && (match p.acquired[q.k]? with | some b => decide (b.entries < q.first + q.count) | none => true)) ||
    (decide (q.op = 7) && p.acquired.isEmpty) ||
    !d.rrouteOk r q.route

/-- A reply of one word (R277). -/
def Dev.semReply (d : Dev) (r : Nat) (q : SemReq) (w : Nat) : Dev :=
  d.inject (reefNode r) { hdr := routeHdr q.route (d.lag r).epoch.toNat q.tag 0 (dataLow 1 q.seq), payload := BitVec.ofNat 256 w }

/-- A waiting operation may be applied. An `ACQ` also needs a delivered block and room in the acquired list (R279). -/
def Pair.satisfies (p : Pair) (q : SemReq) : Bool :=
  if q.op = 3 then decide (q.n ≤ p.full.toNat)
  else if q.op = 4 then decide (q.n ≤ p.empty.toNat)
  else decide (1 ≤ p.full.toNat) && !p.delivered.isEmpty && decide (p.acquired.length < 16)

/-- A waiting operation is applied (Table 8-4). -/
def Dev.semApply (d : Dev) (r slot : Nat) (q : SemReq) : Dev :=
  if q.op = 3 then
    let d1 := d.subPair r slot true q.n
    d1.semReply r q (d1.pair r slot).full.toNat
  else if q.op = 4 then
    let d1 := d.subPair r slot false q.n
    d1.semReply r q (d1.pair r slot).empty.toNat
  else
    let d1 := d.subPair r slot true 1
    let p := d1.pair r slot
    match p.delivered with
    | [] => d1
    | b :: rest => (d1.setPair r slot { p with delivered := rest, acquired := p.acquired ++ [b] }).semReply r q b.pos

/-- A request that has reached the bank and that `mine` names (R276, R278): refused, or given to `go`. -/
def Dev.semEject (d : Dev) (t : TimeBase) (r : Nat) (p : Port) (c : Cls) (mine : Nat → Bool) (go : Dev → Nat → SemReq → Flit → Dev) : Dev :=
  d.lagEject t r p c
    (fun l f => decide (f.kind ≠ 1) && decide (f.queue = 62) && mine (if f.kind = 0 then (semReqOf f).op else 0) &&
      decide (l.waits.length < 32))
    fun d f =>
      let q := semReqOf f
      if f.kind ≠ 0 then (Dev.lagTake r p c d).lagError t r 0x200A f.queue
      else if d.semBad r q then (Dev.lagTake r p c d).lagError t r 0x2012 q.tag
      else (go d ((d.bankSlot r q.pair).getD 0) q f).trackCycles t (r / 36)

/-- SEMAPHORE_READ (R277); it also takes what names no operation (R281). -/
def execSemaphoreRead (r : ReefId) (p : Port) (c : Cls) (s : State) : Host.Outcome State Fault Refusal :=
  act s fun t d => d.semEject t r.val p c (fun op => decide (op = 0 ∨ 8 ≤ op)) fun d slot q _ =>
    let x := d.pair r.val slot
    (Dev.lagTake r.val p c d).semReply r.val q (x.full.toNat + x.empty.toNat * 65536)

/-- POST_FULL (R277). -/
def execPostFull (r : ReefId) (p : Port) (c : Cls) (s : State) : Host.Outcome State Fault Refusal :=
  act s fun t d => d.semEject t r.val p c (fun op => decide (op = 1)) fun d slot q _ =>
    (Dev.lagTake r.val p c d).addPair t r.val slot true q.n

/-- POST_EMPTY (R277). -/
def execPostEmpty (r : ReefId) (p : Port) (c : Cls) (s : State) : Host.Outcome State Fault Refusal :=
  act s fun t d => d.semEject t r.val p c (fun op => decide (op = 2)) fun d slot q _ =>
    (Dev.lagTake r.val p c d).addPair t r.val slot false q.n

/-- An older wait on the pair could be applied now. -/
def olderReady (pair : Nat) (p : Pair) (ws : List SemWait) : Bool :=
  ws.any fun w => decide ((semReqOf w.flit).pair = pair) && p.satisfies (semReqOf w.flit)

/-- A wait that arrives is applied, or held (R278). -/
def Dev.semWait (d : Dev) (r : Nat) (p : Port) (c : Cls) (slot : Nat) (q : SemReq) (f : Flit) : Dev :=
  let x := d.pair r slot
  let d1 := Dev.lagTake r p c d
  if x.satisfies q ∧ ¬ olderReady q.pair x (d.lag r).waits then d1.semApply r slot q
  else d1.setLag r { d1.lag r with waits := (d1.lag r).waits ++ [{ flit := f }] }

/-- WAIT_FULL (R277). -/
def execWaitFull (r : ReefId) (p : Port) (c : Cls) (s : State) : Host.Outcome State Fault Refusal :=
  act s fun t d => d.semEject t r.val p c (fun op => decide (op = 3)) fun d slot q f => d.semWait r.val p c slot q f

/-- WAIT_EMPTY (R277). -/
def execWaitEmpty (r : ReefId) (p : Port) (c : Cls) (s : State) : Host.Outcome State Fault Refusal :=
  act s fun t d => d.semEject t r.val p c (fun op => decide (op = 4)) fun d slot q f => d.semWait r.val p c slot q f

/-- ACQ (R277). -/
def execAcq (r : ReefId) (p : Port) (c : Cls) (s : State) : Host.Outcome State Fault Refusal :=
  act s fun t d => d.semEject t r.val p c (fun op => decide (op = 5)) fun d slot q f => d.semWait r.val p c slot q f

/-- FETCH (R279, R286): the entries from the pool's slot, or, when the block has escaped, by way of the chunk's stack. While a
refill of the pair is outstanding it waits for its turn, an entry in the pool as it stands now. -/
def execFetch (r : ReefId) (p : Port) (c : Cls) (e : Ecc) (s : State) : Host.Outcome State Fault Refusal :=
  act s fun t d => d.semEject t r.val p c (fun op => decide (op = 6)) fun d slot q _ =>
    let x := d.pair r.val slot
    match x.acquired[q.k]?, d.poolStream (r.val / 36) q.pair with
    | some b, some (_, st) =>
      let d1 := Dev.lagTake r.val p c d
      let (k, sec) := chunkAt (r.val / 36) (b.chunk.getD 0)
      let rf : Refill :=
        { route := q.route, tag := BitVec.ofNat 20 q.tag, seq := q.seq, stack := k, sector := sec + q.first, left := q.count,
          asked := t.ns, job := st.job }
      match b.chunk with
      | some _ =>
        if x.refill.isSome then d1.setPair r.val slot { x with fetches := x.fetches ++ [{ refill := rf }] }
        else (d1.setPair r.val slot { x with refill := some rf }).askRefill r.val slot rf
      | none =>
        let pool := r.val / 36 * 36 + st.d.poolReef
        match d1.lagEcc t pool e with
        | (false, d2) => d2
        | (true, d2) =>
          let ws := (List.range q.count).map fun i => mget 0 (d2.lag pool).mem (st.d.slotEntry b.slot + q.first + i)
          if x.refill.isSome then d2.setPair r.val slot { x with fetches := x.fetches ++ [{ refill := rf, data := some ws }] }
          else (List.range q.count).foldl (fun (d : Dev) i =>
            d.inject (reefNode r.val) (rf.reply (d.lag r.val).epoch.toNat i (ws.getD i 0))) d2
    | _, _ => d

/-- REL (R280): a chunk that an accepted FETCH still reads is released after it (R286). -/
def execRel (r : ReefId) (p : Port) (c : Cls) (s : State) : Host.Outcome State Fault Refusal :=
  act s fun t d => d.semEject t r.val p c (fun op => decide (op = 7)) fun d slot q _ =>
    let x := d.pair r.val slot
    let isle := r.val / 36
    match x.acquired, d.poolStream isle q.pair with
    | b :: rest, some (sid, st) =>
      let d1 := (Dev.lagTake r.val p c d).setPair r.val slot { x with acquired := rest }
      match b.chunk with
      | some ch => (d1.setPair r.val slot { x with acquired := rest, freeing := x.freeing ++ [ch] }).settleChunks r.val slot
      | none =>
        (d1.setArb isle ((d1.arb isle).setStream sid { st with used := st.used.filter fun i => decide (i ≠ b.slot) })).addPair t
          r.val slot false 1
    | _, _ => d

/-- SEMAPHORE_WAIT_SATISFIED (R278): the oldest wait of its pair that may be applied. -/
def execSemaphoreWaitSatisfied (r : ReefId) (k : Fin 32) (s : State) : Host.Outcome State Fault Refusal :=
  act s fun t d =>
    let l := d.lag r.val
    match l.waits[k.val]? with
    | none => d
    | some w =>
      let q := semReqOf w.flit
      match d.bankSlot r.val q.pair with
      | none => d
      | some slot =>
        let x := d.pair r.val slot
        if x.satisfies q ∧ ¬ olderReady q.pair x (l.waits.take k.val) then
          (((d.setLag r.val { l with waits := l.waits.eraseIdx k.val })).semApply r.val slot q).trackCycles t (r.val / 36)
        else d

end Sys2Proof.Machine
end

