-- ==== Sys2Proof/Machine/StraitLink.lean ====
section
/-! DEFINITION. Strait links, the sending side (sections 13.1 to 13.5): rails, flows, the record stream, frames and their keys,
credits, and the way of a record over the I/O ring to a link of another strait die. -/
namespace Sys2Proof.Machine

/-! ### Rails and link objects (R404, R413, Table 13-8) -/

/-- `DIE` of a strait link (Table 17-18). -/
def linkDie (l : Nat) : Nat := 24 + l / 4

/-- The links that are up, ascending. -/
def Dev.upLinks (d : Dev) : List Nat := (List.range 16).filter fun l => decide ((d.lnk l).state = .up)

/-- Peers of the links that are up, in ascending order of their lowest link. -/
def Dev.peersUp (d : Dev) : List (List Byte) :=
  d.upLinks.foldl (fun l k => if l.contains (d.lnk k).peer then l else l ++ [(d.lnk k).peer]) []

def LinkState.code : LinkState → Nat
  | .down => 0 | .training => 1 | .securing => 2 | .up => 3

/-- `STRAIT_LINK_STATE_j`. -/
def Link.word (k : Link) : Nat := k.state.code + 4 * k.rail + 64 * k.spared

/-- The rail of every link and the rail map follow from the links that are up and their peers (R413). -/
def Dev.setRails (d : Dev) : Dev :=
  let ps := d.peersUp
  let d1 := (List.range 16).foldl (fun d l =>
    let k := d.lnk l
    let r := if k.state = .up then (let i := ps.idxOf k.peer; if i < 8 then i else 15) else 15
    d.setLnk l { k with rail := r }) d
  let d3 := (List.range 8).foldl (fun d r =>
    d.setCtr 0x2B00 (0x60 + r) (sumNat ((List.range 16).map fun l => if (d.lnk l).rail = r then 2 ^ l else 0))) d1
  d3.setCtr 0x2B00 2 (min 8 ps.length)

/-- The rail of a peer: one with a link up and a number. -/
def Dev.railOf (d : Dev) (id : List Byte) : Option Nat :=
  (d.upLinks.find? fun l => decide ((d.lnk l).peer = id) && decide ((d.lnk l).rail < 8)).map fun l => (d.lnk l).rail

/-- The link of a flow (R414): number `sel` modulo m among the m live links of the rail on the sending die, else on the nearest
die that has one; of two as near, the one that lies clockwise. -/
def Dev.pickLink (d : Dev) (isle rail sel : Nat) : Option Nat :=
  let on (i : Nat) : List Nat := ((List.range 4).map (4 * i + ·)).filter fun l =>
    decide ((d.lnk l).state = .up) && decide ((d.lnk l).rail = rail)
  ([0, 1, 3, 2].map fun k => on (ringIsles.getD ((islePos isle + k) % 4) 0)).findSome? fun l =>
    if l.isEmpty then none else l[sel % l.length]?

/-! ### Ranks (R415, R417) -/

/-- The entry of this device for a plan. -/
def Membership.own (m : Membership) (meas : List Byte) : Option Member :=
  m.members.find? fun e => decide (e.id = Config.deviceId) && decide (e.plan = meas)

/-- A rank under the membership; a backup stands where the rank it shadows stands. -/
def Member.at_ (e : Member) : Nat := if e.role = 1 then e.backupOf else e.rank

/-- Place in the record of the contributing member of a rank. -/
def Membership.ofRank (m : Membership) (r : Nat) : Option Nat := m.members.findIdx? fun e => decide (e.role = 0) && decide (e.rank = r)

/-- Identity of a rank. -/
def Membership.idOf (m : Membership) (r : Nat) : Option (List Byte) := (m.ofRank r).bind fun i => (m.members[i]?).map (·.id)

/-- A signed 16-bit offset or an absolute rank (Table 13-7, `MODE`). -/
def peerRank (m : Membership) (own : Nat) (e : Nat × Nat) : Nat :=
  if e.1 = 1 then ((own + ofTwos 16 e.2) % (max 1 m.d : Nat)).toNat else e.2

/-! ### Records and frames as bytes (Tables 13-1 and 13-2) -/

/-- A run header. -/
def recordHeader (r : StraitRecord) : StraitBeat :=
  BitVec.ofNat 128 (r.fjh.toNat + r.fepoch.toNat * 2 ^ 16 + r.tag.toNat * 2 ^ 32 + r.kind.toNat * 2 ^ 52 + r.rt.toNat * 2 ^ 56 +
    r.ch.toNat * 2 ^ 64 + r.phase.toNat * 2 ^ 80 + (r.payloads.length + 255) % 256 * 2 ^ 88 + r.wofs.toNat * 2 ^ 96)

/-- A record in the stream: its run header, then its payloads. -/
def recordBeats (r : StraitRecord) : List StraitBeat :=
  recordHeader r :: r.payloads.flatMap fun w => [w.extractLsb' 0 128, w.extractLsb' 128 128]

/-- The payloads that beats hold. -/
def beatPays : List StraitBeat → List W256
  | a :: b :: l => (b ++ a) :: beatPays l
  | _ => []

/-- The record of a run header and the beats after it. -/
def recordOf (h : StraitBeat) (l : List StraitBeat) : StraitRecord :=
  { fjh := h.extractLsb' 0 16, fepoch := h.extractLsb' 16 16, tag := h.extractLsb' 32 20, kind := h.extractLsb' 52 4,
    rt := h.extractLsb' 56 4, ch := h.extractLsb' 64 16, phase := h.extractLsb' 80 8, wofs := h.extractLsb' 96 32,
    payloads := beatPays l }

/-- The whole records at the front of the stream, and the beats of one that goes on in the next frame; after type 15 the rest
of the frame carries nothing (R406). -/
def takeRecords : Nat → List StraitBeat → List StraitRecord × List StraitBeat
  | 0, b => ([], b)
  | _, [] => ([], [])
  | n + 1, h :: b =>
    let k := 2 * ((h.extractLsb' 88 8).toNat + 1)
    if h.extractLsb' 56 4 = 15 then ([], [])
    else if b.length < k then ([], h :: b)
    else (recordOf h (b.take k) :: (takeRecords n (b.drop k)).1, (takeRecords n (b.drop k)).2)

/-- The payload of a frame: beats of the stream, and filler where there are fewer than 192. -/
def fillPayload (b : List StraitBeat) : List StraitBeat :=
  if b.length < 192 then b ++ BitVec.ofNat 128 (15 * 2 ^ 56) :: List.replicate (191 - b.length) 0 else b

/-- Bytes 0–15 of a frame, and bytes 16–3,183 in clear. -/
def frameHeader (f : StraitFrame) : List Byte :=
  le 8 f.txc.toNat ++ le 2 f.fseq.toNat ++ le 2 (f.ack.toNat + b2n f.nak * 2 ^ 12 + b2n f.keysel * 2 ^ 13) ++ le 4 0
def frameBody (f : StraitFrame) : List Byte :=
  f.payload.flatMap (fun b => le 16 b.toNat) ++ f.credits.flatMap fun c => le 4 c.toNat

/-! ### Keys (R410) -/

/-- Text as bytes. -/
def textBytes (s : String) : List Byte := s.toList.map fun c => BitVec.ofNat 8 c.toNat

/-- Direction of what this device sends: 0 from the device with the lower peer identity (compared from its first byte on;
assumption 104). -/
def Link.dir (k : Link) : Bool := decide (leNat k.peer.reverse < leNat Config.deviceId.reverse)

/-- Key, or salt, of a direction and a key-set number. -/
def Link.derived (k : Link) (what : String) (dir set : Bool) (n : Nat) : List Byte :=
  let digit (b : Bool) : String := if b then " 1" else " 0"
  Config.hkdf (le 48 k.secret.toNat) (textBytes ("vz strait " ++ what ++ digit dir ++ digit set)) n

/-- A frame as it leaves on the lanes: the header in clear, the rest encrypted, and the tag. -/
def Link.image (k : Link) (f : StraitFrame) : List Byte :=
  let (c, tag) := Config.gcm (BitVec.ofNat 256 (leNat (k.derived "key" k.dir f.keysel 32)))
    (k.derived "salt" k.dir f.keysel 4 ++ le 8 f.txc.toNat) (frameHeader f) (frameBody f)
  frameHeader f ++ c ++ tag

/-! ### Sending (R405 to R408) -/

/-- Key of a credit pool: `CFJH` × 64 + `CCH`; the collective pool is that of handle 0xFFFF. -/
def poolKey (r : StraitRecord) : Nat := if r.rt = 0 then r.fjh.toNat * 64 + r.ch.toNat % 64 else 0xFFFF * 64

/-- The 24 credit entries of a frame, for slots freed and not yet returned, and what is left of them. -/
def creditEntries (m : Map Nat) : List W32 × Map Nat :=
  let l := (m.take 24).map fun e => (e.1, min 1023 e.2)
  ((l.map fun e => BitVec.ofNat 32 (e.1 / 64 + e.1 % 64 * 2 ^ 16 + e.2 * 2 ^ 22)) ++ List.replicate (24 - l.length) 0,
    l.foldl (fun m e => mput 0 m e.1 (mget 0 m e.1 - e.2)) m)

/-- A frame leaves under a sequence number, with fresh counter, acknowledgement and credit fields. -/
def Link.emit (k : Link) (fseq : Nat) (payload : List StraitBeat) : Link :=
  let (cs, left) := creditEntries k.freed
  let f : StraitFrame :=
    { txc := BitVec.ofNat 64 k.txc, fseq := BitVec.ofNat 12 fseq, ack := BitVec.ofNat 12 (k.expect + 4095), nak := k.nakOut,
      keysel := k.keysel, payload := payload, credits := cs }
  { k with txc := k.txc + 1, nakOut := false, ackOwed := false, freed := left, sent := k.image f }

/-- The next frame of the stream leaves, and is kept until it is acknowledged. -/
def Link.sendFrame (k : Link) : Link :=
  let now := k.txStream.take 192
  let p := fillPayload (now.map (·.1))
  { k.emit k.fseq p with
    fseq := (k.fseq + 1) % 4096, txStream := k.txStream.drop 192,
    unacked := k.unacked ++ [{ fseq := k.fseq, payload := p, ends := now.filterMap (·.2) }] }

/-- The peer is owed an acknowledgement, a NAK or credits. -/
def Link.owes (k : Link) : Bool := k.ackOwed || k.nakOut || !k.freed.isEmpty

/-- Frames leave while there is something to send and fewer than 256 are unacknowledged (R407). -/
def Link.frames : Nat → Link → Link
  | 0, k => k
  | n + 1, k => if k.unacked.length < 256 ∧ (k.txStream.isEmpty = false ∨ k.owes) then Link.frames n k.sendFrame else k

/-- The link carries records now. -/
def Link.live (k : Link) : Bool := decide (k.state = .up) && k.retraining.isNone && !k.prbs

/-- A link can send a record now: it holds the record's credits, and fewer than 256 frames are unacknowledged. -/
def Link.ready (k : Link) (r : StraitRecord) : Bool :=
  k.live && decide (k.unacked.length < 256) && decide (r.payloads.length ≤ mget 0 k.credits (poolKey r))

/-- A record joins the stream, for its credits. -/
def Link.accept (k : Link) (r : StraitRecord) : Link :=
  let b := recordBeats r
  { k with
    txStream := k.txStream ++ (b.zipIdx.map fun (x, i) => (x, if i + 1 = b.length then some r else none)),
    credits := mput 0 k.credits (poolKey r) (mget 0 k.credits (poolKey r) - r.payloads.length) }

/-- The first waiting record that may go: none of its pool waits before it. -/
def Link.nextOut (k : Link) : Option Nat :=
  (List.range k.sendQ.length).find? fun i => match k.sendQ[i]? with
    | some r => k.ready r && !(k.sendQ.take i).any fun x => decide (poolKey x = poolKey r)
    | none => false

/-- Waiting records join the stream as far as credits allow. -/
def Link.acceptAll : Nat → Link → Link
  | 0, k => k
  | n + 1, k =>
    match k.nextOut with
    | some i => match k.sendQ[i]? with
      | some r => Link.acceptAll n ({ k with sendQ := k.sendQ.eraseIdx i }.accept r)
      | none => k
    | none => k

/-- Everything leaves that may leave now. -/
def Link.flush (k : Link) : Link := if k.live then Link.frames 256 (Link.acceptAll k.sendQ.length k) else k

/-- Every unacknowledged frame is sent again as a new frame, and counted (R407). -/
def Dev.resend (d : Dev) (l : Nat) : Dev :=
  let k := d.lnk l
  (d.setLnk l (k.unacked.foldl (fun k e => k.emit e.fseq e.payload) k)).bump 0x2B00 (0x50 + l) k.unacked.length

/-! ### Flows and the way over the I/O ring (R26, R412, R414) -/

/-- Die of the I/O ring of a strait die. -/
def straitNode (die : Nat) : Node := ringNode (2 * islePos die)

/-- A record belongs to a flow. -/
def Flow.carries (f : Flow) (peer : List Byte) (r : StraitRecord) : Bool :=
  decide (f.peer = peer ∧ f.rt = r.rt.toNat ∧ f.fjh = r.fjh.toNat ∧ f.ch = r.ch.toNat) &&
    (decide (f.rt = 0) || decide (f.tag = r.tag.toNat ∧ f.seg ≤ r.wofs.toNat ∧ r.wofs.toNat < f.seg + 1024))

/-- The link of a record's flow to a peer: a flow keeps its link (R412), and one that starts takes link number `sel` of the rail
(R414). None: the peer has no rail. -/
def Dev.flowLink (d : Dev) (die : Nat) (peer : List Byte) (r : StraitRecord) (seg sel : Nat) : Option (Nat × Dev) :=
  match d.flows.find? fun f => decide (f.die = die) && f.carries peer r with
  | some f => some (f.link, d)
  | none => (d.railOf peer).bind fun rail => (d.pickLink die rail sel).map fun l =>
      (l, { d with flows := d.flows ++ [{
        peer := peer, rt := r.rt.toNat, fjh := r.fjh.toNat, ch := r.ch.toNat, tag := if r.rt = 0 then 0 else r.tag.toNat, seg := seg,
        die := die, sel := sel, link := l }] })

/-- The link of a record that moves: that of its flow, or the one that its flow would take from its die (R412, R414). -/
def Dev.linkOf (d : Dev) (die : Nat) (peer : List Byte) (r : StraitRecord) : Option Nat :=
  ((d.flows.find? (·.carries peer r)).map (·.link)).orElse fun _ => (d.railOf peer).bind fun rail =>
    d.pickLink die rail (if r.rt = 0 then r.ch.toNat + r.fjh.toNat else r.wofs.toNat / 1024 + r.ch.toNat)

/-- A record enters the I/O ring for the link of another strait die; a run crosses as one flit (assumption 138). -/
def Dev.putCargo (d : Dev) (die l : Nat) (r : StraitRecord) : Dev :=
  d.putFlit (straitNode die) .loc .first
    { flit := { hdr := BitVec.ofNat 64 0, payload := r.payloads.headD 0 }, src := straitNode die, dst := .die (Fin.ofNat 8 (2 * islePos (l / 4))),
      cargo := some (l, r) }

/-- Records of other strait dies enter the ring, in order, as far as it has room. -/
def Dev.enterRing (d : Dev) (l : Nat) : Dev :=
  let (d1, keep) := (d.lnk l).fromRing.foldl (fun (a : Dev × List (Nat × StraitRecord)) e =>
    if a.1.canInject (straitNode e.1) 0 ∧ (a.2.any fun y => decide (y.1 = e.1)) = false then (a.1.putCargo e.1 l e.2, a.2)
    else (a.1, a.2 ++ [e])) (d, [])
  d1.setLnk l { d1.lnk l with fromRing := keep }

/-- What waits for a link leaves as far as it may. -/
def Dev.flushLink (d : Dev) (l : Nat) : Dev := let d1 := d.enterRing l; d1.setLnk l (d1.lnk l).flush

/-- Records wait for a link at their die, then leave. -/
def Dev.queueAt (d : Dev) (die l : Nat) (rs : List StraitRecord) : Dev :=
  let k := d.lnk l
  (d.setLnk l (if l / 4 = die then { k with sendQ := k.sendQ ++ rs } else { k with fromRing := k.fromRing ++ rs.map (die, ·) })).flushLink l

/-- A record of a pool waits on its way to a frame. -/
def Dev.poolWaits (d : Dev) (key : Nat) : Bool :=
  d.links.any (fun e => (e.2.sendQ.any fun x => decide (poolKey x = key)) || e.2.fromRing.any fun x => decide (poolKey x.2 = key)) ||
    d.fabric.bufs.any fun b => b.2.any fun x => x.cargo.any fun c => decide (poolKey c.2 = key)

/-- A record of a channel can leave a strait die for a link now: none of its flow waits before it. -/
def Dev.canLeave (d : Dev) (die l : Nat) (r : StraitRecord) : Bool :=
  (d.lnk l).ready r && !d.poolWaits (poolKey r) && (decide (l / 4 = die) || d.canInject (straitNode die) 0)

/-- A record that has crossed the ring to a strait die waits for its flow's link (R412, R414). -/
def Dev.cargoIn (d : Dev) (l : Nat) (r : StraitRecord) : Dev :=
  match d.linkOf (l / 4) (d.lnk l).peer r with
  | some x => d.queueAt (l / 4) x [r]
  | none => d

end Sys2Proof.Machine
end

