-- ==== Sys2Proof/Machine/Causeway.lean ====
section
/-! DEFINITION. The causeway unit of an isle (chapter 11): logit and label inputs, the reducer, the soft-target ring, the matcher.
A unit's tokens leave at the causeway's stop of the perimeter ring. -/
namespace Sys2Proof.Machine

/-! ### The record and the key sequence (R346, R347, R356) -/

def cwNode (i : Nat) : Node := stopNode i (stopOfDy 6)

/-- Role of a queue: 1 teacher, 2 student, 3 labels, 4 records; 0 off or reserved (Table 11-2). -/
def CwRec.role (c : CwRec) (q : Nat) : Nat :=
  if q < 32 then
    (match (c.inputs.getD q (0, 0, 0, 0)).1 with
     | 1 => b2n c.reducer
     | 2 => 2 * b2n c.matcher
     | _ => 0)
  else if q = 62 then 3 * b2n c.matcher else if q = 63 then 4 * b2n c.matcher else 0

/-- Key shift of a queue's tags; labels are the student's, records the teacher's. -/
def CwRec.shift (c : CwRec) (role : Nat) : Nat := if role = 1 ∨ role = 4 then c.shT else c.shS

/-- Logit queues of a role. -/
def CwRec.queues (c : CwRec) (role : Nat) : List Nat := (List.range 32).filter fun q => decide (c.role q = role)

/-- `VBASE` and tokens per row of a logit queue. -/
def CwRec.vbase (c : CwRec) (q : Nat) : Nat := (c.inputs.getD q (0, 0, 0, 0)).2.2.1
def CwRec.toks (c : CwRec) (q : Nat) : Nat := (c.inputs.getD q (0, 0, 0, 0)).2.2.2 / 16

/-- Slots of the ring (R354), and bytes of a record (R353). -/
def CwRec.slots (c : CwRec) : Nat := (c.w + 1) * c.kps
def CwRec.recBytes (c : CwRec) : Nat := 32 + 8 * c.k

/-- Where a reducer's records go: a unit that holds both roles places them in its own ring, whatever `RECDEST` holds (R345,
assumption 143). -/
def CwRec.dest (c : CwRec) : Nat := if c.reducer ∧ c.matcher then 0 else c.recDest

def Causeway.q (u : Causeway) (q : Nat) : InQueue := mget {} u.queues q
def Causeway.setQ (u : Causeway) (q : Nat) (x : InQueue) : Causeway := { u with queues := mput {} u.queues q x }

/-- Key of a number of the epoch. -/
def keyOf (key0 shift n : Nat) : Nat := (key0 + n) % 2 ^ (20 - shift)

/-- The queue has all of its key in progress. -/
def Causeway.full (u : Causeway) (c : CwRec) (q : Nat) : Bool :=
  let s := u.q q
  s.empty || (if q = 62 then decide (ceilDiv c.r 8 ≤ s.tok) else decide (c.r ≤ s.row))

/-- Number of the key that a token of a key brings to a queue, and whether the key begins there; none: out of sequence (R356). -/
def Causeway.keyStep (u : Causeway) (c : CwRec) (q key : Nat) : Option (Nat × Bool) :=
  let s := u.q q
  let role := c.role q
  let base := if role = 1 ∨ role = 4 then u.key0 else u.skey0
  if ¬ s.seen then
    (match base with
     | none => some (0, true)
     | some k => if k = key then some (0, true) else none)
  else if key = s.key ∧ ¬ u.full c q then some (s.begun - 1, false)
  else if key = (s.key + 1) % 2 ^ (20 - c.shift role) ∧ u.full c q then some (s.begun, true)
  else none

/-- A key begins on a queue. -/
def Causeway.beginKey (u : Causeway) (c : CwRec) (q key n : Nat) : Causeway :=
  let s := u.q q
  let teacher : Bool := decide (c.role q = 1 ∨ c.role q = 4)
  let u1 := u.setQ q { s with begun := n + 1, key := key, row := 0, tok := 0, empty := false, seen := true }
  { u1 with
    nR := if teacher then max u.nR (n + 1) else u.nR,
    key0 := if teacher ∧ n = 0 then some key else u.key0,
    skey0 := if ¬ teacher ∧ n = 0 then some key else u.skey0 }

/-- The keys of number 0 of the two roles differ (R356). -/
def Causeway.rolesDiffer (u : Causeway) (c : CwRec) : Bool :=
  match u.key0, u.skey0 with
  | some a, some b => decide (a % 2 ^ (20 - max c.shT c.shS) ≠ b % 2 ^ (20 - max c.shT c.shS))
  | _, _ => false

/-- Queues that brought key n empty, for role 1 or 2, or as a record (3). -/
def Causeway.emptyOn (u : Causeway) (n role : Nat) : List Nat := mget [] u.empties (n * 4 + role)
def Causeway.addEmpty (u : Causeway) (n role q : Nat) : Causeway :=
  { u with empties := mput [] u.empties (n * 4 + role) (insNat (u.emptyOn n role) q) }

/-- A key is empty on some queues and not on others, or for one role and not for the other (R350). -/
def Causeway.emptyClash (u : Causeway) (c : CwRec) (n : Nat) : Bool :=
  let data (qs : List Nat) (role : Nat) : Bool := qs.any fun q => decide (n < (u.q q).begun) && !(u.emptyOn n role).contains q
  let tData := data (c.queues 1) 1 || data [63] 3
  let sData := data (c.queues 2 ++ [62]) 2
  let tEmpty := !(u.emptyOn n 1).isEmpty || !(u.emptyOn n 3).isEmpty
  let sEmpty := !(u.emptyOn n 2).isEmpty
  (tData || sData) && (tEmpty || sEmpty)

/-! ### Tokens that reach the unit (R154, R346) -/

def Dev.cwTake (i : Nat) (p : Port) (c : Cls) (d : Dev) : Dev := d.takeFlit (cwNode i) p c

/-- The job stops with an error of the unit. -/
def Dev.cwErr (d : Dev) (t : TimeBase) (i code q : Nat) : Dev :=
  match (d.cw i).job with
  | some j => d.jobError t j code i 3 6 q
  | none => d.logErr t code (die := i) (unit := 3) (wh := 6) (tag := q)

/-- A token that has reached one of the queues `mine` names: of a queue whose role is off, of a kind the queue does not accept,
or with a `WMASK` other than 0xF it is discarded and the job stops (R346, R347). -/
def Dev.cwEject (d : Dev) (t : TimeBase) (i : Nat) (p : Port) (c : Cls) (mine : Nat → Bool)
    (go : Dev → CwRec → Flit → Dev) : Dev :=
  match d.arrived (cwNode i) p c with
  | none => d
  | some tr =>
    let f := tr.flit
    let u := d.cw i
    let take := Dev.cwTake i p c
    if ¬ mine f.queue then d
    else match u.job with
      | none => (take d).cwErr t i 0x2014 f.queue
      | some j =>
        d.unitGate t j u.epoch.toNat i 3 6 tr take fun d =>
          let r := cwRecOf u.record
          if r.role f.queue = 0 ∨ (f.kind ≠ 0 ∧ f.kind ≠ 4) ∨ (f.kind = 0 ∧ f.hi4 ≠ 15) then (take d).cwErr t i 0x2014 f.queue
          else go d r f

/-- A token towards a route entry of the record; an entry that is not valid takes none. -/
def Dev.cwSend (d : Dev) (i : Nat) (route : W64) (tag kind low : Nat) (pay : W256) : Dev :=
  if route.getLsbD 23 then
    d.inject (cwNode i) { hdr := routeHdr route (d.cw i).epoch.toNat tag (if route.getLsbD 22 then 1 else kind) low, payload := pay }
  else d

/-! ### Storing and sending records (R353 to R355, R362) -/

/-- Lagoon and first entry of row r of ring slot s. -/
def Dev.ringEntryOf (d : Dev) (i : Nat) (c : CwRec) (s r : Nat) : Nat × Nat :=
  let g := c.ring.getD (s % max 1 c.nreg) (0, 0)
  let lag := i * 36 + g.1
  (lag, lrBase (mget 0 (d.lag lag).regions g.2) + (s / max 1 c.nreg * c.r + r) * (c.recBytes / 32))

/-- A record's bytes are stored as row r of key n. -/
def Dev.ringStore (d : Dev) (i : Nat) (c : CwRec) (n r : Nat) (b : List Byte) : Dev :=
  let s := n % max 1 c.slots
  let (lag, e) := d.ringEntryOf i c s r
  let l := (List.range (b.length / 32)).foldl (fun l k => l.putEntry (e + k) (bytesPay (b.drop (32 * k)))) (d.lag lag)
  let d1 := d.setLag lag l
  let u := d1.cw i
  d1.setCw i { u with written := mput 0 u.written s (r + 1) }

/-- The stored record of row r of key n. -/
def Dev.ringLoad (d : Dev) (i : Nat) (c : CwRec) (n r : Nat) : List Byte :=
  let (lag, e) := d.ringEntryOf i c (n % max 1 c.slots) r
  (List.range (c.recBytes / 32)).flatMap fun k => payBytes (mget 0 (d.lag lag).mem (e + k))

/-- The flow of a reducer's records to the strait peer, on channel 63 (R362): the link, the membership, and the device with the flow
bound. A departing device sends none (R429). -/
def Dev.recordLink (d : Dev) (i j : Nat) (c : CwRec) : Option (Nat × Membership × Dev) :=
  (d.job j).plan.bind fun p => (collRec p.image).bind fun cr =>
    let m := (d.job j).mem
    (m.own p.meas).bind fun own =>
      if own.role = 2 then none
      else (((cr.peers[c.peer]?).bind fun e => m.idOf (peerRank m own.at_ e)).bind fun id =>
        d.flowLink i id { fjh := BitVec.ofNat 16 m.fjh, fepoch := m.fepoch, tag := 0, kind := 0, rt := 0, ch := 63, phase := 0, wofs := 0,
                          payloads := [] } 0 (63 + m.fjh)).map fun e => (e.1, m, e.2)

/-- A record can leave now. -/
def Dev.recordReady (d : Dev) (i j : Nat) (c : CwRec) : Bool :=
  match c.dest with
  | 0 => true
  | 1 => d.canInject (cwNode i) 0
  | _ => (d.recordLink i j c).any fun e => !d.poolWaits (e.2.1.fjh * 64 + 63) && (decide (e.1 / 4 = i) || d.canInject (straitNode i) 0)

/-- A record of key n leaves the reducer: into its own ring, as flits to queue 63 of a causeway of the device, or on channel 63
to the strait peer. The tokens carry the key under the teacher's shift (assumption 27) and count from a free `SEQ`. -/
def Dev.recordOut (d : Dev) (i j : Nat) (c : CwRec) (n r : Nat) (b : List Byte) : Dev :=
  let tag := keyOf ((d.cw i).key0.getD 0) c.shT n * 2 ^ c.shT % 2 ^ 20
  let ws := (List.range (b.length / 32)).map fun k => bytesPay (b.drop (32 * k))
  match c.dest with
  | 0 => d.ringStore i c n r b
  | 1 =>
    let (v, d1) := d.fresh 10
    (List.range ws.length).foldl (fun d k =>
      d.inject (cwNode i) { hdr := mkHdr c.recIsle 0x61 6 63 (d.cw i).epoch.toNat tag 0 (dataLow 15 (v.toNat + k)), payload := ws.getD k 0 }) d1
  | _ =>
    match d.recordLink i j c with
    | none => d
    | some (l, m, d0) =>
      let (v, d1) := d0.fresh 10
      d1.queueAt i l ((List.range (ceilDiv ws.length 64)).map fun k =>
        { fjh := BitVec.ofNat 16 m.fjh, fepoch := m.fepoch, tag := BitVec.ofNat 20 tag, kind := 0, rt := 0, ch := 63, phase := 0,
          wofs := BitVec.ofNat 32 (dataLow 15 (v.toNat + 64 * k)), payloads := (ws.drop (64 * k)).take 64 })

/-! ### Empty keys (R350, R353, R360) -/

/-- The record of an empty key. Its `LSE` and `TAIL` are not stated. -/
def emptyRecord (c : CwRec) (v : BitVec 64) : List Byte :=
  le 4 0 ++ le 2 0 ++ le 2 2 ++ le 8 v.toNat ++ le 4 c.v ++ List.replicate 12 0

/-- Key n is empty on every queue of the reducer. -/
def Causeway.teacherEmpty (u : Causeway) (c : CwRec) (n : Nat) : Bool :=
  !(c.queues 1).isEmpty && (c.queues 1).all fun q => (u.emptyOn n 1).contains q

/-- The matcher finishes key n: the ring slot is free, and what it held of the key is gone (R355). -/
def Causeway.finishKey (u : Causeway) (c : CwRec) : Causeway :=
  let n := u.nM
  { u with
    nM := n + 1, written := mput 0 u.written (n % max 1 c.slots) 0, rowsDone := 0, kl := aaZero, ce := aaZero, dzSeq := [],
    empties := u.empties.filter fun e => decide (e.1 / 4 ≠ n), labels := u.labels.filter fun e => decide (e.1 / 16384 ≠ n),
    labelToks := mput 0 u.labelToks n 0,
    queues := mmap {} (fun _ (s : InQueue) => { s with tags := s.tags.filter fun x => decide (x.1 ≠ n) }) u.queues }

/-- `TAG` of the loss tokens of a key (R360). -/
def Causeway.lossTag (u : Causeway) (c : CwRec) : Nat :=
  (((keyOf (u.skey0.getD 0) c.shS u.nM * 2 ^ c.shS : Nat) + ofTwos 8 c.ltagd) % (2 ^ 20 : Nat)).toNat

/-- Gradient routes of the matcher, each with the lowest queue that uses it. -/
def CwRec.dzRoutes (c : CwRec) : List (Nat × Nat) :=
  (c.queues 2).foldl (fun l q => let r := (c.inputs.getD q (0, 0, 0, 0)).2.1
                                 if l.any (fun e => decide (e.1 = r)) then l else l ++ [(r, q)]) []

/-- Tag that a queue's tokens of a row carried. -/
def Causeway.tagOf (u : Causeway) (q n r : Nat) : Nat :=
  (((u.q q).tags.find? fun e => decide (e.1 = n) && decide (e.2.1 = r)).map (·.2.2.toNat)).getD 0

/-- One empty token to each gradient route and to the loss route in place of an empty key's tokens (R360); its `DIM` is free. -/
def Dev.sendEmpties (d : Dev) (i : Nat) (c : CwRec) : Dev :=
  let u := d.cw i
  let (v, d1) := d.fresh 2
  let low := v.toNat * 1024
  let d2 := c.dzRoutes.foldl (fun d e => d.cwSend i (c.routes.getD e.1 0) (u.tagOf e.2 u.nM 0) 4 low 0) d1
  d2.cwSend i (c.routes.getD c.lroute 0) (u.lossTag c) 4 low 0

/-- The record of an empty teacher key is next to leave (R353). -/
def Causeway.recordDue (u : Causeway) (c : CwRec) : Bool := c.reducer && decide (u.nextRow = 0) && u.teacherEmpty c u.nextKey

/-- The key to match is empty for both roles: its empty tokens are next to leave (R360). -/
def Causeway.emptiesDue (u : Causeway) (c : CwRec) : Bool :=
  c.matcher && decide (u.rowsDone = 0) && !(u.emptyOn u.nM 3).isEmpty && (c.queues 2 ++ [62]).all fun q => (u.emptyOn u.nM 2).contains q

/-- Empty keys that have become due are recorded, matched and finished, in order; one whose tokens cannot leave yet is due still
at the unit's next command. -/
def Dev.cwAdvance (d : Dev) (i j : Nat) : Nat → Dev
  | 0 => d
  | fuel + 1 =>
    let u := d.cw i
    let c := cwRecOf u.record
    if u.recordDue c ∧ d.recordReady i j c then
      let n := u.nextKey
      let (v, d1) := d.fresh 64
      let d2 := d1.recordOut i j c n 0 (emptyRecord c v)
      let u1 := d2.cw i
      let u2 := { u1 with nextKey := n + 1 }
      let u3 := if c.dest = 0 then u2.addEmpty n 3 0 else { u2 with empties := u2.empties.filter fun e => decide (e.1 / 4 ≠ n) }
      (d2.setCw i u3).cwAdvance i j fuel
    else if u.emptiesDue c ∧ d.canInject (cwNode i) 4 then
      let d1 := d.sendEmpties i c
      (d1.setCw i ((d1.cw i).finishKey c)).cwAdvance i j fuel
    else d

/-- Empty keys, as many as are held. -/
def Dev.cwGo (d : Dev) (i j : Nat) : Dev := d.cwAdvance i j (2 * (d.cw i).empties.length + 2)

/-! ### Waits of the unit (R364) -/

/-- A teacher's token, or a record, stands at the unit and waits for ring space (R355). -/
def Dev.teacherWaits (d : Dev) (i : Nat) : Bool :=
  let u := d.cw i
  let c := cwRecOf u.record
  c.matcher && dataInputs.any fun e => (d.arrived (cwNode i) e.1 e.2).any fun tr =>
    decide (c.role tr.flit.queue = 1 ∨ c.role tr.flit.queue = 4) &&
      (u.keyStep c tr.flit.queue (tr.flit.tag / 2 ^ c.shT)).any fun s => decide (c.slots ≤ s.1 - u.nM)

/-- A whole student row waits for its record. -/
def Causeway.studentWaits (u : Causeway) (c : CwRec) : Bool :=
  c.matcher && (List.range 4).any fun k =>
    let g := mget {} u.slots k
    decide (g.role = 2 ∧ c.v / 16 ≤ g.got) &&
      !(decide (g.key - u.nM < c.slots) && decide (g.row < mget 0 u.written (g.key % max 1 c.slots)))

/-- Cell clocks of an isle since a time, at its present clock (assumption 144). -/
def Dev.cellClocks (d : Dev) (t : TimeBase) (i : Nat) (from_ : Option Nat) : Nat :=
  from_.elim 0 fun e => (t.elapsed - e) * (d.isle i).clock / 1000

/-- After a command of the unit: the cell clocks that teacher input and student rows have waited are counted, and waits that
stand go on. -/
def Dev.cwClock (d : Dev) (t : TimeBase) (i : Nat) : Dev :=
  let u := d.cw i
  let d1 := (d.bump 0x2A00 (0x24 + i) (d.cellClocks t i u.stallFrom)).bump 0x2A00 (0x28 + i) (d.cellClocks t i u.waitFrom)
  d1.setCw i { u with
    stallFrom := if d.teacherWaits i then some t.elapsed else none,
    waitFrom := if u.studentWaits (cwRecOf u.record) then some t.elapsed else none }

/-! ### CAUSEWAY_LOGIT (R347, R349, R350, R355, R356) -/

/-- The staging slot of a row, or one that it can take: four in all, two for each role of a unit that holds both. -/
def Causeway.slotFor (u : Causeway) (c : CwRec) (role n r : Nat) : Option Nat :=
  let held (k : Nat) : Bool := let s := mget {} u.slots k
                               decide (s.role = role) && decide (s.key = n) && decide (s.row = r)
  let room : Bool := decide (((List.range 4).filter fun k => decide ((mget {} u.slots k).role = role)).length <
    (if c.reducer ∧ c.matcher then 2 else 4))
  ((List.range 4).find? held).orElse fun _ =>
    if room then (List.range 4).find? fun k => decide ((mget {} u.slots k).role = 0) else none

/-- A logit token is placed: 16 lanes of its row. -/
def Causeway.place (u : Causeway) (c : CwRec) (role q n k : Nat) (f : Flit) : Causeway :=
  let s := u.q q
  let g := mget {} u.slots k
  let last : Bool := decide (c.toks q ≤ s.tok + 1)
  let s1 : InQueue := { s with
    tok := if last then 0 else s.tok + 1, row := if last then s.row + 1 else s.row,
    tags := if s.tok = 0 then s.tags ++ [(n, s.row, BitVec.ofNat 20 f.tag)] else s.tags }
  let lanes := (List.range 16).map fun l => f.payload.extractLsb' (16 * l) 16
  let g1 : Staging := { role := role, key := n, row := s.row, logits := mputs 0 g.logits (c.vbase q + 16 * s.tok) lanes, got := g.got + 1 }
  { u with slots := mput {} u.slots k g1 }.setQ q s1

/-- CAUSEWAY_LOGIT. A token whose row cannot take a slot, or whose key has no place in the ring, waits. -/
def Dev.causewayLogit (d : Dev) (t : TimeBase) (i : Nat) (p : Port) (cl : Cls) : Dev :=
  d.cwEject t i p cl (fun q => decide (q < 62)) fun d c f =>
    let u := d.cw i
    let j := u.job.getD 0
    let take := Dev.cwTake i p cl
    let q := f.queue
    let role := c.role q
    let key := f.tag / 2 ^ c.shift role
    match u.keyStep c q key with
    | none => (take d).cwErr t i 0x2013 q
    | some (n, start) =>
      let u1 := if start then u.beginKey c q key n else u
      let u2 := if f.kind = 4 ∧ start then
          (let s := u1.q q
           (u1.setQ q { s with empty := true, tags := s.tags ++ [(n, 0, BitVec.ofNat 20 f.tag)] }).addEmpty n role q)
        else u1
      if u2.rolesDiffer c then (take d).cwErr t i 0x2013 q
      else if (f.kind = 4 ∧ ¬ start) ∨ u2.emptyClash c n then (take d).cwErr t i 0x2015 q
      else if role = 1 ∧ c.matcher ∧ c.slots ≤ n - u.nM then d
      else if f.kind = 4 then ((take d).setCw i u2).cwGo i j
      else match u2.slotFor c role n (u2.q q).row with
        | none => d
        | some k => (take d).setCw i (u2.place c role q n k f)

/-- CAUSEWAY_LOGIT. -/
def execCausewayLogit (i : IsleId) (p : Port) (c : Cls) (s : State) : Host.Outcome State Fault Refusal :=
  act s fun t d => (d.causewayLogit t i.val p c).cwClock t i.val

/-! ### CAUSEWAY_LABEL (R351) -/

/-- CAUSEWAY_LABEL: eight labels of rows below R; one that is no vocabulary id and not 0xFFFF_FFFF stops the job. -/
def Dev.causewayLabel (d : Dev) (t : TimeBase) (i : Nat) (p : Port) (cl : Cls) : Dev :=
  d.cwEject t i p cl (fun q => decide (q = 62)) fun d c f =>
    let u := d.cw i
    let take := Dev.cwTake i p cl
    let key := f.tag / 2 ^ c.shS
    match u.keyStep c 62 key with
    | none => (take d).cwErr t i 0x2013 62
    | some (n, start) =>
      let u1 := if start then u.beginKey c 62 key n else u
      let u2 := if f.kind = 4 ∧ start then (u1.setQ 62 { u1.q 62 with empty := true }).addEmpty n 2 62 else u1
      if u2.rolesDiffer c then (take d).cwErr t i 0x2013 62
      else if (f.kind = 4 ∧ ¬ start) ∨ u2.emptyClash c n then (take d).cwErr t i 0x2015 62
      else if f.kind = 4 then ((take d).setCw i u2).cwGo i (u.job.getD 0)
      else
        let s := u2.q 62
        let ls := ((List.range 8).map fun k => (8 * s.tok + k, (f.payload.extractLsb' (32 * k) 32).toNat)).filter fun e => decide (e.1 < c.r)
        if ls.any fun e => decide (c.v ≤ e.2 ∧ e.2 ≠ 0xFFFFFFFF) then (take d).cwErr t i 0x2014 62
        else
          let u3 := u2.setQ 62 { s with tok := s.tok + 1 }
          (take d).setCw i { u3 with
            labels := ls.foldl (fun m e => mput 0 m (n * 16384 + e.1) (e.2 + 1)) u3.labels,
            labelToks := mput 0 u3.labelToks n (s.tok + 1) }

/-- CAUSEWAY_LABEL. -/
def execCausewayLabel (i : IsleId) (p : Port) (c : Cls) (s : State) : Host.Outcome State Fault Refusal :=
  act s fun t d => (d.causewayLabel t i.val p c).cwClock t i.val

/-! ### Rows (R352, R358) -/

/-- n values from key lo of a sparse store whose keys are no lower. -/
def mdense {α : Type} (d : α) : Map α → Nat → Nat → List α
  | _, _, 0 => []
  | [], lo, n + 1 => d :: mdense d [] (lo + 1) n
  | (k, v) :: r, lo, n + 1 => if lo = k then v :: mdense d r (lo + 1) n else d :: mdense d ((k, v) :: r) (lo + 1) n

/-- The row of a staging slot: V BF16 logits. -/
def Staging.row16 (g : Staging) (v : Nat) : List W16 := mdense 0 g.logits 0 v

/-- BF16 widened exactly. -/
def widen16 (x : W16) : W32 := BitVec.ofNat 32 (x.toNat * 65536)

def laneMaxOf : List W32 → W32
  | [] => 0
  | x :: r => r.foldl laneMax x

/-- AA sum of FP32 values into a word. -/
def aaAddAll (w : W256) (l : List W32) : W256 := (aaDeposit w (l.map ofFp32)).1
def aaSubAll (w : W256) (l : List W32) : W256 := (aaDeposit w (l.map fun x => fpNeg (ofFp32 x))).1
/-- `aa_convert` to FP32. -/
def aaFp32 (w : W256) : W32 := BitVec.ofNat 32 (aaConvert w 0 false).1

/-- Place of a BF16 logit in the order of `top`: a NaN below every number, the two zeros equal. -/
def rankOf (x : W16) : Nat :=
  let m := x.toNat % 32768
  if 0x7F80 < m then 0 else if x.msb then 0x8000 - m else 0x8000 + m

/-- Ids of the k largest logits, ties to the lowest id. -/
def topIds (z : List W16) (k : Nat) : List Nat :=
  ((z.zipIdx.mergeSort fun a b => decide (rankOf b.1 ≤ rankOf a.1)).map (·.2)).take k

/-- The soft-target record of a teacher row (R352, R353), and its `NAN` flag. -/
def reduceRow (c : CwRec) (row : Nat) (z : List W16) : List Byte × Bool :=
  let s := z.map fun x => laneMul (widen16 x) c.invT
  let m := laneMaxOf s
  let e := s.map fun x => laneTr 0 (laneSub x m)
  let ell := aaAddAll aaZero e
  let top := topIds z c.k
  let lf := aaFp32 ell
  let l := laneAdd m (laneTr 1 lf)
  let tailw := aaSubAll ell (top.map fun k => e.getD k 0)
  let tail := laneMul (aaFp32 tailw) (laneTr 2 lf)
  (le 4 row ++ le 2 c.k ++ le 2 (b2n (isNan l)) ++ le 4 l.toNat ++ le 4 tail.toNat ++ le 4 c.v ++ List.replicate 12 0 ++
    top.flatMap fun k => le 4 k ++ le 4 (laneSub (s.getD k 0) l).toNat, isNan l)

/-- REDUCE_ROW: the next row of the next key, once it is complete and its record can leave; else empty keys that are due. -/
def Dev.reduceRowAt (d : Dev) (t : TimeBase) (i k : Nat) : Dev :=
  let u := d.cw i
  let c := cwRecOf u.record
  let g := mget {} u.slots k
  match u.job with
  | none => d
  | some j =>
    if d.jobStopped j then d
    else if g.role ≠ 1 ∨ g.got < c.v / 16 ∨ g.key ≠ u.nextKey ∨ g.row ≠ u.nextRow ∨ ¬ d.recordReady i j c then d.cwGo i j
    else
      let (b, nan) := reduceRow c g.row (g.row16 c.v)
      let d1 := (d.recordOut i j c g.key g.row b).bump 0x2A00 (0x10 + i) 1
      let u1 := d1.cw i
      let lastRow : Bool := decide (c.r ≤ g.row + 1)
      let d2 := d1.setCw i { u1 with
        slots := mput {} u1.slots k {}, nextRow := if lastRow then 0 else g.row + 1, nextKey := if lastRow then g.key + 1 else g.key,
        nanLogged := u1.nanLogged || nan }
      let d3 := if nan then d2.bump 0x2A00 (0x18 + i) 1 else d2
      let d4 := if nan ∧ ¬ u.nanLogged then d3.logErr t 0x0160 (job := j) (die := i) (unit := 3) (wh := 6) else d3
      d4.cwGo i j

/-- REDUCE_ROW. -/
def execReduceRow (i : IsleId) (slot : Fin 4) (s : State) : Host.Outcome State Fault Refusal :=
  act s fun t d => (d.reduceRowAt t i.val slot.val).cwClock t i.val

/-! ### SOFT_TARGET_RECORD (R353, R355, R356, R358) -/

/-- A record of a remote reducer is whole: its fields agree with the matcher's record, and it is the next row. -/
def CwRec.recordOk (c : CwRec) (b : List Byte) (row : Nat) : Bool :=
  let empty : Bool := bit (fieldAt b 6 2) 1
  decide (fieldAt b 0 4 = row) && decide (fieldAt b 16 4 = c.v) && decide (fieldAt b 4 2 = if empty then 0 else c.k) &&
    (List.range (fieldAt b 4 2)).all fun e => decide (bits (fieldAt b (32 + 8 * e) 4) 17 0 < c.v)

/-- SOFT_TARGET_RECORD: a token of a record; the last one stores it. An empty token stands for the record of an empty key
(assumption 27). -/
def Dev.softTarget (d : Dev) (t : TimeBase) (i : Nat) (p : Port) (cl : Cls) : Dev :=
  d.cwEject t i p cl (fun q => decide (q = 63)) fun d c f =>
    let u := d.cw i
    let j := u.job.getD 0
    let take := Dev.cwTake i p cl
    let key := f.tag / 2 ^ c.shT
    match u.keyStep c 63 key with
    | none => (take d).cwErr t i 0x2013 63
    | some (n, start) =>
      let u1 := if start then u.beginKey c 63 key n else u
      let b := u1.partialRec ++ payBytes f.payload
      let empty : Bool := decide (f.kind = 4) || bit (fieldAt b 6 2) 1
      let whole : Bool := empty || decide (c.recBytes ≤ b.length)
      let row := (u1.q 63).row
      if u1.rolesDiffer c then (take d).cwErr t i 0x2013 63
      else if c.slots ≤ n - u.nM then d
      else if ¬ whole then (take d).setCw i { u1 with partialRec := b }
      else if f.kind ≠ 4 ∧ ¬ c.recordOk b row then (take d).cwErr t i 0x2014 63
      else
        let u2 := { u1.setQ 63 { u1.q 63 with row := row + 1, empty := empty } with partialRec := [] }
        let u3 := if empty then u2.addEmpty n 3 63 else u2
        let clash : Bool := u3.emptyClash c n || (empty && !start)
        if clash then (take d).cwErr t i 0x2015 63
        else
          let d1 := (take d).setCw i u3
          (if f.kind = 4 then d1 else d1.ringStore i c n row b).cwGo i j

/-- SOFT_TARGET_RECORD. -/
def execSoftTargetRecord (i : IsleId) (p : Port) (c : Cls) (s : State) : Host.Outcome State Fault Refusal :=
  act s fun t d => (d.softTarget t i.val p c).cwClock t i.val

/-! ### MATCH_ROW (R358 to R360) -/

/-- What matching a row gives: dz by vocabulary id, the loss words, and what the AA operations report. -/
def matchRow (c : CwRec) (x : List W16) (y : Nat) (rec_ : List Byte) (kl ce : W256) : List W32 × W256 × W256 × AARep :=
  let xs := x.map widen16
  let sT := xs.map fun v => laneMul v c.invT
  let mT := laneMaxOf sT
  let m1 := laneMaxOf xs
  let eT := sT.map fun v => laneTr 0 (laneSub v mT)
  let ellT := aaAddAll aaZero eT
  let ell1 := aaAddAll aaZero (xs.map fun v => laneTr 0 (laneSub v m1))
  let ltf := aaFp32 ellT
  let lT := laneAdd mT (laneTr 1 ltf)
  let l1 := laneAdd m1 (laneTr 1 (aaFp32 ell1))
  let ents : List (Nat × W32) := (List.range c.k).map fun e =>
    (bits (fieldAt rec_ (32 + 8 * e) 4) 17 0, BitVec.ofNat 32 (fieldAt rec_ (36 + 8 * e) 4))
  let tail : W32 := BitVec.ofNat 32 (fieldAt rec_ 12 4)
  let restw := aaSubAll ellT (ents.map fun e => eT.getD e.1 0)
  let qrest := laneMul (aaFp32 restw) (laneTr 2 ltf)
  let rho : W32 := if qrest = 0 then 0 else laneMul tail (laneTr 2 qrest)
  let one : W32 := 0x3F800000
  let dz := xs.zipIdx.map fun (v, i) =>
    let qT := laneTr 0 (laneSub (sT.getD i 0) lT)
    let q1 := laneTr 0 (laneSub v l1)
    let pT := match ents.find? fun e => decide (e.1 = i) with
      | some e => laneTr 0 e.2
      | none => laneMul qT rho
    let d2 := laneSub q1 (if i = y then one else 0)
    laneMul (laneFma c.aT (laneSub qT pT) (laneMul c.b d2)) c.gscale
  let terms := ents.map fun e => laneMul (laneTr 0 e.2) (laneSub e.2 (laneSub (sT.getD e.1 0) lT))
  let terms2 := if tail = 0 then terms else terms ++ [laneMul tail (laneTr 1 (laneMul tail (laneTr 2 qrest)))]
  let (kl1, ra) := aaDeposit kl (terms2.map ofFp32)
  let (ce1, rb) := aaDeposit ce [ofFp32 (laneSub l1 (xs.getD y 0))]
  (dz, kl1, ce1, { malformed := ra.malformed + rb.malformed, overflow := ra.overflow || rb.overflow })

/-- Payloads of a slice of dz: 16 BF16 values under RNE, or 8 FP32 values (R359). -/
def dzPayloads (c : CwRec) (l : List W32) : List W256 :=
  if c.dzFp32 then (List.range (l.length / 8)).map fun k => payOf (((List.range 4).map fun w =>
      (l.getD (8 * k + 2 * w) 0).toNat + (l.getD (8 * k + 2 * w + 1) 0).toNat * 2 ^ 32))
  else (List.range (l.length / 16)).map fun k =>
    BitVec.ofNat 256 (packElems 16 (((l.drop (16 * k)).take 16).map fun v => (fBF16.narrow {} false (ofFp32 v)).1))

/-- The student's queues in the order of the vocabulary ids of their slices. -/
def CwRec.dzQueues (c : CwRec) : List Nat := (c.queues 2).foldl (fun l q => insertBy (fun a b => decide (c.vbase a < c.vbase b)) q l) []

/-- The dz tokens of a row, in ascending id (R359). -/
def Dev.sendDz (d : Dev) (i : Nat) (c : CwRec) (n row : Nat) (dz : List W32) : Dev :=
  c.dzQueues.foldl (fun d q =>
    let r := (c.inputs.getD q (0, 0, 0, 0)).2.1
    let ws := dzPayloads c ((dz.drop (c.vbase q)).take (16 * c.toks q))
    let u := d.cw i
    let seq := mget 0 u.dzSeq r
    let d1 := d.setCw i { u with dzSeq := mput 0 u.dzSeq r (seq + ws.length) }
    (List.range ws.length).foldl (fun d k =>
      d.cwSend i (c.routes.getD r 0) (u.tagOf q n row) 0 (dataLow 15 (seq + k)) (ws.getD k 0)) d1) d

/-- The matcher's next row is complete in slot k, its label and its record are present, and its tokens can leave. -/
def Dev.matchReady (d : Dev) (i k : Nat) : Bool :=
  let u := d.cw i
  let c := cwRecOf u.record
  let g := mget {} u.slots k
  c.matcher && decide (g.role = 2) && decide (c.v / 16 ≤ g.got) && decide (g.key = u.nM) && decide (g.row = u.rowsDone) &&
    decide (g.row < mget 0 u.written (g.key % max 1 c.slots)) && decide (mget 0 u.labels (g.key * 16384 + g.row) ≠ 0) &&
    d.canInject (cwNode i) 0 && !(u.job.any d.jobStopped)

/-- What matching the row of slot k gives; an ignored row has zeros and leaves the loss words. -/
def Dev.matched (d : Dev) (i k : Nat) : List W32 × W256 × W256 × AARep :=
  let u := d.cw i
  let c := cwRecOf u.record
  let g := mget {} u.slots k
  let y := mget 0 u.labels (g.key * 16384 + g.row) - 1
  if y = 0xFFFFFFFF then (List.replicate c.v 0, u.kl, u.ce, {})
  else matchRow c (g.row16 c.v) y (d.ringLoad i c g.key g.row) u.kl u.ce

/-- A ready row: dz of the row and its loss terms; after the last row of a key, the loss words, and the slot is freed. -/
def Dev.matchReadyRow (d : Dev) (t : TimeBase) (i k : Nat) : Dev :=
  let u := d.cw i
  let c := cwRecOf u.record
  let g := mget {} u.slots k
  let j := u.job.getD 0
  let (dz, kl, ce, rep) := d.matched i k
  let d1 := (d.sendDz i c g.key g.row dz).bump 0x2A00 (0x14 + i) 1
  let d2 := (if mget 0 u.labels (g.key * 16384 + g.row) = 0x100000000 then d1.bump 0x2A00 (0x1C + i) 1 else d1).aaReport t (some j) i 3 6
    (u.tagOf (c.dzQueues.headD 0) g.key g.row) rep
  let u1 := d2.cw i
  let u2 := { u1 with slots := mput {} u1.slots k {}, rowsDone := g.row + 1, kl := kl, ce := ce }
  let d3 := d2.setCw i u2
  if g.row + 1 < c.r then d3
  else
    let word (d : Dev) (s : Nat) (w : W256) : Dev := d.cwSend i (c.routes.getD c.lroute 0) (u2.lossTag c) 3 (16 + s) w
    let d4 := word (word d3 0 kl) 1 ce
    (d4.setCw i ((d4.cw i).finishKey c)).cwGo i j

/-- MATCH_ROW: a row that is ready, once the words of its record have been read (an ignored row reads none); else empty keys that
are due. An uncorrectable word of the ring stops the job (R186). -/
def Dev.matchRowAt (d : Dev) (t : TimeBase) (i k : Nat) (e : Ecc) : Dev :=
  let u := d.cw i
  let c := cwRecOf u.record
  let g := mget {} u.slots k
  if ¬ d.matchReady i k then (if u.job.any d.jobStopped then d else d.cwGo i (u.job.getD 0))
  else if mget 0 u.labels (g.key * 16384 + g.row) = 0x100000000 then d.matchReadyRow t i k
  else match d.lagEcc t (d.ringEntryOf i c (g.key % max 1 c.slots) g.row).1 e with
  | (true, d1) => d1.matchReadyRow t i k
  | (false, d1) => d1

/-- MATCH_ROW. -/
def execMatchRow (i : IsleId) (slot : Checked (Fin 4)) (s : State) : Host.Outcome State Fault Refusal :=
  act s fun t d => (d.matchRowAt t i.val slot.val.val slot.ecc).cwClock t i.val

/-! ### Epochs (R357) -/

/-- Ring records that no student row matched. -/
def Causeway.unmatched (u : Causeway) : Nat := sumNat (u.written.map (·.2)) - u.rowsDone

/-- Begin epoch: nothing staged, the ring free, the counts zero, the unit under a record, a job and an epoch. -/
def Causeway.begin_ (record : List Byte) (job : Option Nat) (epoch : BitVec 4) : Causeway :=
  { record := record, job := job, epoch := epoch, kl := aaZero, ce := aaZero }

/-- The unit reports drained: no row is staged, and none of its tokens is still to leave it (R357). -/
def Dev.cwQuiet (d : Dev) (i : Nat) : Bool :=
  let u := d.cw i
  let c := cwRecOf u.record
  u.slots.isEmpty && !u.recordDue c && !u.emptiesDue c && (d.buf (bufKey (cwNode i) .loc .first)).isEmpty &&
    (decide (c.dest ≠ 2) || u.job.all fun j =>
      !d.poolWaits ((d.job j).mem.fjh * 64 + 63))

end Sys2Proof.Machine
end

