-- ==== Sys2Proof/Machine/Straits.lean ====
section
/-! DEFINITION. Strait links, the receiving side, their retry, keys and loss, and channels (sections 13.2 to 13.7). -/
namespace Sys2Proof.Machine

/-! ### Peers that a membership needs (R417, R429) -/

/-- The job of a fabric handle. -/
def Dev.jobOfFjh (d : Dev) (h : Nat) : Option Nat :=
  (d.jobs.find? fun e => decide (e.2.state ≠ 0) && decide (e.2.mem.d ≠ 0) && decide (e.2.mem.fjh = h)).map (·.1)

/-- First unit of rank r's range (R423). -/
def rangeLo (l d r : Nat) : Nat := r * l / max 1 d

/-- Identities of the peers that a job needs under a membership (R417): ring neighbours, the peers of its channels, every rank
for a direct bucket; a departing device sends nothing after the permute (R429). -/
def neededIds (p : Plan) (m : Membership) : List (List Byte) :=
  match collRec p.image, m.own p.meas with
  | some r, some own =>
    if own.role = 2 then []
    else
      let a := own.at_
      let ring := if 1 < m.d then [(a + 1) % m.d, (a + m.d - 1) % m.d] else []
      let chans := r.outs.filterMap fun o => (r.peers[o.peer]?).map (peerRank m a)
      let all := if r.buckets.any (fun b => decide (b.alg = 1)) then (List.range m.d).filter fun k => decide (m.idOf k ≠ some own.id) else []
      (ring ++ chans ++ all).map fun k => (m.idOf k).getD []
  | _, _ => []

/-- Identities that the permutes of a membership need: the new owners of what this device holds, the old owners of what it is to
hold (R417, R429). -/
def permuteIds (p : Plan) (m : Membership) : List (List Byte) :=
  match m.own p.meas with
  | none => []
  | some own =>
    let bs := (collRec p.image).elim [] fun c => c.buckets.filter fun b => decide (b.op = 4)
    let meet (a b c d : Nat) : Bool := decide (max a c < min b d)
    if m.dold = 0 then []
    else bs.flatMap fun b =>
      let new (r : Nat) := (rangeLo b.len m.d r, rangeLo b.len m.d (r + 1))
      let old (r : Nat) := (rangeLo b.len m.dold r, rangeLo b.len m.dold (r + 1))
      let out := if own.oldRank = 0xFFFF then [] else m.members.filter fun e => decide (e.role = 0) &&
        meet (old own.oldRank).1 (old own.oldRank).2 (new e.rank).1 (new e.rank).2
      let in_ := if own.role ≠ 0 then [] else m.members.filter fun e => decide (e.oldRank ≠ 0xFFFF) &&
        meet (old e.oldRank).1 (old e.oldRank).2 (new own.rank).1 (new own.rank).2
      ((out ++ in_).map (·.id)).filter fun i => decide (i ≠ own.id)

/-- A job has a permute that has not ended (R429). -/
def Dev.permuting (d : Dev) (j : Nat) : Bool :=
  !(d.job j).toPermute.isEmpty || d.colls.any fun e => match e.2, (d.job j).plan.bind fun p => collRec p.image with
    | some x, some r => decide (x.job = j) && r.buckets.any fun b => decide (b.bucket = x.bucket) && decide (b.op = 4)
    | _, _ => false

/-! ### Losing a link (R412, R430) -/

/-- Records that stand at a die go first again, each on the link of its flow to a peer; with the rail they are lost. -/
def Dev.requeue (d : Dev) (peer : List Byte) (rs : List (Nat × StraitRecord)) : Dev :=
  let goes := rs.map fun e => (d.linkOf e.1 peer e.2, e)
  (List.range 16).foldl (fun d x =>
    let mine := (goes.filter fun e => decide (e.1 = some x)).map (·.2)
    if mine.isEmpty then d
    else
      let k := d.lnk x
      (d.setLnk x { k with
        sendQ := (mine.filter fun e => decide (e.1 = x / 4)).map (·.2) ++ k.sendQ,
        fromRing := (mine.filter fun e => decide (e.1 ≠ x / 4)) ++ k.fromRing }).flushLink x) d

/-- What is left of a link that goes down: what it holds for its own jobs stays (R418), and its counters. -/
def Link.lost (k : Link) : Link :=
  { k with state := .down, unacked := [], txStream := [], rxPart := [], sendQ := [], fromRing := [], retraining := none, naks := 0,
           retrains := 0, nakIn := false, nakOut := false, ackOwed := false }

/-- A link goes down: recorded; its flows move to another link of the rail, and send their unacknowledged and waiting records
first; with the last link of the rail, every job that needs it stops; a permute that uses it cannot complete. -/
def Dev.linkDown (d : Dev) (t : TimeBase) (l : Nat) : Dev :=
  let k := d.lnk l
  let moved := k.unacked.flatMap (·.ends) ++ k.txStream.filterMap (·.2) ++ k.sendQ
  let d1 := ((d.setLnk l k.lost).logErr t 0x4003 (die := linkDie l) (unit := 6) (wh := l)).setRails
  let d2 : Dev := { d1 with flows := d1.flows.filterMap fun f =>
    if f.link = l then ((d1.railOf f.peer).bind fun r => d1.pickLink f.die r f.sel).map fun x => { f with link := x } else some f }
  let d3 := d2.requeue k.peer (moved.map (l / 4, ·) ++ k.fromRing)
  let users (ids : Plan → Membership → List (List Byte)) : List Nat := d3.liveJobs.filter fun j =>
    match (d3.job j).plan with
    | some p => decide ((d3.job j).mem.d ≠ 0) && (ids p (d3.job j).mem).contains k.peer
    | none => false
  let d4 := ((users permuteIds).filter d3.permuting).foldl (fun d j => d.jobError t j 0x4006 (linkDie l) 6 l) d3
  if k.rail < 8 ∧ (d4.railOf k.peer).isNone then
    match users neededIds with
    | [] => d4.logErr t 0x4008 (die := linkDie l) (unit := 6) (wh := l)
    | js => js.foldl (fun d j => d.jobError t j 0x4008 (linkDie l) 6 l) d4
  else d4

/-- STRAIT_LANE_FAIL (R411): the first failing lane in operation goes to the spare; a second takes the link down. -/
def Dev.straitLaneFail (d : Dev) (t : TimeBase) (l lane : Nat) : Dev :=
  let k := d.lnk l
  if k.state ≠ .up ∨ k.spared = lane then d
  else if k.spared = 15 then
    ((d.setLnk l { k with spared := lane }).setRails).logErr t 0x4001 (die := linkDie l) (unit := 6) (wh := l) (detail := lane)
  else d.linkDown t l

/-- STRAIT_LANE_FAIL. -/
def execStraitLaneFail (l : LinkId) (lane : Fin 9) (s : State) : Host.Outcome State Fault Refusal :=
  act s fun t d => d.straitLaneFail t l.val lane.val

/-! ### Receiving (R403, R406 to R408, R410, R411, R418, R420) -/

/-- Payload slots of a pool are freed. -/
def Dev.freeSlots (d : Dev) (l : Nat) (r : StraitRecord) (n : Nat) : Dev :=
  let k := d.lnk l
  d.setLnk l { k with freed := mput 0 k.freed (poolKey r) (mget 0 k.freed (poolKey r) + n) }

/-- What the membership epoch says of a record (R418). -/
inductive Fate where
  | nojob
  | stale (j : Nat)
  | newer
  | equal (j : Nat)
  deriving DecidableEq, Repr

def Dev.fate (d : Dev) (r : StraitRecord) : Fate :=
  match d.jobOfFjh r.fjh.toNat with
  | none => .nojob
  | some j =>
    let x := (r.fepoch - (d.job j).mem.fepoch).toNat
    if x = 0 then .equal j else if x < 2 ^ 15 then .newer else .stale j

/-- Header of the tokens of an inbound channel, up to bits [13:0] (R420); channel 63 goes to the causeway of the matcher. -/
def Dev.inboundHdr (d : Dev) (j : Nat) (r : StraitRecord) (low : Nat) : Option W64 :=
  let epoch := d.ctrN (0x4000 + j) 0x13
  (d.job j).plan.bind fun p =>
    if r.ch.toNat % 64 = 63 then
      (((cwBytes p.image).map cwRecOf).find? (·.matcher)).map fun c =>
        mkHdr (rotIsle p.rho c.isle) 0x61 6 63 epoch r.tag.toNat r.kind.toNat low
    else ((collRec p.image).bind fun c => c.ins.find? fun i => decide (i.ch = r.ch.toNat % 64)).map fun i =>
      routeHdr (p.route i.route) epoch r.tag.toNat r.kind.toNat low

/-- Soft targets wait in the strait die for a slot of the matcher's ring, so that they never wait on the I/O ring (R355, R362):
a flit of the key that follows the last one let through goes once the ring has a slot for it. -/
def Dev.ringTakes (d : Dev) (j : Nat) (r : StraitRecord) : Bool × Dev :=
  match (d.job j).plan.bind fun p => (((cwBytes p.image).map cwRecOf).find? (·.matcher)).map fun c => (rotIsle p.rho c.isle, c) with
  | none => (true, d)
  | some (i, c) =>
    let u := d.cw i
    let key := r.tag.toNat / 2 ^ c.shT
    match u.strait with
    | none => (true, d.setCw i { u with strait := some (0, key) })
    | some (n, k) =>
      if key ≠ (k + 1) % 2 ^ (20 - c.shT) then (true, d)
      else if c.slots ≤ n + 1 - u.nM then (false, d)
      else (true, d.setCw i { u with strait := some (n + 1, key) })

/-- The tokens of a channel run enter the I/O ring at the strait die, as far as it has room; those left. -/
def Dev.deliverRun (d : Dev) (l j : Nat) (r : StraitRecord) : Nat → List W256 → Dev × List W256
  | _, [] => (d, [])
  | i, w :: ws =>
    let node := straitNode (l / 4)
    let low := r.wofs.toNat % 2 ^ 14 / 1024 * 1024 + (r.wofs.toNat + i) % 1024
    match d.inboundHdr j r (if i = 0 then r.wofs.toNat % 2 ^ 14 else low) with
    | none => (d, [])
    | some h =>
      if d.canInject node r.kind.toNat = false then (d, w :: ws)
      else match if r.ch.toNat % 64 = 63 then d.ringTakes j r else (true, d) with
        | (false, d1) => (d1, w :: ws)
        | (true, d1) => (d1.inject node { hdr := h, payload := w }).deliverRun l j r (i + 1) ws

/-- The record of what is left of a run. -/
def restOf (r : StraitRecord) (left : List W256) : StraitRecord :=
  let n := r.payloads.length - left.length
  { r with payloads := left, wofs := BitVec.ofNat 32 (r.wofs.toNat / 1024 * 1024 + (r.wofs.toNat + n) % 1024) }

/-- STRAIT_EPOCH_STALE (R418): discarded, counted, returned as credit. -/
def Dev.staleRecord (d : Dev) (t : TimeBase) (l j : Nat) (r : StraitRecord) : Dev :=
  let d1 := (d.freeSlots l r r.payloads.length).bump (0x4000 + j) 0x56 1
  if (d1.job j).staleLogged ∨ d1.jobForced j then d1
  else (d1.setJob j { d1.job j with staleLogged := true }).logErr t 0x4005 (job := j) (die := linkDie l) (unit := 6) (wh := l)

/-- One waiting record of a link is settled: the device, what stays, and whether the pool is held up. -/
def Dev.settleOne (d : Dev) (t : TimeBase) (l : Nat) (r : StraitRecord) (held : Bool) : Dev × List StraitRecord :=
  match d.fate r with
  | .nojob => ((d.freeSlots l r r.payloads.length).bump 0x2B00 9 1, [])
  | .stale j => (d.staleRecord t l j r, [])
  | .newer => (d, [r])
  | .equal j =>
    if d.jobStopped j then ((d.freeSlots l r r.payloads.length).countDiscard j r.payloads.length, [])
    else if r.rt = 0 then
      if held then (d, [r])
      else
        let (d1, left) := d.deliverRun l j r 0 r.payloads
        (d1.freeSlots l r (r.payloads.length - left.length), if left.isEmpty then [] else [restOf r left])
    else (d, [r])

/-- The waiting records of a link are settled in order; a channel's records stay in order. -/
def Dev.settle (d : Dev) (t : TimeBase) (l : Nat) : Dev :=
  let (d1, keep) := (d.lnk l).held.foldl (fun (a : Dev × List StraitRecord) r =>
    let (x, k) := a.1.settleOne t l r (a.2.any fun y => decide (poolKey y = poolKey r))
    (x, a.2 ++ k)) (d, [])
  d1.setLnk l { d1.lnk l with held := keep }

/-- What a frame says of the other direction: frames acknowledged, a NAK, credits (R405, R408). -/
def Link.told (k : Link) (f : StraitFrame) : Link :=
  let keep := k.unacked.dropWhile fun e => decide ((f.ack.toNat + 4096 - e.fseq) % 4096 < 2048)
  let moved := decide (keep.length < k.unacked.length)
  let pool (c : W32) : Nat := if bits c.toNat 15 0 = 0xFFFF then 0xFFFF * 64 else bits c.toNat 15 0 * 64 + bits c.toNat 21 16
  { k with
    unacked := keep, naks := if moved then 0 else k.naks, retrains := if moved then 0 else k.retrains, nakIn := k.nakIn || f.nak,
    credits := f.credits.foldl (fun m c => mput 0 m (pool c) (mget 0 m (pool c) + bits c.toNat 31 22)) k.credits }

/-- The next key set, from a new key update of the session (R410, R549). -/
def Link.nextKeys (k : Link) (secret : BitVec 384) (rekeyAt : Nat) : Link :=
  { k with keysel := !k.keysel, keySet := k.keySet + 1, txc := 0, rekeyAt := rekeyAt, secret := secret }

/-- A frame under the other key set: both directions change (R549). -/
def Dev.followKeys (d : Dev) (l : Nat) (sel : Bool) : Dev :=
  let k := d.lnk l
  if sel = k.rkeysel then d
  else if sel = k.keysel then d.setLnk l { k with rkeysel := sel }
  else let (v, d1) := d.fresh 384
       d1.setLnk l { k.nextKeys v (d.objN 0x2B00 5) with rkeysel := sel }

/-- A frame at the receiver (R200, R407): one that fails is answered with a NAK, and so is the first out of order; one in order
is taken. Records of channels and collectives go on; link management is the trust units' (assumption 25). -/
def Dev.frameIn (d : Dev) (t : TimeBase) (l : Nat) (f : StraitFrame) (ok : Bool) : Dev :=
  let k := d.lnk l
  if ok = false then (d.setLnk l { k with nakOut := true, discarding := true }).flushLink l
  else if f.fseq.toNat ≠ k.expect then
    (d.setLnk l { k with nakOut := k.nakOut || !k.discarding, discarding := true }).flushLink l
  else
    let d1 := d.followKeys l f.keysel
    let k1 := (d1.lnk l).told f
    let (rs, part) := takeRecords 256 (k1.rxPart ++ f.payload)
    let d2 := d1.setLnk l { k1 with
      rxc := f.txc.toNat, expect := (k.expect + 1) % 4096, discarding := false, ackOwed := true, rxPart := part,
      held := k1.held ++ rs.filter fun r => decide (r.rt = 0) || decide (r.rt = 1) }
    (d2.settle t l).flushLink l

/-- Lane of a symbol of a codeword: the symbols go round the eight active lanes, and the spare stands in for its lane (R403,
R411). -/
def Link.laneOf (k : Link) (s : Nat) : Nat := if s % 8 = k.spared then 8 else s % 8

/-- Corrected symbols are counted by lane; more than 1,000 of a lane in 1 s make it fail (R411). -/
def Dev.laneErrors (d : Dev) (t : TimeBase) (l : Nat) (fixed : List (List Nat)) : Dev :=
  if fixed.isEmpty then d
  else
    let k := d.lnk l
    let all := fixed.flatMap fun c => c.map k.laneOf
    let syms := (k.laneSyms.filter fun e => decide (t.elapsed ≤ e.1 + 1000000000)) ++
      (List.range 9).filterMap fun a => if all.contains a then some (t.elapsed, a, all.count a) else none
    let failing := (List.range 9).filter fun a =>
      decide (1000 < sumNat ((syms.filter fun e => decide (e.2.1 = a)).map (·.2.2)))
    failing.foldl (fun d a => d.straitLaneFail t l a) (d.setLnk l { k with laneSyms := syms })

/-- Codewords that the code corrects, up to 15 symbols, and those that it cannot (R403). -/
def fixedWords (errs : List (List Nat)) : List (List Nat) := errs.filter fun c => decide (1 ≤ c.length ∧ c.length ≤ 15)
def badWords (errs : List (List Nat)) : Nat := (errs.filter fun c => decide (15 < c.length)).length

/-- STRAIT_FRAME_RECEIVE (R403, R405 to R408, R410, R411, R418, R420): a frame with a codeword that the code cannot correct fails its
check. The control bits of its codewords hold the lane map of the other direction. -/
def Dev.straitFrame (d : Dev) (t : TimeBase) (l : Nat) (f : StraitFrame) (tagOk : Bool) (errs : List (List Nat)) (map : Option Nat) : Dev :=
  let d1 := (d.bump 0x2B00 (0x30 + l) (fixedWords errs).length).bump 0x2B00 (0x40 + l) (badWords errs)
  let k := d1.lnk l
  let whole := decide (badWords errs = 0)
  if k.state ≠ .up ∨ k.prbs then d1
  else
    ((if whole then d1.setLnk l { k with txSpared := map.getD 15 } else d1).frameIn t l f (tagOk && whole)).laneErrors t l (fixedWords errs)

/-- STRAIT_FRAME_RECEIVE. -/
def execStraitFrameReceive (l : LinkId) (f : StraitFrame) (tagOk : Bool) (errs : List (List (Fin 544))) (map : Option (Fin 9)) (s : State) :
    Host.Outcome State Fault Refusal :=
  act s fun t d => d.straitFrame t l.val f tagOk (errs.map fun c => c.map (·.val)) (map.map (·.val))

/-! ### Retry, keys and training (R407, R409 to R411) -/

/-- STRAIT_NAK (R407): the frames are sent again; after eight NAKs of one frame the link retrains. -/
def Dev.straitNak (d : Dev) (t : TimeBase) (l : Nat) : Dev :=
  let k := d.lnk l
  if ¬ k.nakIn ∨ k.retraining.isSome ∨ k.state ≠ .up then d
  else if 8 ≤ k.naks + 1 then d.setLnk l { k with nakIn := false, naks := 0, retraining := some t.elapsed }
  else (d.setLnk l { k with nakIn := false, naks := k.naks + 1 }).resend l

/-- STRAIT_NAK. -/
def execStraitNak (l : LinkId) (s : State) : Host.Outcome State Fault Refusal := act s fun t d => d.straitNak t l.val

/-- STRAIT_RETRAIN_END (R407): the frames held are sent again; the link goes down when it does not train, and at the end of the
third retrain with no frame acknowledged between. -/
def Dev.straitRetrainEnd (d : Dev) (t : TimeBase) (l : Nat) (trained : Bool) : Dev :=
  let k := d.lnk l
  if k.retraining.isNone then d
  else if ¬ trained ∨ 3 ≤ k.retrains + 1 then d.linkDown t l
  else ((d.setLnk l { k with retraining := none, retrains := k.retrains + 1 }).resend l).flushLink l

/-- STRAIT_RETRAIN_END. -/
def execStraitRetrainEnd (l : LinkId) (trained : Bool) (s : State) : Host.Outcome State Fault Refusal :=
  act s fun t d => d.straitRetrainEnd t l.val trained

/-- STRAIT_REKEY (R410): once the transmission counter has reached the limit, the next key set is in use and the counter is 0. -/
def Dev.straitRekey (d : Dev) (l : Nat) : Dev :=
  let k := d.lnk l
  if k.state ≠ .up ∨ k.txc < k.rekeyAt then d
  else let (v, d1) := d.fresh 384
       d1.setLnk l (k.nextKeys v (d.objN 0x2B00 5))

/-- STRAIT_REKEY. -/
def execStraitRekey (l : LinkId) (s : State) : Host.Outcome State Fault Refusal := act s fun _ d => d.straitRekey l.val

/-- The inbound pools and their payload slots: 256 of the collective engine, and those of each inbound channel (R408, R420). -/
def Dev.inPools (d : Dev) : List (Nat × Nat) :=
  (0xFFFF * 64, 256) :: d.jobs.flatMap fun e => match e.2.plan.bind fun p => collRec p.image with
    | some r => if e.2.state ≠ 0 ∧ e.2.mem.d ≠ 0 then r.ins.map fun i => (e.2.mem.fjh * 64 + i.ch % 64, i.icred) else []
    | none => []

/-- The slots of the pools that the peer has not been offered are offered as freed (assumption 25). -/
def Link.offer (k : Link) (ps : List (Nat × Nat)) : Link :=
  ps.foldl (fun k e =>
    let n := mget 0 k.offered e.1
    { k with freed := mput 0 k.freed e.1 (mget 0 k.freed e.1 + (e.2 - n)), offered := mput 0 k.offered e.1 (max n e.2) }) k

/-- A link that is up under fresh keys and counters, with the slots of its pools that hold nothing on offer (R408 to R411). -/
def Link.trained (k : Link) (lanes : List Nat) (peer : List Byte) (secret : BitVec 384) (rekeyAt : Nat) (ps : List (Nat × Nat)) : Link :=
  let k1 : Link := { k.lost with
    state := .up, spared := lanes.head?.getD 15, txSpared := 15, laneSyms := [], peer := padTo 48 peer, txc := 0, rxc := 0, fseq := 0,
    expect := 0, keysel := false, keySet := 0, rkeysel := false, secret := secret, discarding := false, credits := [], freed := [],
    offered := k.held.foldl (fun m r => mput 0 m (poolKey r) (mget 0 m (poolKey r) + r.payloads.length)) [], rekeyAt := rekeyAt }
  k1.offer ps

/-- STRAIT_LINK_TRAINED (R409, R411, R413, R549): one failing lane goes to the spare, more keep the link down; the session
failing keeps it down and is recorded; else the link is up, offers the slots of its pools, and joins its rail. -/
def Dev.straitTrained (d : Dev) (t : TimeBase) (l : Nat) (lanes : List Nat) (authOk : Bool) (peer : List Byte) : Dev :=
  let k := d.lnk l
  if k.state = .up ∨ k.prbs then d
  else if 2 ≤ lanes.length then (d.setLnk l { k with state := .down }).setRails
  else if ¬ authOk then
    (((d.setLnk l { k with state := .down }).setRails).logErr t 0x5001 (die := linkDie l) (unit := 6) (wh := l)).bump 0x2500 6 1
  else
    let (v, d1) := d.fresh 384
    ((d1.setLnk l (k.trained lanes peer v (d.objN 0x2B00 5) d.inPools)).setRails).flushLink l

/-- STRAIT_LINK_TRAINED. -/
def execStraitLinkTrained (l : LinkId) (lanes : List (Fin 9)) (authOk : Bool) (peer : List Byte) (s : State) :
    Host.Outcome State Fault Refusal := act s fun t d => d.straitTrained t l.val (lanes.map (·.val)) authOk peer

/-! ### Channels (R419, R420) -/

/-- Stop of U0 on the perimeter ring. -/
def u0Node (isle : Nat) : Node := stopNode isle (stopOfDy 4)

/-- The job whose plan uses a U0 queue of an isle (R419). -/
def Dev.u0Job (d : Dev) (isle q : Nat) : Option (Nat × Plan × CollRec) :=
  d.jobs.findSome? fun (j, b) => b.plan.bind fun p => (collRec p.image).bind fun c =>
    if b.state ≠ 0 ∧ ((c.outs.any fun o => decide (rotIsle p.rho o.isle = isle ∧ o.queue = q)) ∨
        (c.buckets.any fun x => decide (rotIsle p.rho x.isle = isle ∧ x.cmdq = q))) then some (j, p, c) else none

/-- A flit that has reached U0 on one of the queues that `mine` names: of a queue that no job holds it is discarded; a kind that
the queue does not accept stops the job (R154, R419). -/
def Dev.u0Eject (d : Dev) (t : TimeBase) (isle : Nat) (p : Port) (c : Cls) (mine : Nat → Bool) (kinds : List Nat)
    (go : Dev → Nat → Plan → CollRec → Flit → Dev) : Dev :=
  let node := u0Node isle
  match d.arrived node p c with
  | none => d
  | some tr =>
    let f := tr.flit
    let take (d : Dev) : Dev := d.takeFlit node p c
    if ¬ mine f.queue then d
    else match d.u0Job isle f.queue with
      | none => take d
      | some (j, pl, cr) =>
        d.unitGate t j (d.ctrN (0x4000 + j) 0x13) (24 + isle) 6 isle tr take fun d =>
          if ¬ kinds.contains f.kind then (take d).jobError t j 0x200A (24 + isle) 6 isle f.queue
          else go d j pl cr f

/-- The record of a channel's token (R420). -/
def channelRecord (m : Membership) (ch : Nat) (f : Flit) : StraitRecord :=
  { fjh := BitVec.ofNat 16 m.fjh, fepoch := m.fepoch, tag := BitVec.ofNat 20 f.tag, kind := BitVec.ofNat 4 f.kind, rt := 0,
    ch := BitVec.ofNat 16 ch, phase := 0, wofs := BitVec.ofNat 32 (f.h 13 0), payloads := [f.payload] }

/-- U0_CHANNEL_TOKEN (R420): the token leaves as a record of type 0 on the link of its flow; without a membership, a rail, a credit or
room it waits. A departing device sends none (R429). -/
def Dev.u0Channel (d : Dev) (t : TimeBase) (isle : Nat) (p : Port) (c : Cls) : Dev :=
  d.u0Eject t isle p c (fun q => decide (q < 48)) [0, 3, 4, 5] fun d j pl cr f =>
    let m := (d.job j).mem
    let out := cr.outs.find? fun o => decide (rotIsle pl.rho o.isle = isle ∧ o.queue = f.queue)
    match out, m.own pl.meas with
    | some o, some own =>
      if m.d = 0 ∨ own.role = 2 then d
      else
        let r := channelRecord m o.ch f
        match ((cr.peers[o.peer]?).bind fun e => m.idOf (peerRank m own.at_ e)).bind fun id => d.flowLink isle id r 0 (o.ch + m.fjh) with
        | some (l, d1) => if d1.canLeave isle l r then (d1.takeFlit (u0Node isle) p c).queueAt isle l [r] else d
        | none => d
    | _, _ => d

/-- U0_CHANNEL_TOKEN. -/
def execU0ChannelToken (i : IsleId) (p : Port) (c : Cls) (s : State) : Host.Outcome State Fault Refusal :=
  act s fun t d => d.u0Channel t i.val p c

end Sys2Proof.Machine
end

