-- ==== Sys2Proof/Machine/Collect.lean ====
section
/-! DEFINITION. Collective engines and memberships (sections 13.6, 13.8 and 13.10). -/
namespace Sys2Proof.Machine

/-! ### What an instance works on -/

/-- An instance's job, engine, plan, bucket, membership and own entry. -/
structure Eng where
  j : Nat
  isle : Nat
  p : Plan
  b : BucketRec
  m : Membership
  own : Member
  /-- what the HBM reads of the command meet -/
  errs : HbmErrs := []
  deriving DecidableEq, Repr

/-- The bucket of a plan under a tag. -/
def Plan.bucket (p : Plan) (n : Nat) : Option BucketRec := (collRec p.image).bind fun c => c.buckets.find? fun b => decide (b.bucket = n)

def Dev.eng (d : Dev) (x : Instance) (errs : HbmErrs := []) : Option Eng :=
  let b := d.job x.job
  b.plan.bind fun p => (p.bucket x.bucket).bind fun k => (b.mem.own p.meas).map fun o =>
    { j := x.job, isle := rotIsle p.rho k.isle, p := p, b := k, m := b.mem, own := o, errs := errs }

/-- Rank that owns a unit (R423). -/
def ownerOf (l d u : Nat) : Nat := ((u + 1) * d - 1) / max 1 l

def Eng.lo (e : Eng) (r : Nat) : Nat := rangeLo e.b.len e.m.d r
def Eng.len (e : Eng) (r : Nat) : Nat := e.lo (r + 1) - e.lo r
/-- First unit of half 1 of a range (R426). -/
def Eng.mid (e : Eng) (r : Nat) : Nat := e.lo r + (e.len r + 1) / 2
/-- This device's rank; a backup has the rank it shadows. -/
def Eng.rank (e : Eng) : Nat := e.own.at_
def Eng.next (e : Eng) : Nat := (e.rank + 1) % max 1 e.m.d
def Eng.prev (e : Eng) : Nat := (e.rank + e.m.d - 1) % max 1 e.m.d

/-- Bytes of a gathered value, and values in a payload (R425). -/
def Eng.esz (e : Eng) : Nat := if e.b.op = 3 ∧ e.b.agfmt = 0 then 4 else if e.b.op = 3 ∧ e.b.agfmt = 1 then 2 else 32
def Eng.per (e : Eng) : Nat := 32 / e.esz

/-- Ranks that a backup shadows in this bucket (R427). -/
def backedUp (b : BucketRec) (m : Membership) : List Nat :=
  if b.bkpok then ((m.members.filter fun x => decide (x.role = 1)).map (·.backupOf)).foldl insNat [] else []

/-- An instance by its name. -/
def Dev.findInst (d : Dev) (j bucket tag : Nat) : Option (Nat × Instance) :=
  d.colls.findSome? fun (n, o) => o.bind fun x => if x.job = j ∧ x.bucket = bucket ∧ x.tag.toNat = tag then some (n, x) else none

/-- An instance in flight (R422): one that has ended and only compares late copies is none (R427; assumption 26). -/
def Instance.flies (x : Option Instance) : Bool := x.any fun y => !y.done

/-- A free instance of an isle's engine, which holds 1,024 (R422); one that has ended gives way. -/
def Dev.freeInst (d : Dev) (isle : Nat) : Option Nat :=
  let l := (List.range 1024).map (isle * 1024 + ·)
  (l.find? fun n => (d.inst n).isNone).orElse fun _ => l.find? fun n => !Instance.flies (d.inst n)

/-- An instance of the job is in flight. -/
def Dev.jobFlies (d : Dev) (j : Nat) : Bool := d.colls.any fun e => Instance.flies e.2 && e.2.any fun x => decide (x.job = j)

/-- `STRAIT_INSTANCES`. -/
def Dev.instCount (d : Dev) : Nat := (d.colls.filter fun e => Instance.flies e.2).length

/-! ### HBM accesses (R223, R422) -/

/-- The controller's answer to an access of an engine for a job: allowed, or refused with the job stopped. -/
def Dev.jobMay (d : Dev) (t : TimeBase) (j ha n : Nat) (write : Bool) : Bool × Dev :=
  let k := ha / 2 ^ 36
  let s := ha % 2 ^ 36 / 32
  match (d.stk k).verdict (.job (d.slotOf j) j) s ((ha % 32 + n + 31) / 32) write with
  | .ok => (true, d)
  | .wait => (false, d)
  | .range => (false, d.hbmRefuse t k s 0x3004 (some j))
  | .denied => (false, d.hbmRefuse t k s 0x3006 (some j))

/-- n bytes read at a plan address and an offset, in a class (R233): as they stand now, while the burst slots are still owed. A
read of class P0 waits while a narrow queue is full (R234). -/
def Dev.jobRead (d : Dev) (t : TimeBase) (j cls : Nat) (errs : HbmErrs) (pa off n : Nat) : Option (List Byte) × Dev :=
  if n = 0 then (some [], d)
  else
    let ha := (d.job j).ha pa + off
    match d.jobMay t j ha n false with
    | (false, d1) => (none, d1)
    | (true, d1) =>
      let k := ha / 2 ^ 36
      let s := ha % 2 ^ 36 / 32
      let m := (ha % 32 + n + 31) / 32
      if cls = 0 ∧ ¬ (d1.stk k).narrowFree s m then (none, d1)
      else match (d1.owe k s m { cls := cls, deadline := t.ns, who := .job (d.slotOf j) j, job := some j }).readSectors t k s m errs (some j) with
      | (l, none, d2) => (some (((l.flatMap payBytes).drop (ha % 32)).take n), d2)
      | (_, some _, d2) => (none, d2)

/-- Bytes written at a plan address and an offset. -/
def Dev.jobWrite (d : Dev) (t : TimeBase) (j pa off : Nat) (b : List Byte) : Dev :=
  let ha := (d.job j).ha pa + off
  if b.isEmpty then d
  else match d.jobMay t j ha b.length true with
    | (false, d1) => d1
    | (true, d1) => d1.poke (.job (d.slotOf j) j) (some j) ha b

/-- Accesses of a collective engine. -/
def Dev.collRead (d : Dev) (t : TimeBase) (e : Eng) (pa off n : Nat) : Option (List Byte) × Dev := d.jobRead t e.j 1 e.errs pa off n
def Dev.collWrite (d : Dev) (t : TimeBase) (e : Eng) (pa off : Nat) (b : List Byte) : Dev := d.jobWrite t e.j pa off b

/-- n units at a plan address, from its unit a on. -/
def Dev.unitsAt (d : Dev) (t : TimeBase) (e : Eng) (pa a n : Nat) : Option (List W256) × Dev :=
  match d.collRead t e pa (32 * a) (32 * n) with
  | (some b, d1) => (some ((List.range n).map fun i => bytesPay (b.drop (32 * i))), d1)
  | (none, d1) => (none, d1)

/-- Units of the bucket's source. -/
def Dev.srcUnits (d : Dev) (t : TimeBase) (e : Eng) (a n : Nat) : Option (List W256) × Dev := d.unitsAt t e e.b.src a n

/-- The regions of the bucket can be accessed now: none of them is held for zero-fill or a map-out (R224, R256). -/
def Dev.regionsOpen (d : Dev) (j : Nat) (b : BucketRec) : Bool :=
  [b.src, b.dst, b.stage].all fun pa =>
    let ha := (d.job j).ha pa
    decide ((d.stk (ha / 2 ^ 36)).verdict (.job (d.slotOf j) j) (ha % 2 ^ 36 / 32) 1 false ≠ .wait)

/-! ### What an engine places in `STAGE` (R423; its layout: assumption 26) -/

/-- The extents that an instance holds: first unit, units. -/
def Instance.extents (x : Instance) : List (Nat × Nat) :=
  ((x.permAt, x.permLen) :: x.early.map (fun e => (e.at_, e.len)) ++ x.copies.map fun c => (c.at_, c.len)).filter fun e => decide (e.2 ≠ 0)

/-- The lowest place of n units among `size` that none of the extents held takes. -/
def firstFit (held : List (Nat × Nat)) (size n : Nat) : Option Nat :=
  let fits (a : Nat) : Bool := decide (a + n ≤ size) && held.all fun e => decide (a + n ≤ e.1 ∨ e.1 + e.2 ≤ a)
  ((0 :: held.map fun e => e.1 + e.2).filter fits).foldl (fun b a => some (match b with | some c => min a c | none => a)) none

/-- What the instances of a bucket hold in its `STAGE`, without those that have ended, or with them. -/
def Dev.stageHeld (d : Dev) (j : Nat) (b : BucketRec) (ended : Bool) : List (Nat × Nat) :=
  d.colls.flatMap fun e => e.2.elim [] fun x => if x.job = j ∧ x.bucket = b.bucket ∧ (x.done → ended = true) then x.extents else []

/-- A place for n units in a bucket's `STAGE`; instances that have ended give way. -/
def Dev.stagePlace (d : Dev) (j : Nat) (b : BucketRec) (n : Nat) : Option Nat :=
  (firstFit (d.stageHeld j b true) (b.stageLen / 32) n).orElse fun _ => firstFit (d.stageHeld j b false) (b.stageLen / 32) n

/-- Instances of a bucket that have ended give up what they hold in `STAGE`, where it has no place left for n units. -/
def Dev.stageClear (d : Dev) (j : Nat) (b : BucketRec) (n : Nat) : Dev :=
  if (firstFit (d.stageHeld j b true) (b.stageLen / 32) n).isSome then d
  else { d with colls := d.colls.filter fun e => !(e.2.any fun x => decide (x.job = j) && decide (x.bucket = b.bucket) && x.done) }

/-- Units written to `STAGE`. -/
def Dev.stageWrite (d : Dev) (t : TimeBase) (e : Eng) (at_ : Nat) (ws : List W256) : Dev :=
  d.collWrite t e e.b.stage (32 * at_) (ws.flatMap payBytes)

/-! ### Sending (R414, R424, R426) -/

/-- A record of an instance. -/
def Eng.record (e : Eng) (tag : BitVec 20) (phase off : Nat) (ws : List W256) : StraitRecord :=
  { fjh := BitVec.ofNat 16 e.m.fjh, fepoch := e.m.fepoch, tag := tag, kind := 0, rt := 1, ch := BitVec.ofNat 16 e.b.bucket,
    phase := BitVec.ofNat 8 phase, wofs := BitVec.ofNat 32 off, payloads := ws }

/-- Payload of a bucket header; its layout is not stated (assumption 26). -/
def headerOf (b : BucketRec) (d rank : Nat) : W256 :=
  bytesPay (le 1 b.op ++ le 1 b.alg ++ le 2 d ++ le 4 b.len ++ le 1 b.agfmt ++ le 3 0 ++ le 2 rank ++ List.replicate 18 0)

/-- Records go to a member of the membership, by segments of 1,024 units from `start`, each on the link of its flow (R414). -/
def Dev.collOut (d : Dev) (e : Eng) (dst start : Nat) (rs : List StraitRecord) : Dev :=
  match (e.m.members[dst]?).map (·.id) with
  | none => d
  | some id =>
    rs.foldl (fun d r =>
      let s := (r.wofs.toNat - start) / 1024
      match d.flowLink e.isle id r (start + 1024 * s) (s + e.b.bucket) with
      | some (l, d1) => d1.queueAt e.isle l [r]
      | none => d) d

/-- Units for a member: the bucket header first, before the first data to it (R424); then runs of 64. -/
def Dev.collSend (d : Dev) (e : Eng) (n dst phase start off step : Nat) (ws : List W256) : Dev :=
  match d.inst n with
  | none => d
  | some x =>
    if ws.isEmpty then d
    else
      let d1 := if x.hdrs.contains dst then d
        else (d.setInst n (some { x with hdrs := insNat x.hdrs dst })).collOut e dst 0
          [e.record x.tag 15 0 [headerOf e.b e.m.d e.rank]]
      d1.collOut e dst start ((List.range (ceilDiv ws.length 64)).map fun i =>
        e.record x.tag phase (off + 64 * i * step) ((ws.drop (64 * i)).take 64))

/-- The same, to a rank. -/
def Dev.sendRank (d : Dev) (e : Eng) (n rank phase start off step : Nat) (ws : List W256) : Dev :=
  match e.m.ofRank rank with
  | some i => d.collSend e n i phase start off step ws
  | none => d

/-- Packed bytes of values a to b as payloads. -/
def payloadsOf (e : Eng) (bytes : List Byte) (a b : Nat) : List W256 :=
  let x := bytes.take ((b - a) * e.esz)
  (List.range (ceilDiv x.length 32)).map fun i => bytesPay (padTo 32 (x.drop (32 * i)))

/-- The gather of the owned range: its halves around the ring, or to every other rank and to the backups (R426, R427). -/
def Dev.sendGather (d : Dev) (e : Eng) (n : Nat) (bytes : List Byte) : Dev :=
  let r := e.rank
  let (a, m, z) := (e.lo r, e.mid r, e.lo (r + 1))
  if e.m.d ≤ 1 ∧ e.b.alg = 0 then d
  else if e.b.alg = 0 then
    (d.sendRank e n e.next 1 a a e.per (payloadsOf e bytes a m)).sendRank e n e.prev 1 m m e.per
      (payloadsOf e (bytes.drop ((m - a) * e.esz)) m z)
  else
    let to_ := (List.range e.m.members.length).filter fun i => match e.m.members[i]? with
      | some x => (decide (x.role = 0) && decide (x.rank ≠ r)) || (e.b.bkpok && decide (x.role = 1))
      | none => false
    to_.foldl (fun d i => d.collSend e n i 1 a a e.per (payloadsOf e bytes a z)) d

/-! ### Combining (R425 to R427) -/

/-- A contribution to a unit of the owned range. -/
def Instance.add (x : Instance) (u : Nat) (w : W256) : Instance × AARep :=
  let k := mget 0 x.got u
  let (v, rep) := if k = 0 then (w, ({} : AARep)) else aaCombine (mget 0 x.acc u) w
  ({ x with acc := mput 0 x.acc u v, got := mput 0 x.got u (k + 1) }, rep)

/-- Contributions to consecutive units of an instance. -/
def Dev.addUnits (d : Dev) (t : TimeBase) (e : Eng) (n off : Nat) (ws : List W256) : Dev :=
  (ws.zipIdx).foldl (fun d (w, i) => match d.inst n with
    | some x =>
      let (y, rep) := x.add (off + i) w
      (d.setInst n (some y)).aaReport t (some e.j) (24 + e.isle) 6 e.isle x.tag.toNat rep
    | none => d) d

/-- The owned range as gathered bytes (R84, R425). -/
def Dev.ownBytes (d : Dev) (t : TimeBase) (e : Eng) (x : Instance) : List Byte × Dev :=
  (List.range (e.len e.rank)).foldl (fun (a : List Byte × Dev) i =>
    let w := mget 0 x.acc (e.lo e.rank + i)
    if e.esz = 32 then (a.1 ++ payBytes w, a.2)
    else
      let (v, _, rep) := aaConvert w e.b.agfmt false
      (a.1 ++ le e.esz v, a.2.aaReport t (some e.j) (24 + e.isle) 6 e.isle x.tag.toNat rep)) ([], d)

/-- Once every rank is in every unit of the owned range, it is stored, and gathered for an all-reduce (R425). -/
def Dev.ownDone (d : Dev) (t : TimeBase) (n : Nat) : Dev :=
  match d.inst n with
  | none => d
  | some x =>
    match d.eng x with
    | none => d
    | some e =>
      let a := e.lo e.rank
      let ready := (List.range (e.len e.rank)).all fun i => decide (mget 0 x.got (a + i) = e.m.d)
      if x.gathering ∨ ¬ ready ∨ e.own.role ≠ 0 ∨ ¬ (e.b.op = 1 ∨ e.b.op = 3) then d
      else
        let (bytes, d1) := d.ownBytes t e x
        let d2 := (d1.setInst n (some { x with gathering := true, written := x.written + e.len e.rank })).collWrite t e e.b.dst
          (a * e.esz) bytes
        if e.b.op = 3 then d2.sendGather e n bytes else d2

/-! ### Backup workers (R427) -/

def Instance.copy (x : Instance) (rank : Nat) (backup : Bool) : Copy :=
  (x.copies.find? fun c => decide (c.rank = rank) && decide (c.backup = backup)).getD { rank := rank, backup := backup }

def Instance.setCopy (x : Instance) (c : Copy) : Instance :=
  { x with copies := (x.copies.filter fun y => !(decide (y.rank = c.rank) && decide (y.backup = c.backup))) ++ [c] }

/-- A copy of a rank is combined from `STAGE`; the use of a backup is recorded once per instance. -/
def Dev.useCopy (d : Dev) (t : TimeBase) (e : Eng) (n rank : Nat) (backup : Bool) : Dev :=
  match d.inst n with
  | none => d
  | some x =>
    let c := x.copy rank backup
    let d1 := d.setInst n (some { x.setCopy { c with used := true } with backupUsed := x.backupUsed || backup })
    let d2 := if backup ∧ ¬ x.backupUsed then
        (d1.logErr t 0x0170 (job := e.j) (die := 24 + e.isle) (unit := 6) (wh := e.isle) (tag := x.tag.toNat)).bump (0x4000 + e.j) 0x54 1
      else d1
    match d2.unitsAt t e e.b.stage c.at_ (e.len e.rank) with
    | (some ws, d3) => (d3.addUnits t e n (e.lo e.rank) ws).ownDone t n
    | (none, d3) => d3

/-- `DETAIL` of BACKUP_MISMATCH: the offset in [31:0], the bucket in [47:32], and in [63:48] the place in the membership record of the
backup, which names the rank it shadows (R427; assumption 148). -/
def mismatchDetail (e : Eng) (rank off : Nat) : Nat :=
  off % 2 ^ 32 + e.b.bucket % 2 ^ 16 * 2 ^ 32 +
    ((e.m.members.findIdx? fun m => decide (m.role = 1) && decide (m.backupOf = rank)).getD 0xFFFF) * 2 ^ 48

/-- The two copies of a rank are compared word by word in `STAGE`, which they then leave. -/
def Dev.compareCopies (d : Dev) (t : TimeBase) (e : Eng) (n rank : Nat) : Dev :=
  match d.inst n with
  | none => d
  | some x =>
    let (p, q) := (x.copy rank false, x.copy rank true)
    let k := e.len e.rank
    match d.unitsAt t e e.b.stage p.at_ k with
    | (none, d1) => d1
    | (some u, d1) => match d1.unitsAt t e e.b.stage q.at_ k with
      | (none, d2) => d2
      | (some v, d2) =>
        let d3 := match d2.inst n with
          | some y => d2.setInst n (some ((y.setCopy { y.copy rank false with len := 0 }).setCopy { y.copy rank true with len := 0 }))
          | none => d2
        match (List.range k).find? fun i => decide (u.getD i 0 ≠ v.getD i 0) with
        | some i => (d3.bump (0x4000 + e.j) 0x55 1).jobError t e.j 0x4002 (24 + e.isle) 6 e.isle x.tag.toNat
            (mismatchDetail e rank (e.lo e.rank + i))
        | none => d3

/-- A copy of a rank has become complete: the copy to combine is chosen, and with the second the two are compared. -/
def Dev.copyDone (d : Dev) (t : TimeBase) (e : Eng) (n rank : Nat) : Dev :=
  match d.inst n with
  | none => d
  | some x =>
    let p := x.copy rank false
    let q := x.copy rank true
    let used := p.used || q.used
    match p.doneAt, q.doneAt with
    | some _, none => if used then d else d.useCopy t e n rank false
    | some a, some b => (if used then d else d.useCopy t e n rank (decide (b + x.wait * 1000 < a))).compareCopies t e n rank
    | _, _ => d

/-- A copy has its place in `STAGE`, or there is one for it. -/
def Dev.copyPlace (d : Dev) (e : Eng) (c : Copy) : Option Nat :=
  if c.len ≠ 0 then some c.at_ else d.stagePlace e.j e.b (e.len e.rank)

/-- Units of a copy of a backed-up rank go to `STAGE`; without a place they are not taken (`Dev.canApply`). -/
def Dev.copyUnits (d : Dev) (t : TimeBase) (e : Eng) (n rank : Nat) (backup : Bool) (off : Nat) (ws : List W256) : Dev :=
  match d.inst n with
  | none => d
  | some x =>
    let c := x.copy rank backup
    match d.copyPlace e c with
    | none => d
    | some a =>
      let c1 : Copy := { c with at_ := a, len := e.len e.rank, count := c.count + ws.length }
      let d1 := (if c.len = 0 then d.stageClear e.j e.b (e.len e.rank) else d).stageWrite t e (a + (off - e.lo e.rank)) ws
      if c.doneAt.isNone ∧ e.len e.rank ≤ c1.count then
        (d1.setInst n (some (x.setCopy { c1 with doneAt := some t.elapsed }))).copyDone t e n rank
      else d1.setInst n (some (x.setCopy c1))

/-- A direct contribution of a rank, or of its backup. -/
def Dev.directUnits (d : Dev) (t : TimeBase) (e : Eng) (n rank : Nat) (backup : Bool) (off : Nat) (ws : List W256) : Dev :=
  if (backedUp e.b e.m).contains rank then d.copyUnits t e n rank backup off ws
  else if backup then d
  else (d.addUnits t e n off ws).ownDone t n

/-! ### Received units -/

/-- Runs of a ring reduce-scatter: own words combined with those received, then kept or forwarded (R426). -/
def Dev.ringUnits (d : Dev) (t : TimeBase) (e : Eng) (n : Nat) (x : Instance) (off : Nat) (ws : List W256) : Dev :=
  match d.srcUnits t e off ws.length with
  | (none, d1) => d1
  | (some own, d1) =>
    let c := ownerOf e.b.len e.m.d off
    let (vs, d2) := (own.zip ws).foldl (fun (a : List W256 × Dev) y =>
      let (v, rep) := aaCombine y.1 y.2
      (a.1 ++ [v], a.2.aaReport t (some e.j) (24 + e.isle) 6 e.isle x.tag.toNat rep)) ([], d1)
    if c = e.rank then
      match d2.inst n with
      | some y => (d2.setInst n (some { y with
          acc := mputs 0 y.acc off vs, got := mputs 0 y.got off (vs.map fun _ => e.m.d) })).ownDone t n
      | none => d2
    else if off < e.mid c then d2.sendRank e n e.next 0 (e.lo c) off 1 vs
    else d2.sendRank e n e.prev 0 (e.mid c) off 1 vs

/-- One gathered payload is stored in `DST`, and around the ring goes on until the rank before its owner (R425, R426). -/
def Dev.gatherUnit (d : Dev) (t : TimeBase) (e : Eng) (n off : Nat) (w : W256) : Dev :=
  match d.inst n with
  | none => d
  | some x =>
    let c := ownerOf e.b.len e.m.d off
    let first := decide (e.b.alg = 0) && decide (off < e.mid c)
    let stop := if first then e.mid c else e.lo (c + 1)
    let k := min e.per (stop - off)
    let d1 := (d.setInst n (some { x with written := x.written + k })).collWrite t e e.b.dst (off * e.esz) ((payBytes w).take (k * e.esz))
    if e.b.alg ≠ 0 then d1
    else if first then (if e.next = c then d1 else d1.sendRank e n e.next 1 (e.lo c) off e.per [w])
    else if e.prev = c then d1 else d1.sendRank e n e.prev 1 (e.mid c) off e.per [w]

/-- The member of a role that a peer is. -/
def Eng.memberOf (e : Eng) (peer : List Byte) (role : Nat) : Option Member :=
  e.m.members.find? fun y => decide (y.id = peer) && decide (y.role = role)

/-- A record of a started instance can be taken: a copy of a backed-up rank has a place in `STAGE`. -/
def Dev.canApply (d : Dev) (e : Eng) (x : Instance) (peer : List Byte) (r : StraitRecord) : Bool :=
  let fits (rank : Nat) (backup : Bool) : Bool :=
    !(backedUp e.b e.m).contains rank || (d.copyPlace e (x.copy rank backup)).isSome
  match r.phase.toNat with
  | 3 => (e.memberOf peer 0).all fun y => fits y.rank false
  | 4 => (e.memberOf peer 1).all fun y => fits y.backupOf true
  | _ => true

/-- A received record of a started instance, from a peer (R425 to R427, R429). -/
def Dev.collApply (d : Dev) (t : TimeBase) (n : Nat) (peer : List Byte) (r : StraitRecord) (errs : HbmErrs) : Dev :=
  match d.inst n with
  | none => d
  | some x =>
    match d.eng x errs with
    | none => d
    | some e =>
      let d0 := d.setInst n (some { x with lastAt := t.elapsed })
      let off := r.wofs.toNat
      match r.phase.toNat with
      | 0 => d0.ringUnits t e n x off r.payloads
      | 1 => (r.payloads.zipIdx).foldl (fun d (w, i) => d.gatherUnit t e n (off + i * e.per) w) d0
      | 2 => (d0.setInst n (some { x with lastAt := t.elapsed, got := mputs 0 x.got off (r.payloads.map fun _ => 1) })).stageWrite t e
          (x.permAt + (off - e.lo e.own.rank)) r.payloads
      | 3 => match e.memberOf peer 0 with
        | some y => d0.directUnits t e n y.rank false off r.payloads
        | none => d0
      | 4 => match e.memberOf peer 1 with
        | some y => d0.directUnits t e n y.backupOf true off r.payloads
        | none => d0
      | _ => d0

/-! ### Starting an instance (R422, R425 to R427, R429) -/

/-- A permute sends the units of the old owned range that lie in the range of each new rank; those that stay go to `STAGE` (R429). -/
def Dev.permuteStart (d : Dev) (t : TimeBase) (e : Eng) (n : Nat) : Dev :=
  if e.own.oldRank = 0xFFFF then d
  else
    let a := rangeLo e.b.len e.m.dold e.own.oldRank
    let z := rangeLo e.b.len e.m.dold (e.own.oldRank + 1)
    (List.range e.m.d).foldl (fun d r =>
      let p := max a (e.lo r)
      let q := min z (e.lo (r + 1))
      if q ≤ p then d
      else match d.unitsAt t e e.b.dst p (q - p) with
        | (none, d1) => d1
        | (some ws, d1) =>
          if e.own.role = 0 ∧ e.own.rank = r then
            match d1.inst n with
            | some x => (d1.setInst n (some { x with got := mputs 0 x.got p (ws.map fun _ => 1) })).stageWrite t e (x.permAt + (p - e.lo r)) ws
            | none => d1
          else d1.sendRank e n r 2 p p 1 ws) d

/-- The sends and the own part of an instance at its start. -/
def Dev.collBegin (d : Dev) (t : TimeBase) (e : Eng) (n : Nat) : Dev :=
  let r := e.rank
  let part (d : Dev) (c : Nat) (go : Dev → List W256 → Dev) : Dev :=
    match d.srcUnits t e (e.lo c) (e.len c) with
    | (some ws, d1) => go d1 ws
    | (none, d1) => d1
  if e.b.op = 4 then d.permuteStart t e n
  else if e.b.op = 2 then
    if e.own.role ≠ 0 then d
    else match d.srcUnits t e 0 (e.len r), d.inst n with
      | (some ws, d1), some x =>
        let bytes := ws.flatMap payBytes
        ((d1.setInst n (some { x with gathering := true, written := x.written + e.len r })).collWrite t e e.b.dst (32 * e.lo r)
          bytes).sendGather e n bytes
      | (_, d1), _ => d1
  else if e.b.alg = 0 then
    if e.own.role ≠ 0 then d
    else if e.m.d ≤ 1 then part d r fun d ws => (d.addUnits t e n (e.lo r) ws).ownDone t n
    else
      let d1 := part d e.prev fun d ws =>
        d.sendRank e n e.next 0 (e.lo e.prev) (e.lo e.prev) 1 (ws.take (e.mid e.prev - e.lo e.prev))
      let d2 := part d1 e.next fun d ws =>
        d.sendRank e n e.prev 0 (e.mid e.next) (e.mid e.next) 1 (ws.drop (e.mid e.next - e.lo e.next))
      d2.ownDone t n
  else
    ((List.range e.m.d).foldl (fun d c => part d c fun d ws =>
      if e.own.role = 0 ∧ c = r then d.directUnits t e n r false (e.lo c) ws
      else d.sendRank e n c (if e.own.role = 1 then 4 else 3) (e.lo c) (e.lo c) 1 ws) d).ownDone t n

/-- Records that came before the local start are read from `STAGE` and applied, each that can be taken now. -/
def Dev.drainEarly (d : Dev) (t : TimeBase) (n : Nat) (errs : HbmErrs) : Dev :=
  match d.inst n with
  | none => d
  | some x => x.early.foldl (fun d y =>
      match d.inst n with
      | none => d
      | some z => match d.eng z errs with
        | none => d
        | some e =>
          if d.canApply e z y.peer y.r = false then d
          else match d.unitsAt t e e.b.stage y.at_ y.len with
            | (none, d1) => d1
            | (some ws, d1) => (d1.setInst n (some { z with early := z.early.erase y })).collApply t n y.peer { y.r with payloads := ws } errs) d

/-- An instance starts: its sends, then what had been received before. -/
def Dev.collStart (d : Dev) (t : TimeBase) (n : Nat) (x : Instance) (errs : HbmErrs) : Dev :=
  let d1 := d.setInst n (some { x with
    started := some t.elapsed, lastAt := t.elapsed, wait := d.inForce x.job 0x2B00 7, limit := d.inForce x.job 0x2B00 6 })
  match d1.eng x errs with
  | none => d1
  | some e => (d1.collBegin t e n).drainEarly t n errs

/-- A permute bucket of the job starts, once an instance, its regions and its place in `STAGE` are free. No rule gives the tag of a
permute: it is free (assumption 3). -/
def Dev.permuteTry (d : Dev) (t : TimeBase) (j bucket : Nat) (errs : HbmErrs) : Dev :=
  let b := d.job j
  match b.plan.bind fun p => (p.bucket bucket).bind fun k => (b.mem.own p.meas).map fun o => (p, k, o) with
  | none => d
  | some (p, k, own) =>
    let len := if own.role = 0 then rangeLo k.len b.mem.d (own.rank + 1) - rangeLo k.len b.mem.d own.rank else 0
    match d.freeInst (rotIsle p.rho k.isle), d.stagePlace j k len, d.regionsOpen j k with
    | some n, some a, true =>
      let (v, d1) := ((d.stageClear j k len).setJob j { b with toPermute := b.toPermute.erase bucket }).fresh 20
      d1.collStart t n { job := j, bucket := bucket, tag := v, permAt := a, permLen := len } errs
    | _, _, _ => d

/-- The permutes of a job that have still to start (R429). -/
def Dev.permuteDue (d : Dev) (t : TimeBase) (j : Nat) (errs : HbmErrs) : Dev :=
  (d.job j).toPermute.foldl (fun d b => d.permuteTry t j b errs) d

/-- A tag has been passed by a bucket of the job: it is the last that started, or lies before it (section 5.2). -/
def Job.tagPassed (b : Job) (bucket : Nat) (tag : BitVec 20) : Bool :=
  let k := mget 0 b.collTags bucket
  decide (k ≠ 0 ∧ (BitVec.ofNat 20 (k - 1) - tag).toNat < 2 ^ 19)

/-- An instance of a bucket has room for the device's own contribution, where a backup shadows it (R427). -/
def Dev.startRoom (d : Dev) (j : Nat) (b : BucketRec) (m : Membership) (own : Member) : Bool :=
  !(decide (own.role = 0 ∧ (b.op = 1 ∨ b.op = 3)) && (backedUp b m).contains own.rank) ||
    (d.stagePlace j b (rangeLo b.len m.d (own.rank + 1) - rangeLo b.len m.d own.rank)).isSome

/-- COLLECTIVE_COMMAND (R419, R422): the command token starts an instance; it waits for a membership, for the permutes that
come first, for a free instance, for the regions of the bucket, and for an instance of the same name to end; on a departing device
none starts (R429). A bucket that the plan does not have, and a permute bucket, which only a membership starts, are not started. -/
def Dev.collCommand (d : Dev) (t : TimeBase) (isle : Nat) (p : Port) (c : Cls) (errs : HbmErrs) : Dev :=
  d.u0Eject t isle p c (fun q => decide (48 ≤ q) && decide (q ≤ 61)) [0] fun d j pl _ f =>
    let bucket := bits (payWord f.payload 0) 15 0
    match pl.bucket bucket with
    | none => d.takeFlit (u0Node isle) p c
    | some b =>
      let x := d.job j
      if b.op = 4 ∨ rotIsle pl.rho b.isle ≠ isle then d.takeFlit (u0Node isle) p c
      else if d.permuting j then d.permuteDue t j errs
      else if x.mem.d = 0 ∨ d.regionsOpen j b = false ∨ (x.mem.own pl.meas).any (fun o => decide (o.role ≠ 2) && d.startRoom j b x.mem o) = false then d
      else
        let take := (d.setJob j { x with collTags := mput 0 x.collTags bucket (f.tag % 2 ^ 20 + 1) }).takeFlit (u0Node isle) p c
        match d.findInst j bucket f.tag with
        | some (n, y) =>
          if y.done then take.collStart t n { job := j, bucket := bucket, tag := BitVec.ofNat 20 f.tag } errs
          else if y.started.isSome then d else take.collStart t n y errs
        | none => match d.freeInst isle with
          | some n => take.collStart t n { job := j, bucket := bucket, tag := BitVec.ofNat 20 f.tag } errs
          | none => d

/-- COLLECTIVE_COMMAND. -/
def execCollectiveCommand (i : Reads IsleId) (p : Port) (c : Cls) (s : State) : Host.Outcome State Fault Refusal :=
  act s fun t d => d.collCommand t i.val.val p c i.errs

/-! ### Records (R418, R423, R424) -/

/-- A bucket header is held against this device's own values (R424). -/
def Dev.collHeader (d : Dev) (t : TimeBase) (n l j : Nat) (p : Plan) (r : StraitRecord) : Dev :=
  let w := r.payloads.headD 0
  let rank := (w.toNat / 2 ^ 96) % 65536
  match p.bucket r.ch.toNat with
  | some b =>
    if w = headerOf b (d.job j).mem.d rank then
      match d.inst n with
      | some x => d.setInst n (some { x with headers := insNat x.headers rank })
      | none => d
    else d.jobError t j 0x4004 (linkDie l) 6 l r.tag.toNat
  | none => d.jobError t j 0x4004 (linkDie l) 6 l r.tag.toNat

/-- The instance of a record: by its name, and for a permute by its bucket, since its tag is the sender's own (assumption 3). -/
def Dev.instOf (d : Dev) (j : Nat) (b : BucketRec) (r : StraitRecord) : Option (Nat × Instance) :=
  if b.op = 4 then
    d.colls.findSome? fun (n, o) => o.bind fun x => if x.job = j ∧ x.bucket = b.bucket then some (n, x) else none
  else d.findInst j b.bucket r.tag.toNat

/-- A copy of a backed-up rank may still arrive, to be compared (R427). -/
def Instance.awaits (x : Instance) (e : Eng) : Bool :=
  decide (e.own.role = 0 ∧ (e.b.op = 1 ∨ e.b.op = 3)) &&
    (backedUp e.b e.m).any fun k => (x.copy k false).doneAt.isNone || (x.copy k true).doneAt.isNone

/-- An instance that has ended and compared its copies is gone (R427). -/
def Dev.reap (d : Dev) (n : Nat) : Dev :=
  match d.inst n with
  | some x => if x.done ∧ (d.eng x).any (fun e => x.awaits e) = false then d.setInst n none else d
  | none => d

/-- A record of an instance is taken: a header is compared, one of a started instance applied, any other placed in `STAGE`. None:
there is no place for it, and it keeps its slots. -/
def Dev.recordFor (d : Dev) (t : TimeBase) (n l j : Nat) (p : Plan) (b : BucketRec) (x : Instance) (r : StraitRecord) (errs : HbmErrs) :
    Option Dev :=
  let peer := (d.lnk l).peer
  if r.phase = 15 then some (d.collHeader t n l j p r)
  else if x.started.isSome then
    (match d.eng x errs with
     | some e => if d.canApply e x peer r then some (((d.collApply t n peer r errs).drainEarly t n errs).reap n) else none
     | none => some d)
  else (d.stagePlace j b r.payloads.length).map fun a =>
    let d1 := (d.stageClear j b r.payloads.length).setInst n (some { x with
      early := x.early ++ [{ r := { r with payloads := [] }, peer := peer, at_ := a, len := r.payloads.length }] })
    match d1.eng x errs with
    | some e => d1.stageWrite t e a r.payloads
    | none => d1

/-- The slots of a record that leaves the link's pool are free (R408). -/
def Dev.recordGone (d : Dev) (l i : Nat) (r : StraitRecord) : Dev :=
  (d.setLnk l { d.lnk l with held := (d.lnk l).held.eraseIdx i }).freeSlots l r r.payloads.length

/-- The collective record at place i of those that a link holds, of the present membership (R418, R422 to R425, R427, R429): it waits
for the regions of its bucket, an instance and a place in `STAGE`; a record of a bucket that has gone past its tag is discarded. None: it
waits. -/
def Dev.recordAt (d : Dev) (t : TimeBase) (l j i : Nat) (r : StraitRecord) (p : Plan) (errs : HbmErrs) : Option Dev :=
  let gone (d : Dev) : Dev := d.recordGone l i r
  match p.bucket r.ch.toNat with
  | none => some (if r.phase = 15 then (gone d).jobError t j 0x4004 (linkDie l) 6 l r.tag.toNat else gone d)
  | some b =>
    if d.regionsOpen j b = false then none
    else match d.instOf j b r with
      | some (n, x) => ((gone d).recordFor t n l j p b x r errs)
      | none =>
        if b.op = 4 then (if (d.job j).toPermute.contains b.bucket then none else some (gone d))
        else if (d.job j).tagPassed b.bucket r.tag then some (gone d)
        else
          let x : Instance := { job := j, bucket := b.bucket, tag := r.tag, lastAt := t.elapsed }
          (d.freeInst (rotIsle p.rho b.isle)).bind fun n =>
            ((gone d).setInst n (some x)).recordFor t n l j p b x r errs

/-- COLLECTIVE_RECORD (R425): the oldest collective record of a link that can be taken is combined, stored or forwarded; records of one
peer and instance are taken in order. -/
def Dev.collectiveRecord (d0 : Dev) (t : TimeBase) (l : Nat) (errs : HbmErrs) : Dev :=
  let d := d0.settle t l
  let q := (d.lnk l).held
  let take (i : Nat) : Option Dev := q[i]?.bind fun r =>
    if r.rt ≠ 1 ∨ (q.take i).any (fun y => decide (y.rt = 1 ∧ y.fjh = r.fjh ∧ y.ch = r.ch ∧ y.tag = r.tag)) then none
    else match d.fate r with
      | .equal j => (d.job j).plan.bind fun p => (d.permuteDue t j errs).recordAt t l j i r p errs
      | _ => none
  match (List.range q.length).findSome? take with
  | some d1 => d1.flushLink l
  | none => d

/-- COLLECTIVE_RECORD. -/
def execCollectiveRecord (l : Reads LinkId) (s : State) : Host.Outcome State Fault Refusal :=
  act s fun t d => d.collectiveRecord t l.val.val l.errs

/-! ### Ends of an instance (R422, R427, R429, R430) -/

/-- BKP_WAIT_EXPIRY (R427): the primary copy has not completed `BKP_WAIT` after the backup copy. -/
def Dev.bkpWait (d : Dev) (t : TimeBase) (n rank : Nat) (errs : HbmErrs) : Dev :=
  match d.inst n with
  | none => d
  | some x =>
    match d.eng x errs, (x.copy rank false).doneAt, (x.copy rank true).doneAt with
    | some e, none, some b =>
      if b + x.wait * 1000 < t.elapsed ∧ ¬ (x.copy rank true).used then d.useCopy t e n rank true else d
    | _, _, _ => d

/-- BKP_WAIT_EXPIRY. -/
def execBkpWaitExpiry (n : Reads (Fin 4096)) (rank : W16) (s : State) : Host.Outcome State Fault Refusal :=
  act s fun t d => d.bkpWait t n.val.val rank.toNat n.errs

/-- Every write of an instance to `DST` has been made (R422). -/
def Instance.complete (x : Instance) (e : Eng) : Bool :=
  x.started.isSome && !x.done && (if e.b.op = 1 then x.gathering || decide (e.own.role = 1) else decide (e.b.len ≤ x.written))

/-- The completion token of an instance; the instance ends, and stays only to compare copies that still arrive (R422, R427). -/
def Dev.collEnd (d : Dev) (e : Eng) (n : Nat) (x : Instance) (token : Bool) : Dev :=
  let d0 := d.setInst n (if x.awaits e then some { x with done := true } else none)
  let d1 : Dev := { d0 with
    flows := d0.flows.filter fun f => !decide (f.rt = 1 ∧ f.fjh = e.m.fjh ∧ f.ch = e.b.bucket ∧ f.tag = x.tag.toNat) }
  if token then
    d1.inject (u0Node e.isle)
      { hdr := routeHdr (e.p.route e.b.croute) (d.ctrN (0x4000 + e.j) 0x13) x.tag.toNat 0 (dataLow 1 0),
        payload := payOf [e.b.bucket + e.m.d * 65536] }
  else d1

/-- COLLECTIVE_COMPLETE (R422): the token waits while U0 has no room for it. -/
def Dev.collComplete (d : Dev) (n : Nat) : Dev :=
  match d.inst n with
  | none => d
  | some x => match d.eng x with
    | some e => if e.b.op ≠ 4 ∧ x.complete e ∧ d.canInject (u0Node e.isle) 0 then d.collEnd e n x true else d
    | none => d

/-- COLLECTIVE_COMPLETE. -/
def execCollectiveComplete (n : Fin 4096) (s : State) : Host.Outcome State Fault Refusal := act s fun _ d => d.collComplete n.val

/-- A record of the instance that this device sends is not yet acknowledged. -/
def Dev.unsent (d : Dev) (e : Eng) : Bool :=
  let mine (r : StraitRecord) : Bool :=
    decide (r.rt = 1) && decide (r.fjh.toNat = e.m.fjh) && decide (r.ch.toNat = e.b.bucket) && decide (r.phase = 2)
  d.links.any (fun k => (k.2.unacked.flatMap (·.ends)).any mine || (k.2.txStream.filterMap (·.2)).any mine || k.2.sendQ.any mine ||
    k.2.fromRing.any fun x => mine x.2) || d.fabric.bufs.any fun b => b.2.any fun x => x.cargo.any fun c => mine c.2

/-- The new range of a permute is whole in `STAGE`, and every own send has been acknowledged (R429). -/
def Dev.permuted (d : Dev) (e : Eng) (x : Instance) : Bool :=
  (decide (e.own.role ≠ 0) || (List.range (e.len e.own.rank)).all fun i => decide (mget 0 x.got (e.lo e.own.rank + i) ≠ 0)) && !d.unsent e

/-- A started instance lacks a contribution, and any copy of it (R427): one that has every unit of its range, counting the complete
copies that wait for `BKP_WAIT`, lacks none. -/
def Instance.lacks (x : Instance) (e : Eng) : Bool :=
  let wait := ((backedUp e.b e.m).filter fun k => (x.copy k true).doneAt.isSome && !(x.copy k true).used && !(x.copy k false).used).length
  !x.complete e && !x.done && !(decide (e.b.alg = 1 ∧ 0 < wait ∧ x.gathering = false ∧ (e.b.op = 1 ∨ e.b.op = 3)) &&
    (List.range (e.len e.rank)).all fun i => decide (e.m.d ≤ mget 0 x.got (e.lo e.rank + i) + wait))

/-- COLLECTIVE_TIMEOUT (R427, R430): a contribution is missing, or a permute not complete, `COLL_TIMEOUT` after the local start. -/
def Dev.collTimeout (d : Dev) (t : TimeBase) (n : Nat) : Dev :=
  match d.inst n with
  | none => d
  | some x => match d.eng x, x.started with
    | some e, some a =>
      if (if e.b.op = 4 then !d.permuted e x else x.lacks e) ∧ a + x.limit * 1000000 ≤ t.elapsed then
        d.jobError t e.j (if e.b.op = 4 then 0x4006 else 0x4007) (24 + e.isle) 6 e.isle x.tag.toNat
      else d
    | _, _ => d

/-- COLLECTIVE_TIMEOUT. -/
def execCollectiveTimeout (n : Fin 4096) (s : State) : Host.Outcome State Fault Refusal := act s fun t d => d.collTimeout t n.val

/-- PERMUTE_COMPLETE (R429): the new range, once whole and with every own send acknowledged, is copied from `STAGE` into `DST`. A device
without a new rank has nothing to write, and so sends no completion token (R422). -/
def Dev.permuteComplete (d0 : Dev) (t : TimeBase) (n : Nat) (errs : HbmErrs) : Dev :=
  let d := match d0.inst n with | some x => d0.permuteDue t x.job errs | none => d0
  match d.inst n with
  | none => d
  | some x => match d.eng x errs with
    | none => d
    | some e =>
      let token := decide (e.own.role = 0)
      if e.b.op ≠ 4 ∨ x.started.isNone ∨ d.permuted e x = false ∨ d.regionsOpen e.j e.b = false ∨
          (token = true ∧ d.canInject (u0Node e.isle) 0 = false) then d
      else match d.unitsAt t e e.b.stage x.permAt x.permLen with
        | (none, d1) => d1
        | (some ws, d1) => ((d1.collWrite t e e.b.dst (32 * e.lo e.own.rank) (ws.flatMap payBytes)).collEnd e n x token).permuteDue t e.j errs

/-- PERMUTE_COMPLETE. -/
def execPermuteComplete (n : Reads (Fin 4096)) (s : State) : Host.Outcome State Fault Refusal :=
  act s fun t d => d.permuteComplete t n.val.val n.errs

/-! ### Memberships (R415 to R417, R423, R429) -/

/-- The record decoded. -/
def membershipOf (b : List Byte) : Membership :=
  let f := fieldAt b
  { fjh := f 0 2, fepoch := BitVec.ofNat 16 (f 2 2), d := f 4 2, dold := f 6 2,
    members := (List.range (f 8 2)).map fun i =>
      let o := 64 + 128 * i
      { id := bytesAt b o 48, plan := bytesAt b (o + 48) 48, rank := f (o + 96) 2, oldRank := f (o + 98) 2, role := f (o + 100) 1,
        backupOf := f (o + 102) 2 } }

/-- A field of the record is out of range, or a reserved one nonzero (Table 13-4). -/
def membershipBad (b : List Byte) : Bool :=
  let f := fieldAt b
  let n := f 8 2
  let m := membershipOf b
  decide (n < 1 ∨ 2048 < n ∨ b.length ≠ 160 + 128 * n) || decide (m.fjh = 0xFFFF) || decide (m.d < 1 ∨ 1024 < m.d) ||
    decide (1024 < m.dold) || !(bytesAt b 10 54).all (· == 0) ||
    (List.range n).any (fun i =>
      let o := 64 + 128 * i
      decide (f (o + 101) 1 ≠ 0) || !(bytesAt b (o + 104) 24).all (· == 0)) ||
    m.members.any fun e =>
      decide (2 < e.role) || (decide (e.role = 1) && decide (m.d ≤ e.backupOf)) || (decide (e.role = 2) && decide (e.rank ≠ 0xFFFF)) ||
        (decide (m.dold ≠ 0) && decide (e.oldRank ≠ 0xFFFF) && decide (m.dold ≤ e.oldRank))

/-- The contributing ranks are exactly 0 to D − 1. -/
def Membership.ranksOk (m : Membership) : Bool :=
  let rs := (m.members.filter fun e => decide (e.role = 0)).map (·.rank)
  decide (rs.length = m.d) && (List.range m.d).all rs.contains

/-- A bucket's `STAGE_LEN` is too small for a membership (R423). -/
def stageShort (m : Membership) (b : BucketRec) : Bool :=
  decide (b.stageLen < (2 + (backedUp b m).length) * ceilDiv b.len (max 1 m.d) * 32)

/-- A membership record is refused (R416). Before the first membership of a job, any `FEPOCH` follows. -/
def Dev.membershipRefused (d : Dev) (j : Nat) (b : List Byte) (sigOk : Bool) : Bool :=
  let m := membershipOf b
  let x := d.job j
  let step := (m.fepoch - x.mem.fepoch).toNat
  !sigOk || membershipBad b || !m.ranksOk ||
    (match x.plan with
     | none => true
     | some p => (m.own p.meas).isNone || ((collRec p.image).any fun c => c.buckets.any (stageShort m))) ||
    (decide (x.mem.d ≠ 0) && !(decide (1 ≤ step) && decide (step < 2 ^ 15))) ||
    d.jobs.any fun (i, y) => decide (i ≠ j) && decide (y.state ≠ 0) &&
      ((decide (y.mem.d ≠ 0) && decide (y.mem.fjh = m.fjh)) || y.memNext.any fun z => decide (z.fjh = m.fjh))

/-- MEMBERSHIP_APPLY (R417, R429): the record waiting takes effect at a tide point with no instance in flight, when every peer it
needs has a live rail; the slots of its channels are offered on every link that is up; its permutes start. -/
def Dev.applyMembership (d : Dev) (t : TimeBase) (j : Nat) (errs : HbmErrs) : Dev :=
  let b := d.job j
  match b.memNext, b.plan with
  | some m, some p =>
    if d.jobFlies j then d
    else
      match m.own p.meas with
      | none => d
      | some own =>
        if (neededIds p m ++ permuteIds p m).any fun i => (d.railOf i).isNone then
          (d.setJob j { b with memNext := none }).jobError t j 0x4009 (Config.logDie 0x4009) (Config.logUnit 0x4009)
            (Config.logWhere 0x4009)
        else
          let d0 := d.setJob j { b with
            mem := m, memNext := none, staleLogged := false, collTags := [],
            toPermute := if m.dold = 0 then [] else ((collRec p.image).elim [] (·.buckets)).filterMap fun k =>
              if k.op = 4 then some k.bucket else none }
          let d1 : Dev := { d0 with
            colls := d.colls.filter fun e => !(e.2.any fun x => decide (x.job = j)),
            flows := d.flows.filter fun f => decide (f.fjh ≠ b.mem.fjh ∧ f.fjh ≠ m.fjh) }
          let d2 := ((d1.setCtr (0x4000 + j) 0x51 m.fepoch.toNat).setCtr (0x4000 + j) 0x52 own.rank).setCtr (0x4000 + j) 0x53 m.d
          (d2.upLinks.foldl (fun d l => (d.setLnk l ((d.lnk l).offer d.inPools)).flushLink l) d2).permuteDue t j errs
  | _, _ => d

/-- A membership record that is not refused is stored, and applies at the next tide point of the job; a running job that waits
for its first membership stands at tide point 0, since it takes no ingress before (R416, R417). -/
def Dev.writeMembership (d : Dev) (t : TimeBase) (j : Nat) (b : List Byte) (sigOk : Bool) : Option Nat × Dev :=
  if d.membershipRefused j b sigOk then (some 0x06090030, d.logErr t 0x4009 (job := j))
  else
    let x := d.job j
    let d1 := d.setJob j { x with memNext := some (membershipOf b), memBytes := b }
    (none, if x.mem.d = 0 ∧ x.state = 2 then d1.applyMembership t j [] else d1)

/-- A job with a collectives section takes ingress only once a membership has applied (R417). -/
def Job.mayIngress (b : Job) : Bool :=
  match b.plan with
  | some p => (collRec p.image).isNone || decide (b.mem.d ≠ 0)
  | none => false

end Sys2Proof.Machine
end

