-- ==== Sys2Proof/Machine/Format.lean ====
section
/-! DEFINITION. Check 1 of the loader: the format of a plan image (R290, R292, R293, R618, R347, R383, R400, R432). Each check
answers the section type and record index at fault; the header and the section table count as type 0. -/
namespace Sys2Proof.Machine

/-- Section type and record index at fault (R299). -/
abbrev Where := Nat × Nat

/-- The first failing of some checks. -/
def firstOf (l : List (Option Where)) : Option Where := l.findSome? id

/-- The first record of a list that is bad. -/
def badAt {α : Type} (ty : Nat) (l : List α) (bad : α → Bool) : Option Where := (l.findIdx? bad).map fun i => (ty, i)

/-- One condition on a record. -/
def badIf (ty rec : Nat) (bad : Bool) : Option Where := if bad then some (ty, rec) else none

/-- n bytes at an offset are zero. -/
def allZero (b : List Byte) (o n : Nat) : Bool := (bytesAt b o n).all (· = 0)

/-- Bits lo and above of a word are zero. -/
def hiZero (w : W64) (lo : Nat) : Bool := decide (w.toNat < 2 ^ lo)

/-- No two of a list are equal. -/
def distinct (l : List Nat) : Bool :=
  let s := l.mergeSort (· ≤ ·)
  (s.zip (s.drop 1)).all fun p => decide (p.1 ≠ p.2)

/-- The index of the first member equal to an earlier one. -/
def firstRepeat (ty : Nat) (l : List Nat) : Option Where := if distinct l then none else
  badAt ty (List.range l.length) fun i => (l.take i).contains (l.getD i 0)

/-- Extents (offset, length) that overlap none of each other. -/
def disjoint (l : List (Nat × Nat)) : Bool :=
  let s := (l.filter fun e => decide (0 < e.2)).mergeSort fun a b => a.1 ≤ b.1
  (s.zip (s.drop 1)).all fun p => decide (p.1.1 + p.1.2 ≤ p.2.1)

/-! ### Header, section table, trailer (Tables 9-1 to 9-4) -/

/-- Entries of the section table: type, offset, size. -/
def sectionTable (img : List Byte) : List (Nat × Nat × Nat) :=
  (List.range (fieldAt img 26 2)).map fun i =>
    let o := 128 + 32 * i
    (fieldAt img o 2, fieldAt img (o + 8) 8, fieldAt img (o + 16) 8)

/-- R290, R292, R293 as to the header, the section table and the trailer. -/
def headerBad (img : List Byte) : Bool :=
  let n := img.length
  let ns := fieldAt img 26 2
  let tab := sectionTable img
  let types := tab.map (·.1)
  decide (n < 384 ∨ n % 256 ≠ 0 ∨ 2 ^ 32 < n) || decide (fieldAt img 0 4 ≠ 0x4E414C50 ∨ fieldAt img 4 2 ≠ 1) ||
    decide (8 ≤ fieldAt img 6 2) || decide (fieldAt img 8 8 ≠ n) || decide (64 ≤ fieldAt img 24 1) ||
    decide (16 ≤ fieldAt img 25 1) || decide (ns = 0 ∨ 64 < ns) || decide (n < 128 + 32 * ns + 256) ||
    !allZero img 28 4 || !allZero img 80 48 || !allZero img (n - 112) 112 ||
    (List.range ns).any (fun i => !allZero img (130 + 32 * i) 6 || !allZero img (152 + 32 * i) 8) ||
    tab.any (fun (ty, o, z) => decide (ty = 0 ∨ 0xE < ty) || decide (o % 256 ≠ 0 ∨ o < 128 + 32 * ns ∨ n - 256 < o + z)) ||
    !distinct types || !disjoint (tab.map (·.2)) ||
    [1, 2, 8, 9, 0xA, 0xB].any (fun ty => !types.contains ty) || (bit (fieldAt img 6 2) 1 && !types.contains 0xC)

/-! ### Sections of fixed-size records -/

/-- A section of records of one size ends with its last record. -/
def sizeBad (ty size : Nat) (b : List Byte) : Option Where := badIf ty (b.length / size) (decide (b.length % size ≠ 0))

/-- Stage records (Table 9-5). -/
def formatStages (img : List Byte) : Option Where :=
  let b := sectionBytes img 1
  firstOf [sizeBad 1 32 b, badAt 1 (recordsOf b 32) fun r =>
    decide (2 < fieldAt r 2 1 ∨ 1 < fieldAt r 3 1) || !allZero r 4 4 || decide (2 ^ 36 ≤ fieldAt r 8 8 ∨ 2 ^ 36 ≤ fieldAt r 16 8) ||
      !allZero r 24 8]

/-- Link records (Table 9-8). -/
def formatLinks (img : List Byte) : Option Where :=
  let b := sectionBytes img 0xA
  firstOf [sizeBad 0xA 32 b, badAt 0xA (recordsOf b 32) fun r =>
    let ty := fieldAt r 0 1
    decide (5 < ty) || decide (ty ≠ 0 ∧ fieldAt r 4 2 ≠ 0) || decide (4 ≤ fieldAt r 9 1) || !allZero r 15 1 ||
      decide (fieldAt r 16 4 = 0) || decide (ty = 0 ∧ fieldAt r 20 4 ≠ 0) || !allZero r 24 8]

/-- Epoch records (Table 9-9), with at most 256 reporters per stage (R307). -/
def formatEpochs (img : List Byte) : Option Where :=
  let b := sectionBytes img 0xB
  let es := epochRecs img
  firstOf [sizeBad 0xB 32 b, badAt 0xB (recordsOf b 32) fun r =>
      decide (fieldAt r 0 1 = 0 ∨ 3 < fieldAt r 0 1) || !allZero r 24 8,
    badAt 0xB (List.range es.length) fun i =>
      let e := es.getD i ⟨0, 0, 0, 0, 0, 0, 0, 0, 0⟩
      decide (e.rtype = 1) && decide (256 ≤ ((es.take i).filter fun f => decide (f.rtype = 1 ∧ f.stage = e.stage)).length)]

/-! ### Site records (Table 9-6) -/

/-- Bytes of the site record at an offset. -/
def siteRecSize (b : List Byte) (o : Nat) : Nat :=
  (readExtents b (fieldAt b (o + 8) 2) (o + 16 + 8 * fieldAt b (o + 6) 2 + 1664)).2 - o

/-- Offsets of the site records, and where they end. -/
def siteOffs (b : List Byte) : List Nat × Nat := recOffsets (siteRecSize b) b.length (b.length / 1696 + 1) 0

/-- Headers of n extents from an offset. -/
def extentHeads (b : List Byte) : Nat → Nat → List Nat
  | 0, _ => []
  | n + 1, o => let h := fieldAt b o 8; h :: extentHeads b n (o + 8 + 8 * bits h 31 16)

def siteRecBad (b : List Byte) (o : Nat) : Bool :=
  let np := fieldAt b (o + 6) 2
  let nd := fieldAt b (o + 8) 2
  let t := o + 16 + 8 * np
  decide (95 < fieldAt b o 2 ∨ 95 < fieldAt b (o + 2) 2) || decide (np = 0 ∨ 1024 < np ∨ 1024 < nd) || !allZero b (o + 10) 6 ||
    decide (b.length < o + siteRecSize b o) ||
    (words b t 32).any (fun w => !hiZero w 52) ||
    (words b (t + 256) 64).any (fun w => !hiZero w 45 || decide (bits w.toNat 14 13 ≠ 3 ∧ bits w.toNat 42 33 ≠ 0)) ||
    (List.range 16).any (fun k => bit (fieldAt b (t + 784 + 24 * k) 8) 15) ||
    (words b (t + 1152) 64).any (fun w => !hiZero w 25) ||
    (extentHeads b nd (t + 1664)).any fun h => decide (2 ^ 32 ≤ h)

def formatSites (img : List Byte) : Option Where :=
  let b := sectionBytes img 2
  let (os, e) := siteOffs b
  firstOf [badAt 2 os (siteRecBad b), badIf 2 os.length (decide (e ≠ b.length))]

/-! ### Sections 0x03, 0x04 and 0x06 (assumption 9) -/

def reefRecBad (b : List Byte) (o : Nat) : Bool :=
  let r := reefRecAt b o
  let n := fieldAt b (o + 2) 2
  let sizes := (List.range 256).map fun i => fieldAt b (o + 656 + 2 * i) 2
  decide (35 < r.reef) || !allZero b (o + 4) 12 || decide (b.length < o + reefRecSize b o) ||
    r.regions.any (fun w => !hiZero w 21 || decide (5 < bits w.toNat 14 12)) ||
    r.chans.any (fun c => !hiZero c.1 36 || !hiZero c.2 25) ||
    decide (2048 < n ∨ sumNat sizes ≠ n) || sizes.any (fun k => decide (256 < k)) ||
    (List.range n).any (fun i => decide (2 ^ 20 ≤ fieldAt b (o + 1168 + 4 * i) 4)) || !allZero b (o + 1168 + 4 * n) (4 * (n % 2)) ||
    r.groups.any fun g => g.any (fun t => decide (9216 ≤ t.1)) || (g.zip (g.drop 1)).any fun p => decide (p.2.1 < p.1.1)

def formatReefs (img : List Byte) : Option Where :=
  let b := sectionBytes img 3
  let (os, e) := reefOffs img
  firstOf [badAt 3 os (reefRecBad b), badIf 3 os.length (decide (e ≠ b.length)),
    firstRepeat 3 ((reefRecs img).map fun r => r.isle * 256 + r.reef)]

def streamRecBad (b : List Byte) (o : Nat) : Bool :=
  let r := streamRecAt b o
  !allZero b (o + 1) 7 ||
    (r.words.zip [58, 58, 44, 52, 54]).any (fun p => !hiZero p.1 p.2) ||
    r.blocks.any fun w => !hiZero (w.getD 2 0) 36 || decide (w.getD 3 0 ≠ 0)

def streamsRecBad (b : List Byte) (o : Nat) : Bool :=
  let r := streamsRecAt b o
  let n := fieldAt b (o + 2) 2
  !allZero b (o + 4) 12 || decide (b.length < o + streamsRecSize b o) || r.routes.any (fun w => !hiZero w 25) ||
    (streamOffs b n (o + 528)).1.any (streamRecBad b) || (decide (n ≤ 256) && !distinct (r.streams.map (·.sid)))

def formatStreams (img : List Byte) : Option Where :=
  let b := sectionBytes img 4
  let (os, e) := streamsOffs img
  firstOf [badAt 4 os (streamsRecBad b), badIf 4 os.length (decide (e ≠ b.length)),
    firstRepeat 4 ((streamsRecs img).map (·.isle))]

def semRecBad (b : List Byte) (o : Nat) : Bool :=
  let r := semRecAt b o
  let n := fieldAt b (o + 2) 2
  !allZero b (o + 4) 12 || decide (b.length < o + semRecSize b o) ||
    (List.range n).any (fun i => decide (2 ^ 25 ≤ fieldAt b (o + 16 + 4 * i) 4)) || !allZero b (o + 16 + 4 * n) (4 * (n % 2)) ||
    r.pairs.any (fun p => decide (35 < p.2.1)) || !distinct (r.pairs.map (·.1)) || !distinct (r.pairs.map fun p => p.2.1 * 128 + p.2.2)

def formatSems (img : List Byte) : Option Where :=
  let b := sectionBytes img 6
  let (os, e) := semOffs img
  firstOf [badAt 6 os (semRecBad b), badIf 6 os.length (decide (e ≠ b.length)), firstRepeat 6 ((semRecs img).map (·.isle))]

/-! ### Sections of R618 -/

/-- Every byte of a section that neither the header, the records nor the further extents cover is zero. -/
def restZero (b : List Byte) (head : Nat) (ext : List (Nat × Nat)) : Bool :=
  b.zipIdx.all fun (v, i) => decide (v = 0) || decide (i < head) || ext.any fun e => decide (e.1 ≤ i) && decide (i < e.1 + e.2)

def formatMap (img : List Byte) : Option Where :=
  let b := sectionBytes img 5
  if (sectionOf img 5).isNone then none
  else
    let n := fieldAt b 0 4
    let ms := mapRecs img
    let head := 16 + 32 * n
    firstOf [badIf 5 0 (decide (n = 0 ∨ 256 < n ∨ b.length < head) || !allZero b 4 12),
      badAt 5 (recordsOf ((b.drop 16).take (32 * n)) 32) (fun r => !([1, 2, 5].contains (fieldAt r 3 1)) || !allZero r 24 8),
      badAt 5 ms (fun m => decide (3 < m.stack ∧ m.stack ≠ 0xFF) ||
        decide (m.initOfs = 0 ∧ m.initLen ≠ 0) ||
        (decide (m.initOfs ≠ 0) && decide (m.initOfs % 32 ≠ 0 ∨ m.initOfs < head ∨ b.length < m.initOfs + m.initLen ∨ m.bytes < m.initLen))),
      firstRepeat 5 (ms.map (·.region)),
      badIf 5 0 (!disjoint (ms.map fun m => (m.initOfs, m.initLen)) || !restZero b head (ms.map fun m => (m.initOfs, m.initLen)))]

def formatWins (img : List Byte) : Option Where :=
  let b := sectionBytes img 7
  if (sectionOf img 7).isNone then none
  else
    let n := fieldAt b 0 4
    let head := 16 + 32 * n
    let ws := winRecs img
    firstOf [badIf 7 0 (decide (n = 0 ∨ 1024 < n ∨ b.length < head) || !allZero b 4 12),
      badAt 7 (List.range n) (fun i => !allZero b (19 + 32 * i) 5),
      badAt 7 ws (fun r => decide (3 < r.k ∨ 63 < r.win) || (r.w.zip [55, 33, 25]).any (fun p => !hiZero p.1 p.2) || decide (r.d.mode = 4 ∧ 16 < r.d.per)),
      firstRepeat 7 (ws.map fun r => r.isle * 256 + r.k * 64 + r.win), badIf 7 0 (!restZero b head [])]

def formatGuards (img : List Byte) : Option Where :=
  let b := sectionBytes img 8
  let n := fieldAt b 0 2
  let ngr := (List.range 4).map fun k => fieldAt b (4 + 2 * k) 2
  let head := 16 + 32 * n + 8 * sumNat ngr
  firstOf [badIf 8 0 (decide (n = 0 ∨ 1024 < n ∨ b.length < head) || !allZero b 2 2 || !allZero b 12 4 ||
      ngr.any fun k => decide (1024 < k)),
    badAt 8 (recordsOf ((b.drop 16).take (32 * n)) 32) (fun r =>
      let nd := bits (fieldAt r 3 1) 2 0
      decide (1 < fieldAt r 2 1 ∨ 8 ≤ fieldAt r 3 1) || decide (fieldAt r 2 1 = 0 ∧ fieldAt r 4 1 ≠ 0) ||
        decide (fieldAt r 5 1 = 0 ∨ 16 < fieldAt r 5 1 ∨ 1023 < fieldAt r 6 2) ||
        (List.range 4).any (fun k => decide (nd ≤ k) && decide (fieldAt r (8 + 4 * k) 4 ≠ 0)) || !allZero r 25 7),
    firstRepeat 8 ((List.range n).map fun i => fieldAt b (16 + 32 * i) 2),
    badIf 8 0 ((words b (16 + 32 * n) (sumNat ngr)).any (fun w => !hiZero w 25) || !restZero b head [])]

def formatBudget (img : List Byte) : Option Where :=
  let b := sectionBytes img 9
  let n := fieldAt b 0 4
  let bs := budRecs img
  let ss := siteRecs img
  let key (i y x : Nat) : Nat := (i * 65536 + y) * 65536 + x
  firstOf [badIf 9 0 (decide (n ≠ ss.length ∨ b.length < 16 + 208 * n) || !allZero b 4 12),
    badAt 9 (List.range n) (fun i => let o := 16 + 208 * i; !allZero b (o + 5) 3 || !allZero b (o + 200) 8),
    badAt 9 bs (fun r => r.tiles.any (fun w => decide (2 ^ 9 ≤ w.toNat)) || !(ss.any fun s => decide (s.x = r.x ∧ s.y = r.y ∧ s.isle = r.isle))),
    firstRepeat 9 (bs.map fun r => key r.isle r.y r.x), badIf 9 0 (!restZero b (16 + 208 * n) [])]

/-! ### Causeway records (Table 11-5, R347) -/

/-- FP32 finite; positive and normal. -/
def fpFinite (w : W32) : Bool := decide (bits w.toNat 30 23 ≠ 255)
def fpPosNormal (w : W32) : Bool := fpFinite w && decide (1 ≤ bits w.toNat 30 23) && !bit w.toNat 31

/-- The slices of a role's queues cover ids 0 to V − 1, each once (R347). -/
def slicesCover (c : CwRec) (role : Nat) : Bool :=
  let s := ((c.inputs.filter fun q => q.1 = role).map fun q => (q.2.2.1, q.2.2.2)).mergeSort fun a b => a.1 ≤ b.1
  match s.foldl (fun (n : Option Nat) e => match n with | some k => if e.1 = k then some (k + e.2) else none | none => none) (some 0) with
  | some k => decide (k = c.v)
  | none => false

def cwBad (img : List Byte) (r : List Byte) : Bool :=
  let c := cwRecOf r
  let peers := (collRec img).elim 0 (·.peers.length)
  !(c.reducer || c.matcher) || decide (4 ≤ fieldAt r 1 1) || decide (19 < c.shT ∨ 19 < c.shS) ||
    decide (c.v < 16 ∨ 262144 < c.v ∨ c.v % 16 ≠ 0) || decide (c.k < 4 ∨ 256 < c.k ∨ c.k % 4 ≠ 0 ∨ c.v < c.k) ||
    decide (c.r = 0 ∨ 16384 < c.r) || !fpPosNormal c.invT || !fpFinite c.aT || !fpFinite c.b || !fpFinite c.gscale ||
    decide (15 < c.w ∨ c.kps = 0 ∨ 16 < c.nreg) || (c.matcher && decide (c.nreg = 0)) || (!c.matcher && decide (c.nreg ≠ 0)) ||
    decide (1 < fieldAt r 31 1 ∨ 2 < c.recDest) || (decide (c.recDest = 0) && !(c.reducer && c.matcher)) ||
    (decide (c.recDest = 2) && decide (peers ≤ c.peer)) || decide (63 < c.lroute) || !allZero r 38 10 ||
    (List.range 16).any (fun i => !allZero r (50 + 4 * i) 2) || (c.ring.take c.nreg).any (fun g => decide (35 < g.1 ∨ 15 < g.2)) ||
    c.inputs.any (fun q => decide (2 < q.1 ∨ 63 < q.2.1 ∨ q.2.2.1 % 16 ≠ 0 ∨ q.2.2.2 % 16 ≠ 0)) ||
    (List.range 32).any (fun q => !allZero r (114 + 16 * q) 6) ||
    (c.reducer && !slicesCover c 1) || (c.matcher && !slicesCover c 2) || c.routes.any (fun w => !hiZero w 25) || !allZero r 1136 16

def formatCauseway (img : List Byte) : Option Where :=
  firstOf [sizeBad 0xC 1152 (sectionBytes img 0xC), badAt 0xC (cwBytes img) (cwBad img),
    firstRepeat 0xC ((cwBytes img).map fun r => fieldAt r 0 1)]

/-! ### The serving section and its mask tables (R383, R400) -/

/-- n bytes of the initial contents at a plan address; past them a region holds zeros (R295). -/
def initBytes (img : List Byte) (pa n : Nat) : List Byte :=
  match mapOf (mapRecs img) pa with
  | some m => padTo n (((bytesAt (sectionBytes img 5) m.initOfs m.initLen).drop (paOff pa)).take n)
  | none => List.replicate n 0

/-- The runs of a mode 0 state ascend, do not overlap, end below V, and lead to states. -/
def runsBad (t : List Byte) (runs nst v r0 n : Nat) : Bool :=
  let rs := (List.range n).map fun i => fieldAt t (runs + 8 * (r0 + i)) 8
  rs.any (fun w => decide (2 ^ 56 ≤ w) || decide (nst ≤ bits w 55 36) || decide (v < bits w 17 0 + bits w 35 18 + 1)) ||
    (rs.zip (rs.drop 1)).any fun p => decide (bits p.2 17 0 < bits p.1 17 0 + bits p.1 35 18 + 1)

/-- An automaton table is bad. -/
def automatonBad (t : List Byte) (v : Nat) : Bool :=
  let nst := fieldAt t 0 4
  let nr := fieldAt t 4 4
  let runs := 64 + 16 * nst
  let fin := runs + 8 * nr
  decide (t.length < 64 ∨ nst = 0 ∨ 2 ^ 20 < nst ∨ fieldAt t 8 4 ≠ v ∨ t.length < fin) || !allZero t 12 52 ||
    (List.range nst).any fun i =>
      let w0 := fieldAt t (64 + 16 * i) 8
      let w1 := fieldAt t (72 + 16 * i) 8
      let mode := bits w0 49 48
      decide (2 ^ 51 ≤ w0 ∨ 2 ^ 52 ≤ w1 ∨ mode = 3) ||
        (decide (mode = 0) && (decide (nr < bits w0 31 0 + bits w0 47 32) || runsBad t runs nst v (bits w0 31 0) (bits w0 47 32))) ||
        (decide (mode = 1 ∨ mode = 2) && decide (nst ≤ bits w1 51 32)) ||
        (decide (mode = 1) && decide (bits w1 31 0 * 32 < fin ∨ t.length < bits w1 31 0 * 32 + ceilDiv v 256 * 32))

/-- A mask record is bad: its table lies in a region of kind 2 and has the form of its type. -/
def maskBad (img : List Byte) (v : Nat) (m : Nat × Nat × Nat) : Bool :=
  let (pa, ty, size) := m
  let ms := mapRecs img
  !paFits ms pa size || (mapOf ms pa).any (fun r => decide (r.kind ≠ 2)) || decide (ty = 0 ∨ 2 < ty) ||
    (decide (ty = 1) && decide (size ≠ ceilDiv v 256 * 32)) || (decide (ty = 2) && automatonBad (initBytes img pa size) v)

def formatServing (img : List Byte) : Option Where :=
  let b := sectionBytes img 0xD
  match sectionOf img 0xD with
  | none => none
  | some _ => match srvRec img with
    | none => some (0xD, 0)
    | some r =>
      firstOf [badIf 0xD 0 (decide (r.maxReq = 0 ∨ 262144 < r.maxReq ∨ r.maxCtx < 16 ∨ 1048576 < r.maxCtx ∨ r.maxCtx % 16 ≠ 0 ∨
          r.v < 16 ∨ 262144 < r.v ∨ r.v % 16 ≠ 0 ∨ r.budget < 16 ∨ 16384 < r.budget ∨ r.pchunk < 16 ∨ r.budget < r.pchunk ∨
          r.pchunk % 16 ≠ 0 ∨ r.inflight = 0 ∨ 4 < r.inflight ∨ r.kvg = 0 ∨ r.nme = 0 ∨ 4 < r.nme ∨ 64 < r.masks.length ∨
          r.idxLog2 < 10 ∨ 24 < r.idxLog2 ∨ r.nnodes = 0 ∨ 2 ^ 24 < r.nnodes ∨ b.length ≠ 128 + 8 * r.kvg + 16 * r.masks.length) ||
          !allZero b 27 1 || !allZero b 104 24 || (List.range 4).any (fun i => !allZero b (90 + 4 * i) 2) ||
          r.engines.any (fun e => decide (e.2 = 0 ∨ 32 < e.2 ∨ r.v % (16 * e.2) ≠ 0)) || !distinct (r.engines.map (·.1)) ||
          (List.range r.masks.length).any (fun i => !allZero b (128 + 8 * r.kvg + 16 * i + 9) 3) ||
          !((guardRecs img).any fun g => decide (g.id = r.guard ∧ g.maxes.getD 0 0 = r.budget))),
        (badAt 0xD r.masks (maskBad img r.v)).map fun w => (w.1, w.2 + 1)]

/-! ### The collectives section (Table 13-7) -/

def formatColl (img : List Byte) : Option Where :=
  let b := sectionBytes img 0xE
  match sectionOf img 0xE with
  | none => none
  | some _ => match collRec img with
    | none => some (0xE, 0)
    | some r =>
      let np := r.peers.length
      let o1 := 32 + 8 * np
      let o2 := o1 + 16 * r.outs.length
      let o3 := o2 + 16 * r.ins.length
      firstOf [badIf 0xE 0 (decide (np = 0 ∨ 64 < np ∨ 192 < r.outs.length ∨ 64 < r.ins.length ∨ 1024 < r.buckets.length ∨
          b.length ≠ o3 + 64 * r.buckets.length) || !allZero b 6 26),
        badAt 0xE (List.range np) (fun i => let o := 32 + 8 * i; decide (1 < fieldAt b o 1) || !allZero b (o + 1) 1 || !allZero b (o + 4) 4),
        (badAt 0xE (List.range r.outs.length) fun i =>
          let o := o1 + 16 * i
          decide (47 < fieldAt b (o + 1) 1 ∨ np ≤ fieldAt b (o + 2) 1 ∨ 62 < fieldAt b (o + 3) 1) || !allZero b (o + 4) 12).map
          fun w => (w.1, w.2 + np),
        (badAt 0xE (List.range r.ins.length) fun i =>
          let o := o2 + 16 * i
          decide (63 < fieldAt b o 1 ∨ fieldAt b (o + 2) 2 < 16 ∨ 8192 < fieldAt b (o + 2) 2 ∨ 2 ^ 25 ≤ fieldAt b (o + 4) 8) ||
            !allZero b (o + 1) 1 || !allZero b (o + 12) 4).map fun w => (w.1, w.2 + np + r.outs.length),
        ((badAt 0xE (List.range r.buckets.length) fun i =>
          let o := o3 + 64 * i
          let op := fieldAt b (o + 2) 1
          let alg := fieldAt b (o + 3) 1
          decide (op = 0 ∨ 4 < op ∨ 1 < alg ∨ fieldAt b (o + 5) 1 < 48 ∨ 61 < fieldAt b (o + 5) 1 ∨ fieldAt b (o + 24) 4 = 0 ∨
            2 ^ 25 ≤ fieldAt b (o + 28) 8) || (decide (op = 3) && !([0, 1, 0x10].contains (fieldAt b (o + 6) 1))) ||
            decide (1 < fieldAt b (o + 7) 1) || decide (fieldAt b (o + 7) 1 = 1 ∧ alg ≠ 1) || !allZero b (o + 48) 16).orElse fun _ =>
          firstRepeat 0xE (r.buckets.map (·.bucket))).map fun w => (w.1, w.2 + np + r.outs.length + r.ins.length)]

/-! ### Sections that the records need (Table 9-4, R293; assumption 135) -/

/-- The valid route entries of an image. -/
def validRoutes (img : List Byte) : List W64 :=
  let guards := (List.range 4).flatMap fun i => (List.range (fieldAt (sectionBytes img 8) (4 + 2 * i) 2)).map fun k =>
    BitVec.ofNat 64 (guardRoute img i k)
  ((siteRecs img).flatMap (fun r => r.desc.drop 112) ++ (reefRecs img).flatMap (fun r => r.chans.map (·.2)) ++
    (streamsRecs img).flatMap (·.routes) ++ (winRecs img).map (·.d.route) ++ guards ++ ((cwBytes img).map cwRecOf).flatMap (·.routes) ++
    (collRec img).elim [] fun c => c.ins.map (·.route) ++ c.buckets.map (·.croute)).filter fun e => e.getLsbD 23

/-- A route entry names an endpoint: `X` of it and indices, on a queue from q on. -/
def namesEnd (e : W64) (x : Nat) (y : Nat → Bool) (q : Nat) : Bool :=
  !e.getLsbD 22 && decide (bits e.toNat 8 2 = x) && y (bits e.toNat 15 9) && decide (q ≤ bits e.toNat 21 16)

/-- A link record names an endpoint as its consumer. -/
def LinkRec.names (l : LinkRec) (x : Nat) (y : Nat → Bool) (q : Nat) : Bool := decide (l.cx = x) && y l.cy && decide (q ≤ l.cq)

/-- A section on which records of an image rely is absent. -/
def sectionMissing (img : List Byte) : Bool :=
  let rs := validRoutes img
  let ls := linkRecs img
  let to_ (x : Nat) (y : Nat → Bool) (q : Nat) : Bool := rs.any (namesEnd · x y q) || ls.any (·.names x y q)
  let streams := (streamsRecs img).flatMap (·.streams)
  let runs (z : StreamRec) : Bool := decide (bits (z.words.getD 0 0).toNat 57 56 ≠ 0)
  let pooled (z : StreamRec) : Bool := decide (bits (z.words.getD 0 0).toNat 57 56 % 2 = 1)
  let absent (ty : Nat) : Bool := (sectionOf img ty).isNone
  (absent 3 && (to_ 0x60 (fun _ => true) 0 || rs.any (·.getLsbD 22) || ls.any (fun l => decide (l.ptype = 2)) || streams.any pooled ||
      (epochRecs img).any fun e => decide (e.rtype = 3))) ||
    (absent 4 && ls.any fun l => decide (l.ptype = 1)) ||
    (absent 5 && (streams.any runs || (winRecs img).any (fun w => decide (w.d.mode ≠ 0)) || (epochRecs img).any (fun e => decide (e.rtype = 3)) ||
      (srvRec img).isSome || (collRec img).any fun c => !c.buckets.isEmpty)) ||
    (absent 6 && (streams.any runs || to_ 0x60 (fun _ => true) 62)) ||
    (absent 7 && (to_ 0x61 (fun y => decide (y < 4)) 0 || ls.any fun l => decide (l.ptype = 3))) ||
    (absent 0xD && to_ 0x61 (fun y => decide (y = 7)) 0) || (absent 0xE && to_ 0x61 (fun y => decide (y = 4)) 0)

/-- Check 1 (Table 9-11). -/
def checkFormat (img : List Byte) : Option Where :=
  if headerBad img then some (0, 0)
  else firstOf [formatStages img, formatSites img, formatReefs img, formatStreams img, formatMap img, formatSems img, formatWins img,
    formatGuards img, formatBudget img, formatLinks img, formatEpochs img, formatCauseway img, formatServing img, formatColl img, badIf 0 0 (sectionMissing img)]

end Sys2Proof.Machine
end

