-- ==== Sys2Proof/Machine/CountWalk.lean ====
section
/-! DEFINITION. Checks of the loader on site programs and links: setup paths (R619), the count walk (R301), the count check
(R302) and the depth check (R303). Sites, queues and links stand in the plan frame. -/
namespace Sys2Proof.Machine

/-! ### Paths through a program (R301, R619) -/

/-- What a path knows of a register: an `li` constant, the count of a loop in progress, or nothing. -/
inductive Known where
  | no | li (v : Nat) | loop (pc v : Nat)
  deriving DecidableEq, Repr

/-- A send of a path: route entry, tag offset, `KIND`, `SEQ`, and `SEQ` from a register. -/
structure SendEv where
  route : Nat
  tagd : Int
  kind : Nat
  seq : Nat
  seqr : Bool
  deriving DecidableEq, Repr

/-- What a path has met. -/
structure PathSt where
  pc : Nat := 0
  regs : Map Known := []
  /-- tokens read of each queue -/
  reads : Map Nat := []
  sends : List SendEv := []
  /-- loop entries: address of the `dbnz`, its count -/
  entries : List (Nat × Nat) := []
  /-- `setctr`: address, trigger, constant -/
  ctrs : List (Nat × Nat × Option Nat) := []
  deriving DecidableEq, Repr

/-- A path's end: broken, or what it met. -/
abbrev PathEnd := Option PathSt

/-- The meaning of an opcode. -/
def instrOf : Nat → Option (SRun → Nat → SOut)
  | 0x00 => some fun r _ => r.done
  | 0x01 => some iEnd
  | 0x02 => some iArm
  | 0x03 => some iBr
  | 0x04 => some iDbnz
  | 0x05 => some iRdst
  | 0x06 => some iClrst
  | 0x07 => some iSetctr
  | 0x08 => some iSop
  | 0x09 => some iSopi
  | 0x0A => some iLi
  | 0x0B => some iTagr
  | 0x0C => some iLd
  | 0x0D => some iSt
  | 0x0E => some iAgrst
  | 0x10 => some iVop
  | 0x11 => some iVtr
  | 0x12 => some iVld
  | 0x13 => some iVpack
  | 0x14 => some iVmx
  | 0x15 => some iVhred
  | 0x16 => some iVperm
  | 0x17 => some iVmov
  | 0x20 => some iMma
  | 0x21 => some iTclr
  | 0x22 => some iTmov
  | 0x23 => some iAadep
  | 0x24 => some iAacmb
  | 0x25 => some iAacvt
  | 0x26 => some iAaclr
  | 0x30 => some iSend
  | _ => none

/-- A site as a record describes it, for reading its descriptors. -/
def SiteRec.site (r : SiteRec) : Site := { work := mputs 0 [] 0 r.desc }

/-- An instruction is illegal whatever its data (section 5.9). -/
def SiteRec.illegal (r : SiteRec) (setup : Bool) (w : Nat) : Bool :=
  match opFields (bits w 63 58), instrOf (bits w 63 58) with
  | some fs, some f => !reservedZero w fs ||
    (match f { x := r.site, c := {}, setup := setup, env := {} } w with
     | .stop _ code none => decide (code = 0x200B)
     | _ => false)
  | _, _ => true

/-- Scalar register that an instruction writes, other than `li` and `dbnz`. -/
def writtenReg (w : Nat) : Option Nat :=
  let op := bits w 63 58
  if [5, 8, 9, 0xB, 0xC].contains op then some (bits w 57 54)
  else if op = 0x17 ∧ ¬ bit w 46 then some (bits w 54 51) else none

/-- Tokens that an instruction reads of each queue (R301); a `send` of an empty token has no source (R157). -/
def tokensRead (w : Nat) : List (Nat × Nat) :=
  let q (sel n : Nat) : List (Nat × Nat) := if selQueue sel then [(sel % 64, n)] else []
  match bits w 63 58 with
  | 0x20 => q (bits w 51 44) (bits w 25 16 + 1) ++ q (bits w 43 36) (bits w 25 16 + 1)
  | 0x12 => q (bits w 53 46) (if fmtWidth (bits w 45 41) = 32 then 2 else 1)
  | 0x24 => q (bits w 50 43) 1
  | 0x30 => if bits w 57 54 ≠ 4 then q (bits w 53 46) 1 else []
  | _ => []

/-- A register is written: a context's write of a shared register is discarded (R102). -/
def PathSt.setReg (p : PathSt) (setup : Bool) (i : Nat) (v : Known) : PathSt :=
  if ¬ setup ∧ i < 8 then p else { p with regs := mput .no p.regs i v }

/-- Every path from an address, to `end`, or in setup code to `arm`, of at most `fuel` instructions. -/
def SiteRec.paths (r : SiteRec) (setup : Bool) : Nat → PathSt → List PathEnd
  | 0, _ => [none]
  | n + 1, p =>
    if 1024 ≤ p.pc then [none]
    else
      let w := (r.prog.getD p.pc 0).toNat
      let tgt := bits w 9 0
      let next : PathSt := { p with pc := p.pc + 1 }
      if r.illegal setup w then [none]
      else match bits w 63 58 with
        | 0x01 => [some p]
        | 0x02 => if setup then [some p] else r.paths setup n next
        | 0x03 =>
          if tgt ≤ p.pc then [none]
          else if bits w 49 47 = 0 then r.paths setup n { p with pc := tgt }
          else r.paths setup n { p with pc := tgt } ++ r.paths setup n next
        | 0x04 =>
          let i := bits w 57 54
          if p.pc < tgt then
            r.paths setup n ({ p with pc := tgt }.setReg setup i .no) ++ r.paths setup n (next.setReg setup i .no)
          else
            let go (v : Nat) (q : PathSt) : List PathEnd :=
              if (v + 2 ^ 32 - 1) % 2 ^ 32 = 0 then r.paths setup n (q.setReg setup i .no)
              else r.paths setup n ({ q with pc := tgt }.setReg setup i (.loop p.pc ((v + 2 ^ 32 - 1) % 2 ^ 32)))
            match mget .no p.regs i with
            | .li v => go v { next with entries := p.entries ++ [(p.pc, v)] }
            | .loop pc v => if pc = p.pc then go v next else [none]
            | .no => [none]
        | 0x0A => r.paths setup n (next.setReg setup (bits w 57 54) (.li (bits w 31 0)))
        | 0x07 =>
          let v := match mget .no p.regs (bits w 52 49) with | .li v => some (v % 2 ^ 20) | _ => none
          r.paths setup n { next with ctrs := p.ctrs ++ [(p.pc, bits w 57 53, v)] }
        | _ =>
          let q := (tokensRead w).foldl (fun (q : PathSt) e => { q with reads := mput 0 q.reads e.1 (mget 0 q.reads e.1 + e.2) }) next
          let q := if bits w 63 58 = 0x30 then
              { q with sends := q.sends ++ [⟨bits w 45 40, ofTwos 8 (bits w 39 32), bits w 57 54, bits w 26 17, bit w 31⟩] } else q
          r.paths setup n (match writtenReg w with | some i => q.setReg setup i .no | none => q)

/-- The paths from an address; none when a path is broken, there are over 4,096, or a loop's count is no one constant
(R301, R619). -/
def SiteRec.walk (r : SiteRec) (setup : Bool) (pc : Nat) : Option (List PathSt) :=
  let ps := r.paths setup 65536 { pc := pc }
  let ok : List PathSt := ps.filterMap fun p => p
  let es : List (Nat × Nat) := ok.flatMap (·.entries)
  let one : Bool := es.all fun a => es.all fun b => decide (a.1 ≠ b.1) || decide (a.2 = b.2)
  if decide (ok.length = ps.length ∧ ps.length ≤ 4096) && one then some ok else none

/-- The part of check 6 on setup code: R619, and no `send` or queue read there. -/
def SiteRec.setupBad (r : SiteRec) : Bool :=
  match r.walk true 0 with
  | none => true
  | some ps => ps.any fun p => !p.sends.isEmpty || !p.reads.isEmpty

/-- The constant that setup code gives a trigger's start counter (R302): the last `setctr` of the trigger on every path, each
with the same known constant. -/
def SiteRec.setCtr (r : SiteRec) (k : Nat) : Option Nat :=
  let ps := (r.walk true 0).getD []
  let known (pc : Nat) : Option Nat :=
    match ((ps.flatMap (·.ctrs)).filter fun c => c.1 = pc).map (·.2.2) with
    | some v :: l => if l.all (· = some v) then some v else none
    | _ => none
  match ps.map fun p => ((p.ctrs.filter fun c => c.2.1 = k).getLast?).bind fun c => known c.1 with
  | some v :: l => if l.all (· = some v) then some v else none
  | _ => none

/-! ### Tallies of a trigger (R301) -/

/-- A path's sends[e]: the count of its sends through each route entry that it uses. -/
def tallies (l : List SendEv) : List (Nat × Nat) :=
  (List.range 64).filterMap fun e =>
    let n := (l.filter fun s => decide (s.route = e)).length
    if n = 0 then none else some (e, n)

/-- An armed trigger of a plan site: its record, its number, its entry, and one PC path's sends and reads. -/
structure Fires where
  recNo : Nat
  isle : Nat
  x : Nat
  y : Nat
  trig : Nat
  d : TrigDesc
  start : Nat
  sends : List SendEv
  reads : Map Nat
  deriving DecidableEq, Repr

/-- The count walk of a trigger; none when it fails. -/
def SiteRec.countWalk (r : SiteRec) (d : TrigDesc) : Option PathSt :=
  match r.walk false d.pc, r.walk false d.epc with
  | some (p :: ps), some es =>
    let same := ps.all fun q => decide (tallies q.sends = tallies p.sends ∧ q.reads = p.reads)
    let empties := es.all fun q => q.sends.all (fun s => decide (s.kind = 4)) && q.reads.isEmpty &&
      decide (tallies q.sends = (tallies p.sends).map fun e => (e.1, 1))
    if same ∧ empties then some p else none
  | _, _ => none

/-- Every armed trigger of the plan, or the site record whose count walk or starting counter fails. -/
def firings (img : List Byte) : List (Except Nat Fires) :=
  let es := epochRecs img
  ((siteRecs img).zipIdx).flatMap fun (r, i) => (List.range 32).filterMap fun k =>
    let d := trigOf (r.trigs.getD k 0).toNat
    if ¬ d.en then none
    else
      let ctr0 := (es.find? fun e => decide (e.rtype = 2 ∧ e.isle = r.isle ∧ e.x = r.x ∧ e.y = r.y ∧ e.trig = k)).map (·.ctr0 % 2 ^ 20)
      match r.countWalk d, (r.setCtr k).orElse fun _ => ctr0 with
      | some p, some c =>
        some (.ok { recNo := i, isle := r.isle, x := r.x, y := r.y, trig := k, d := d, start := c, sends := p.sends, reads := p.reads })
      | _, _ => some (.error i)

/-! ### The count check (R302) -/

/-- Difference of two tags, signed (section 5.2). -/
def tagDiff (a b : Nat) : Int := ofTwos 20 ((a + 2 ^ 20 - b % 2 ^ 20) % 2 ^ 20)

/-- A trigger fires on the tag that lies T after tag c. -/
def Fires.firesOn (f : Fires) (c : Nat) (T : Int) : Bool :=
  let x := T - tagDiff f.start c
  decide (0 ≤ x) && decide (x % (max 1 f.d.step : Nat) = 0)

/-- Blocks of a stream whose effective tag lies T after tag c (R269); without end when an endless stream repeats a tag. -/
def StreamRec.blocksOn (s : StreamRec) (c : Nat) (T : Int) : Nat :=
  let loops := bits (s.words.getD 3 0).toNat 15 0
  let tpl := bits (s.words.getD 3 0).toNat 51 32
  sumNat (s.blocks.map fun b =>
    let x := T - tagDiff (bits (b.getD 2 0).toNat 35 16) c
    if tpl = 0 then (if x = 0 then (if loops = 0 then 2 ^ 33 else loops) else 0)
    else if 0 ≤ x ∧ x % (tpl : Int) = 0 ∧ (loops = 0 ∨ x / (tpl : Int) < (loops : Int)) then 1 else 0)

/-- The stream that a link of type 1 names. -/
def linkStream (img : List Byte) (l : LinkRec) : Option StreamRec :=
  ((streamsRecs img).filter fun s => s.isle = l.pisle).findSome? fun s => s.streams.find? fun r => r.sid = l.ptrig

/-- The trigger that a link of type 0 names. -/
def linkTrig (fs : List Fires) (l : LinkRec) : Option Fires :=
  if l.ptype = 0 then fs.find? fun f => decide (f.isle = l.pisle ∧ f.x = l.px ∧ f.y = l.py ∧ f.trig = l.ptrig) else none

/-- Tokens that a link delivers on the tag that lies T after tag c, counting those of its sends that p picks. -/
def linkOn (img : List Byte) (fs : List Fires) (c : Nat) (T : Int) (p : SendEv → Bool) (l : LinkRec) : Nat :=
  if l.ptype = 0 then
    match linkTrig fs l with
    | some f => (f.sends.filter fun s => decide (s.route = l.proute) && p s && f.firesOn c (T - s.tagd)).length
    | none => 0
  else if l.ptype = 1 then
    match linkStream img l with
    | some s => l.tokens * s.blocksOn c T
    | none => 0
  else l.tokens

/-- Queue of a site of the plan, as a link's consumer. -/
def LinkRec.into (l : LinkRec) (isle x y q : Nat) : Bool := decide (l.cisle = isle ∧ l.cx = x ∧ l.cy = y ∧ l.cq = q)

/-- Targets of a multicast group of the plan, as named by a route entry: site order and queue. -/
def groupTargets (img : List Byte) (isle group : Nat) : List (Nat × Nat) :=
  match (reefRecs img).find? fun r => decide (r.isle = isle ∧ r.reef = bits group 13 8) with
  | some r => r.groups.getD (bits group 7 0) []
  | none => []

/-- The consumer of a link is the queue that the route entry names (R302, rule 1). -/
def routeTo (img : List Byte) (e : W64) (l : LinkRec) : Bool :=
  let n := e.toNat
  bit n 23 && decide (bits n 1 0 = l.cisle) &&
    (if bit n 22 then (groupTargets img (bits n 1 0) (bits n 15 2)).contains (l.cy * 96 + l.cx, l.cq) && decide (l.cx < 96)
     else decide (bits n 8 2 = l.cx ∧ bits n 15 9 = l.cy ∧ bits n 21 16 = l.cq))

/-- The sends of a trigger through a route entry reach, as clear tokens, a mode 4 window over a range that covers a window
(R249). -/
def SiteRec.clears (r : SiteRec) (img : List Byte) (trig route : Nat) (w : WinImg) : Bool :=
  let e := (r.desc.getD (112 + route) 0).toNat
  let ps := (r.walk false (trigOf (r.trigs.getD trig 0).toNat).pc).getD []
  bit e 23 && !bit e 22 && decide (bits e 8 2 = 0x61 ∧ route < 64) && ps.any (·.sends.any fun s => decide (s.route = route ∧ s.kind = 0)) &&
    (winRecs img).any fun v =>
      decide (v.isle = bits e 1 0 ∧ v.k = bits e 15 9 ∧ v.win = bits e 21 16 ∧ v.d.mode = 4 ∧ v.d.region = w.region) &&
        decide (v.d.off ≤ w.off) && decide (w.off + w.bytes ≤ v.d.off + v.d.bytes)

/-- A `CLEAR` link from a site trigger names the window that its clear tokens clear. -/
def clearTokens (img : List Byte) (l : LinkRec) (w : WinImg) : Bool :=
  decide (l.ptype = 0) && (siteRecs img).any fun r => decide (r.isle = l.pisle ∧ r.x = l.px ∧ r.y = l.py) && r.clears img l.ptrig l.proute w

/-- The window that a link names as its consumer. -/
def LinkRec.window (l : LinkRec) (img : List Byte) : Option WinRec :=
  if l.cx = 0x61 then (winRecs img).find? fun r => decide (r.isle = l.cisle ∧ r.k = l.cy ∧ r.win = l.cq) else none

/-- Rule 1. A `CLEAR` link may name the window that it clears while its sends go to a mode 4 window that covers it (R249). -/
def rule1Bad (img : List Byte) (fs : List Fires) (l : LinkRec) : Bool :=
  decide (l.ptype = 0) &&
    (match linkTrig fs l with
     | none => true
     | some f =>
       let e := ((siteRecs img)[f.recNo]?).elim 0 fun r => r.desc.getD (112 + l.proute) 0
       decide ((f.sends.filter fun s => s.route = l.proute).length ≠ l.tokens) || decide (63 < l.proute) ||
         !(routeTo img e l || (l.clear && (l.window img).any fun r => clearTokens img l r.d)))

/-- Rules 2 and 3 on one operand queue of a consumer: the first 65,536 tags on which it fires. -/
def operandBad (img : List Byte) (fs : List Fires) (ls : List LinkRec) (d : QDesc) (f : Fires) (q : Nat) : Bool :=
  let into := ls.filter fun l => l.into f.isle f.x f.y q
  let reads := mget 0 f.reads q
  let byField := into.all fun l => decide (l.ptype = 0) &&
    (match linkTrig fs l with | some p => (p.sends.filter fun s => s.route = l.proute).all fun s => !s.seqr | none => true)
  (List.range 65536).any fun n =>
    let T : Int := (n * f.d.step : Nat)
    let sum (p : SendEv → Bool) : Nat := sumNat (into.map (linkOn img fs f.start T p))
    if d.mode ≠ 3 then decide (sum (fun _ => true) ≠ reads)
    else if byField then
      let p := max 1 d.per
      (List.range p).any fun e => decide (sum (fun s => s.seq % p = e) ≠ d.expect * ((reads + p - 1 - e) / p))
    else decide (sum (fun _ => true) ≠ d.expect * reads)

/-- Rule 4 on one operand queue. -/
def lcmBad (fs : List Fires) (ls : List LinkRec) (f : Fires) (q : Nat) : Bool :=
  let steps := (ls.filter fun l => l.into f.isle f.x f.y q).filterMap fun l => (linkTrig fs l).map (·.d.step)
  decide (65536 < steps.foldl Nat.lcm (max 1 f.d.step))

/-- Check 9. -/
def checkCounts (img : List Byte) : Option Where :=
  let all := firings img
  let fs := all.filterMap fun e => match e with | .ok f => some f | .error _ => none
  let ls := linkRecs img
  let ss := siteRecs img
  firstOf [(all.findSome? fun e => match e with | .error i => some i | .ok _ => none).map fun i => (2, i),
    badAt 0xA ls (rule1Bad img fs),
    fs.findSome? fun f => badIf 2 f.recNo (f.d.opq.any fun q =>
      operandBad img fs ls (qDescOf (((ss[f.recNo]?).elim 0 fun r => r.desc.getD q 0)).toNat) f q || lcmBad fs ls f q)]

/-! ### The depth check (R138, R303) -/

/-- A node of a path: an armed trigger by its place among the firings, or a unit other than a site by isle, kind, number and
queue. -/
inductive PNode where
  | trig (i : Nat)
  | unit (isle x y q : Nat)
  deriving DecidableEq, Repr

/-- A step of a path: the link, and the node it leads to. -/
structure PEdge where
  link : LinkRec
  to_ : PNode
  deriving DecidableEq, Repr

/-- The node that consumes at a link's end. -/
def linkEnd (fs : List Fires) (l : LinkRec) : Option PNode :=
  if l.cx < 96 then
    (fs.findIdx? fun f => decide (f.isle = l.cisle ∧ f.x = l.cx ∧ f.y = l.cy) && f.d.opq.contains l.cq).map .trig
  else some (.unit l.cisle l.cx l.cy (if l.cx = 0x61 ∧ 4 ≤ l.cy ∧ l.cy ≠ 9 then 0 else l.cq))

/-- The node from which a link comes; that of a stream is the stream arbiter's endpoint and the stream. Guards have no input link. -/
def linkStart (fs : List Fires) (l : LinkRec) : Option PNode :=
  match l.ptype with
  | 0 => (fs.findIdx? fun f => decide (f.isle = l.pisle ∧ f.x = l.px ∧ f.y = l.py ∧ f.trig = l.ptrig)).map .trig
  | 1 => some (.unit l.pisle 0x61 9 l.ptrig)
  | 2 => some (.unit l.pisle 0x60 l.px l.ptrig)
  | 3 => some (.unit l.pisle 0x61 l.px l.ptrig)
  | 5 => some (.unit l.pisle 0x61 l.px 0)
  | _ => none

/-- A channel's window stands in the pool of a stream of its reef. -/
def poolMeets (c : W64 × W64) (z : StreamRec) (reef mode : Nat) : Bool :=
  let w := z.words.getD 1 0
  let n := c.1.toNat
  let a := bits n 15 0 * 64
  let p := bits w.toNat 33 18 * 64
  decide (bits n 17 16 = mode) && decide (bits w.toNat 17 12 = reef) &&
    decide (a < p + (bits w.toNat 41 34 + 1) * (bits w.toNat 51 42 + 1) * 256) && decide (p < a + (bits n 24 18 + 1) * (bits n 35 25 + 1) * 32)

/-- Where tokens pass between a lagoon channel and a stream through the stream's pool: a write window to a `DIR` 3 stream, a
`DIR` 1 stream to a read window (assumption 136). -/
def poolEdges (img : List Byte) : List (PNode × PEdge) :=
  let none_ : LinkRec := ⟨5, 0, 0, 0, 0, 0, 0, false, false, 0, 0, 0, 1, 0⟩
  (streamsRecs img).flatMap fun s => s.streams.flatMap fun z => (reefRecs img).flatMap fun r =>
    if r.isle ≠ s.isle then []
    else (r.chans.zipIdx).filterMap fun (c, q) =>
      let chan : PNode := .unit r.isle 0x60 r.reef q
      let strm : PNode := .unit s.isle 0x61 9 z.sid
      let dir := bits (z.words.getD 0 0).toNat 57 56
      if dir = 3 ∧ poolMeets c z r.reef 1 then some (chan, ⟨none_, strm⟩)
      else if dir = 1 ∧ poolMeets c z r.reef 2 then
        some (strm, ⟨{ none_ with depth := ((linkRecs img).find? fun l => decide (l.ptype = 1 ∧ l.pisle = s.isle ∧ l.ptrig = z.sid)).elim 0 (·.depth) }, chan⟩)
      else none

/-- Edges of the plan's graph: the links that are not feedback, and the passages through pools. -/
def planEdges (img : List Byte) (fs : List Fires) (ls : List LinkRec) : List (PNode × PEdge) :=
  (ls.filterMap fun l => if l.feedback then none else
    match linkStart fs l, linkEnd fs l with
    | some a, some b => some (a, ⟨l, b⟩)
    | _, _ => none) ++ poolEdges img

/-- Every path of at least one and at most `fuel` edges from a node. -/
def pathsFrom (es : List (PNode × PEdge)) : Nat → PNode → List (List PEdge)
  | 0, _ => []
  | n + 1, v => (es.filter fun e => e.1 = v).flatMap fun e => [e.2] :: (pathsFrom es n e.2.to_).map (e.2 :: ·)

/-- Capacity of a queue of a plan site in tokens, its spill ring included (R303, R313). -/
def queueCap (img : List Byte) (r : SiteRec) (q : Nat) : Nat :=
  let d := qDescOf (r.desc.getD q 0).toNat
  let e := (r.desc.getD (112 + q) 0).toNat
  d.slots * d.per + (if d.spill then
    match (reefRecs img).find? fun f => decide (f.isle = bits e 1 0 ∧ f.reef = bits e 15 9) with
    | some f => spillCap (f.chans.getD (bits e 21 16) (0, 0)).1.toNat
    | none => 0 else 0)

/-- The holding of a path (R303): its intermediate triggers, their queues, and its intermediate non-site producers. -/
def holding (img : List Byte) (fs : List Fires) (p : List PEdge) : Nat :=
  let mid := p.dropLast
  let next := p.drop 1
  sumNat ((mid.zip next).map fun (e, n) =>
    match e.to_ with
    | .trig i =>
      match fs[i]? with
      | some f => f.d.limit + ((siteRecs img)[f.recNo]?).elim 0 fun r => queueCap img r e.link.cq / max 1 e.link.tokens
      | none => 0
    | .unit .. => n.link.depth)

/-- `LIMIT` + 1 of the producer of a path's last link, or its `DEPTH`. -/
def lastHold (fs : List Fires) (l : LinkRec) : Nat := match linkTrig fs l with | some f => f.d.limit | none => l.depth

/-- Two paths a and b into different queues of a join: the queue of a is too shallow. -/
def shallow (img : List Byte) (fs : List Fires) (j : Fires) (a b : List PEdge) : Bool :=
  match a.getLast? with
  | none => false
  | some e =>
    let cap := ((siteRecs img)[j.recNo]?).elim 0 fun r => queueCap img r e.link.cq
    decide (cap < e.link.tokens * (j.d.limit + lastHold fs e.link + (holding img fs b - holding img fs a)))

/-- Triggers that a path passes through between its ends. -/
def midTrigs (p : List PEdge) : Nat := (p.dropLast.filter fun e => match e.to_ with | .trig _ => true | _ => false).length

/-- The depth check from one fork trigger. -/
def forkBad (img : List Byte) (fs : List Fires) (es : List (PNode × PEdge)) (fork : Nat) : Bool :=
  let ps := pathsFrom es (es.length + 1) (.trig fork)
  decide (65536 < ps.length) || ps.any (fun p => decide (es.length < p.length)) ||
    (fs.zipIdx.any fun (j, i) =>
      let mine := ps.filter fun p => decide (p.getLast?.map (·.to_) = some (.trig i))
      let q (p : List PEdge) : Nat := p.getLast?.elim 0 (·.link.cq)
      let pairs := mine.flatMap fun a => (mine.filter fun b => decide (q a < q b)).map fun b => (a, b)
      decide (4096 < pairs.length) ||
        pairs.any fun (a, b) => decide (1024 < midTrigs a ∨ 1024 < midTrigs b) || shallow img fs j a b || shallow img fs j b a)

/-- The slot rule of R138 on an operand queue. -/
def slotsBad (fs : List Fires) (ls : List LinkRec) (d : QDesc) (f : Fires) (q : Nat) : Bool :=
  let prod := ((ls.filter fun l => l.into f.isle f.x f.y q).filterMap fun l => (linkTrig fs l).map (·.d.limit)).foldl max 0
  decide (d.mode = 2 ∨ d.mode = 3) && decide (d.slots < f.d.limit + prod)

/-- Check 10. -/
def checkDepths (img : List Byte) : Option Where :=
  let fs := (firings img).filterMap fun e => match e with | .ok f => some f | .error _ => none
  let ls := linkRecs img
  let es := planEdges img fs ls
  let ss := siteRecs img
  firstOf [fs.findSome? fun f => badIf 2 f.recNo (f.d.opq.any fun q =>
      slotsBad fs ls (qDescOf ((ss[f.recNo]?).elim 0 fun r => r.desc.getD q 0).toNat) f q),
    fs.zipIdx.findSome? fun (f, i) => badIf 2 f.recNo (forkBad img fs es i)]

end Sys2Proof.Machine
end

