-- ==== Sys2Proof/Machine/Loader.lean ====
section
/-! DEFINITION. The loader's checks on a translated image other than format, counts and depths (Table 9-11), the allocation
of its HBM regions (R295), and the end of a plan fetch (R299, R515, R516). -/
namespace Sys2Proof.Machine

/-- Two ranges (start, length) overlap. -/
def rangesMeet (a b : Nat × Nat) : Bool := decide (a.1 < b.1 + b.2) && decide (b.1 < a.1 + a.2) && decide (0 < a.2) && decide (0 < b.2)

/-! ### Check 2 (R291) -/

/-- Bytes that the plan signature covers. -/
def signedBytes (img : List Byte) : List Byte := img.take (img.length - 256)

/-- The plan measurement, a key registered to the image's `SLOT`, and the signature. -/
def Dev.checkSignature (d : Dev) (img : List Byte) (sigOk : Bool) : Option Where :=
  let n := fieldAt img 24 1
  let keys := (List.range 8).filterMap fun k =>
    let v := d.obj (0x3002 + 0x10 * n) (k + 1)
    if emptyKey v then none else some (Config.sha384 v)
  badIf 0 0 (decide (bytesAt img (img.length - 256) 48 ≠ Config.sha384 (signedBytes img)) || !keys.contains (bytesAt img 32 48) || !sigOk)

/-! ### Check 3 (R296, R435 to R437, R239, R344, R419) -/

/-- An isle that the header does not use. -/
def isleBad (img : List Byte) (i : Nat) : Bool := !(decide (i < 4) && bit (fieldAt img 25 1) i)

/-- Every record that names a plan isle names one in use (R296). -/
def checkIsles (img : List Byte) : Option Where :=
  let bad := isleBad img
  firstOf [badAt 1 (stageRecs img) (fun r => bad r.isle), badAt 2 (siteRecs img) (fun r => bad r.isle),
    badAt 3 (reefRecs img) (fun r => bad r.isle), badAt 4 (streamsRecs img) (fun r => bad r.isle),
    badAt 5 (mapRecs img) (fun r => bad r.isle), badAt 6 (semRecs img) (fun r => bad r.isle), badAt 7 (winRecs img) (fun r => bad r.isle),
    badAt 8 (guardRecs img) (fun r => bad r.isle), badAt 9 (budRecs img) (fun r => bad r.isle),
    badAt 0xA (linkRecs img) (fun r => bad r.pisle || bad r.cisle), badAt 0xB (epochRecs img) (fun r => bad r.isle),
    badAt 0xC ((cwBytes img).map cwRecOf) (fun r => bad r.isle || (decide (r.recDest = 1) && bad r.recIsle)),
    (srvRec img).bind fun r => badIf 0xD 0 (r.engines.any fun e => bad e.1),
    (collRec img).bind fun r => firstOf [(badAt 0xE r.outs fun o => bad o.isle).map fun w => (w.1, w.2 + r.peers.length),
      (badAt 0xE r.buckets fun b => bad b.isle).map fun w => (w.1, w.2 + r.peers.length + r.outs.length + r.ins.length)]]

/-- Stages, sites and planes (R296). -/
def checkStages (img : List Byte) : Option Where :=
  let st := stageRecs img
  let ss := siteRecs img
  let distill := bit (fieldAt img 6 2) 1
  firstOf [firstRepeat 1 (st.map (·.stage)),
    badAt 1 st (fun s => decide ((s.part ≠ 0) ≠ distill) ||
      s.planes.any fun n => !([n, n + 1, n + 6, n + 7].all s.reefs.contains) || decide (n % 6 = 5 ∨ n / 6 = 5)),
    badIf 1 0 (decide ((st.filter (·.jobTide)).length ≠ 1)),
    badAt 2 ss (fun r => !(st.any fun s => decide (s.stage = r.stage ∧ s.isle = r.isle) && s.reefs.contains (r.y / 16 * 6 + r.x / 16))),
    firstRepeat 2 (ss.map fun r => (r.isle * 65536 + r.y) * 65536 + r.x)]

/-- Reefs that a load would add to what the slot holds (R435). -/
def Dev.addedReefs (d : Dev) (j n : Nat) (part : List Nat) : Nat :=
  match d.groupOf j with
  | none => part.length
  | some g =>
    let other := (d.jobsOf n).any fun i => decide (i ≠ j ∧ d.groupOf i = some g) && !(d.job i).reefs.isEmpty
    if other then 0 else if (d.group g).reefs.isEmpty then part.length else (d.group g).reefs.length

/-- Other jobs that hold a plan. -/
def Dev.otherPlans (d : Dev) (j : Nat) : List Plan := d.jobs.filterMap fun (i, b) => if i = j then none else b.plan

/-- Controller windows of a plan on the device: stack × 64 + window. -/
def Plan.windowIds (p : Plan) : List Nat := (winRecs p.image).map fun r => (rotIsle p.rho r.isle * 4 + r.k) * 64 + r.win

/-- U0 queues of a plan on the device: isle × 64 + queue. -/
def Plan.u0Queues (p : Plan) : List Nat :=
  match collRec p.image with
  | some r => (r.outs.map fun o => rotIsle p.rho o.isle * 64 + o.queue) ++ (r.buckets.map fun b => rotIsle p.rho b.isle * 64 + b.cmdq)
  | none => []

/-- A stage of the teacher partition. -/
def teacherStage (img : List Byte) (id : Nat) : Bool := (stageRecs img).any fun s => decide (s.stage = id ∧ s.part = 1)

/-- Pool of a stream of the image: reef, first byte, bytes. -/
def StreamRec.pool (s : StreamRec) : Nat × Nat × Nat :=
  let w := (s.words.getD 1 0).toNat
  (bits w 17 12, bits w 33 18 * 64, (bits w 41 34 + 1) * (bits w 51 42 + 1) * 256)
def StreamRec.dir (s : StreamRec) : Nat := bits (s.words.getD 0 0).toNat 57 56

/-- Window of a channel of the image: first byte, bytes, mode. -/
def chanWin (c : W64 × W64) : Nat × Nat × Nat :=
  let w := c.1.toNat
  (bits w 15 0 * 64, (bits w 24 18 + 1) * (bits w 35 25 + 1) * 32, bits w 17 16)

/-- A route entry of a site writes where the teacher partition may not: a write or AU window, or the pool of a `DIR` 3 stream
(R344). -/
def teacherWrites (img : List Byte) (e : W64) : Bool :=
  let n := e.toNat
  let (isle, x, y, q) := (bits n 1 0, bits n 8 2, bits n 15 9, bits n 21 16)
  bit n 23 && !bit n 22 &&
    ((decide (x = 0x61 ∧ y < 4) && (winRecs img).any fun r => decide (r.isle = isle ∧ r.k = y ∧ r.win = q) && [2, 4, 5, 6].contains r.d.mode) ||
     (decide (x = 0x60) && (reefRecs img).any fun r => decide (r.isle = isle ∧ r.reef = y) &&
       (let (a, len, m) := chanWin (r.chans.getD q (0, 0))
        decide (m = 1) && (streamsRecs img).any fun s => decide (s.isle = isle) && s.streams.any fun z =>
          decide (z.dir = 3) && decide (z.pool.1 = y) && rangesMeet (a, len) z.pool.2)))

/-- The teacher partition only reads (R344). -/
def checkTeacher (img : List Byte) : Option Where :=
  if ¬ bit (fieldAt img 6 2) 1 then none
  else firstOf [badAt 2 (siteRecs img) fun r => teacherStage img r.stage &&
      (List.range 64).any fun k => teacherWrites img (r.desc.getD (112 + k) 0),
    badAt 4 (streamsRecs img) fun s => s.streams.any fun z => teacherStage img (bits (z.words.getD 2 0).toNat 7 0) &&
      decide (z.dir = 1 ∨ z.dir = 2) && z.blocks.any fun b =>
        (mapOf (mapRecs img) (bits (b.getD 0 0).toNat 39 0)).any fun m => decide (m.kind ≠ 2)]

/-- Check 3 on the image as it stands. -/
def Dev.checkPartition (d : Dev) (j : Nat) (img : List Byte) : Option Where :=
  let n := d.slotOf j
  let temporal : Bool := decide (d.jobN j 3 = 1)
  firstOf [badIf 0 0 (decide (fieldAt img 24 1 ≠ n)), checkIsles img, checkStages img,
    badIf 0 0 (temporal && ((d.groupOf j).isNone || !bit (fieldAt img 6 2) 2 ||
      (d.groupOf j).any fun g => (d.group g).reefs.any d.health.degraded.contains)),
    badIf 1 0 (d.place j img).isNone, checkTeacher img]

/-- Check 3 on the placed plan: quota, windows and U0 queues. -/
def Dev.checkHeld (d : Dev) (j : Nat) (p : Plan) : Option Where :=
  let n := d.slotOf j
  let others := d.otherPlans j
  let wins := others.flatMap (·.windowIds)
  let u0 := others.flatMap (·.u0Queues)
  firstOf [badIf 1 0 (decide (d.objN (0x3000 + 0x10 * n) 3 < d.slotReefs n j + d.addedReefs j n p.partition)),
    badAt 7 p.windowIds wins.contains, badAt 0xE p.u0Queues u0.contains]

/-! ### Check 4 (R137, R187, R189, R262, R266, R268, R239, R258, R295, R354, R366, R400, R421) -/

/-- The rings of a site record: first byte, bytes, of the queues that are on. -/
def SiteRec.rings (r : SiteRec) : List (Nat × Nat) :=
  (List.range 64).filterMap fun q =>
    let d := qDescOf (r.desc.getD q 0).toNat
    if d.mode = 0 then none else some (d.base, 40 * d.slots * d.per)

/-- Sizes of R137 on one queue descriptor. -/
def ringBad (w : W64) : Bool :=
  let d := qDescOf w.toNat
  decide (d.mode ≠ 0) && (decide (0xBA80 < d.base + 40 * d.slots * d.per) || decide (d.mode = 1 ∧ d.slots ≠ 1) ||
    decide (d.mode = 3 ∧ (16 < d.per ∨ d.expect = 0)))

/-- A write descriptor's walk leaves 0x0000–0xBA7F (R111, R113). -/
def walkBad (g : AGDesc) : Bool :=
  let n := if isBlock g.fmt then blkBytes g.fmt else 32
  g.write && (List.range g.points).any fun p => (List.range (if g.mode = 0 then 4 else 1)).any fun t => decide (0xBA80 < g.addr t p + n)

def SiteRec.buffersBad (r : SiteRec) (resume : Bool) : Bool :=
  let rings := r.rings
  let exts := r.extents.map fun e => (e.1, 8 * e.2.length)
  (List.range 64).any (fun q => ringBad (r.desc.getD q 0)) || !disjoint rings ||
    exts.any (fun e => decide (0xBA80 < e.1 + e.2) || rings.any (rangesMeet e)) ||
    (List.range 16).any (fun k => walkBad (r.site.ag k)) || (resume && (rings ++ exts).any (rangesMeet (0xBA00, 0x80)))

/-- Regions of a reef record in use: index, first byte, bytes, kind, slot. -/
def ReefRec.areas (r : ReefRec) : List (Nat × Nat × Nat × Nat × Nat) :=
  r.regions.zipIdx.filterMap fun (w, i) => if lrKind w = 0 then none else some (i, lrBase w * 32, lrSize w * 32, lrKind w, lrSlot w)

/-- A range lies within one region of some kinds. -/
def ReefRec.within (r : ReefRec) (a len : Nat) (kinds : List Nat) (slot : Option Nat) : Bool :=
  r.areas.any fun (_, b, n, k, s) => kinds.contains k && decide (b ≤ a) && decide (a + len ≤ b + n) && (match slot with | some x => decide (x = s) | none => true)

def ReefRec.buffersBad (r : ReefRec) : Bool :=
  !disjoint (r.areas.map fun e => (e.2.1, e.2.2.1)) || r.areas.any (fun e => decide (4194304 < e.2.1 + e.2.2.1)) ||
    r.chans.any fun c =>
      let (a, len, m) := chanWin c
      (decide (m = 1 ∨ m = 2) && !r.within a len [1, 2] none) || (decide (m = 3) && !r.within a len [1, 2, 4] none)

/-- Blocks of a stream and its plan addresses (R266 to R268, R295). -/
def streamBad (img : List Byte) (ms : List MapRec) (isle : Nat) (s : StreamRec) : Bool :=
  let (reef, a, len) := s.pool
  let slotSize := (bits (s.words.getD 1 0).toNat 51 42 + 1)
  let granules (b : List W64) : Nat := (bits (b.getD 0 0).toNat 47 40 + 1) * (bits (b.getD 0 0).toNat 63 48 + 1)
  decide (s.dir ≠ 0) &&
    ((decide (s.dir = 1 ∨ s.dir = 3) && !((reefRecs img).any fun r => decide (r.isle = isle ∧ r.reef = reef) && r.within a len [2] (some (fieldAt img 24 1)))) ||
     !paFits ms (bits (s.words.getD 0 0).toNat 39 0) (32 * s.blocks.length) ||
     s.blocks.any fun b => !paFits ms (bits (b.getD 0 0).toNat 39 0) 1 || decide ((if s.dir = 2 then 128 else slotSize) < granules b))

/-- Streams of one isle: at most 256, and no two pools of one reef overlap. -/
def StreamsRec.poolsBad (r : StreamsRec) : Bool :=
  let ps := (r.streams.filter fun s => decide (s.dir = 1 ∨ s.dir = 3)).map fun s => (s.pool.1 * 2 ^ 24 + s.pool.2.1, s.pool.2.2)
  decide (256 < r.streams.length) || !disjoint ps

/-- Stack, within its isle, in which a window lies; the region must lie in one stack (R239). -/
def winStacks (ws : List WinRec) (m : MapRec) : List Nat :=
  ((ws.filter fun r => decide (r.d.mode ≠ 0 ∧ r.d.region = m.region)).map (·.k)).foldl insNat []

def winBad (ms : List MapRec) (ws : List WinRec) (r : WinRec) : Bool :=
  let w := r.d
  decide (w.mode ≠ 0) && (match ms.find? fun m => m.region = w.region with
    | none => true
    | some m => decide (m.bytes < w.off + w.bytes) || decide (m.isle ≠ r.isle) || decide (m.stack ≠ 0xFF ∧ m.stack ≠ r.k) ||
        decide (1 < (winStacks ws m).length))

/-- Used units of 2 MiB of a stack: base, size. -/
def Stack.usedUnits (k : Stack) : List (Nat × Nat) :=
  k.regions.filterMap fun (_, w) => if regKind w = 0 then none else some (regBase w / 65536, regSize w / 65536)

/-- First fit of a region above the escape buffer (R258): the lowest free base. A stack with a failing channel takes no region until
its channel is mapped out (R257, assumption 134). -/
def Stack.fit (k : Stack) (size : Nat) : Option Nat :=
  let used := (0, 8) :: k.usedUnits
  let ok (b : Nat) : Bool := decide (8 ≤ b) && decide ((b + size) * 65536 ≤ k.sectors) && used.all fun u => !rangesMeet (b, size) u
  if k.hasFailing then none
  else (used.map fun u => u.1 + u.2).foldl (fun (m : Option Nat) b => if ok b && m.all (b < ·) then some b else m) none

/-- Lowest free region descriptor of a stack. -/
def Stack.freeRegion (k : Stack) : Option Nat := (List.range 256).find? fun i => decide (1 ≤ i) && decide (regKind (k.region i) = 0)

/-- A region is allocated to a job: plan region number, stack, size in 2 MiB, kind (R221, R295). The stack holds the job's
requests to it until its zero-fill, which step 1 of the transition starts, has ended (R224, R310). A region of kind 2 takes that
kind when its contents have been written, since none may write it then (R223). -/
def Dev.allocRegion (d : Dev) (j : Nat) (number k size kind : Nat) : Option Dev :=
  let x := d.stk k
  match x.fit size, x.freeRegion with
  | some b, some i =>
    let y := x.setRegion i (mkRegion b size (d.slotOf j) j (if kind = 2 then 1 else kind))
    let e := d.setStk k { y with zeroing := insNat y.zeroing i }
    some (e.setJob j { e.job j with regions := (e.job j).regions ++ [(number, k, b * 65536, size * 65536, i, kind)] })
  | _, _ => none

/-- Region records that hold block lists (R267). -/
def listRegions (img : List Byte) : List Nat :=
  (streamsRecs img).flatMap fun s => s.streams.filterMap fun z => if z.dir = 0 then none else some (paRegion (bits (z.words.getD 0 0).toNat 39 0))

/-- The memory map is allocated, record by record (R295): in the stack the record names, in that of the windows over it, or in
the first of the isle's with room. -/
def Dev.allocMap (d : Dev) (j : Nat) (p : Plan) : Except Nat Dev :=
  let ws := winRecs p.image
  let lists := listRegions p.image
  ((mapRecs p.image).zipIdx).foldl (fun (e : Except Nat Dev) (m, i) => match e with
    | .error x => .error x
    | .ok d =>
      let isle := rotIsle p.rho m.isle * 4
      let kind := if lists.contains m.region then 3 else if m.kind = 2 then 2 else 1
      let stks := if m.stack < 4 then [m.stack] else match winStacks ws m with | [] => [0, 1, 2, 3] | l => l
      match stks.findSome? fun s => d.allocRegion j m.region (isle + s) (m.size + 1) kind with
      | some e => .ok e
      | none => .error i) (.ok d)

/-- MiB of HBM that a slot's jobs hold (`SLOT_HBM`). -/
def Dev.slotHbm (d : Dev) (n : Nat) : Nat :=
  sumNat ((d.jobsOf n).map fun j => sumNat ((d.job j).regions.map fun r => r.2.2.2.1 / 65536 * 2))

/-- Ring regions of a causeway record (R354). -/
def cwRingBad (img : List Byte) (c : CwRec) : Bool :=
  let slots := (c.w + 1) * c.kps
  c.matcher && (c.ring.take c.nreg).any fun (reef, idx) =>
    !((reefRecs img).any fun r => decide (r.isle = c.isle ∧ r.reef = reef) && r.areas.any fun (i, _, n, k, s) =>
      decide (i = idx ∧ k = 5 ∧ s = fieldAt img 24 1) && decide (ceilDiv slots c.nreg * (c.r * (32 + 8 * c.k)) ≤ n))

/-- Serving regions: those a table of R400 gives a size, and those whose size the tables of chapter 12 imply. -/
def srvBad (ms : List MapRec) (r : SrvRec) : Bool :=
  let need := [r.maxReq * 64, r.maxReq * (r.maxCtx / 16) * 4, r.maxReq * r.maxCtx * 4, r.inflight * (64 + 16 * r.budget),
    r.inflight * r.budget * 64, 128 * r.nnodes, 32 * 2 ^ r.idxLog2]
  (r.addrs.zip need).any (fun (pa, n) => !paFits ms pa (max 1 n)) || r.pools.any (fun pa => !paFits ms pa (max 1 (r.nsets * 65536)))

/-- Bytes that a bucket's `DST` holds (R425). -/
def BucketRec.dstBytes (b : BucketRec) : Nat :=
  if b.op = 3 ∧ b.agfmt = 0 then b.len * 4 else if b.op = 3 ∧ b.agfmt = 1 then b.len * 2 else b.len * 32

/-- Plan addresses of the collectives section. -/
def collBad (ms : List MapRec) (r : CollRec) : Option Where :=
  (badAt 0xE r.buckets fun b => !paFits ms b.src 1 || !paFits ms b.dst b.dstBytes || !paFits ms b.stage (max 1 b.stageLen)).map fun w =>
    (w.1, w.2 + r.peers.length + r.outs.length + r.ins.length)

/-- Inbound credits that loaded plans declare on an isle's strait die, and the number of inbound channels (R421). -/
def Plan.icred (p : Plan) (isle : Nat) : Nat :=
  match collRec p.image with
  | some r => sumNat (r.ins.map fun i => if rotIsle p.rho (bits i.route.toNat 1 0) = isle then i.icred else 0)
  | none => 0
def Plan.inbound (p : Plan) : Nat := (collRec p.image).elim 0 (·.ins.length)

/-- `MAX_REQ` of a plan. -/
def Plan.maxReq (p : Plan) : Nat := (srvRec p.image).elim 0 (·.maxReq)

/-- Check 4. -/
def Dev.checkBuffers (d : Dev) (j : Nat) (p : Plan) : Option Where :=
  let img := p.image
  let ms := mapRecs img
  let ws := winRecs img
  let n := d.slotOf j
  let others := d.otherPlans j
  let resume := bit (fieldAt img 6 2) 2
  let total := d.slotHbm n + sumNat (ms.map fun m => (m.size + 1) * 2)
  firstOf [badAt 2 (siteRecs img) (fun r => r.buffersBad resume), badAt 3 (reefRecs img) (·.buffersBad),
    badAt 4 (streamsRecs img) (fun r => r.poolsBad || r.streams.any (streamBad img ms r.isle)), badAt 7 ws (winBad ms ws),
    (match d.allocMap j p with | .error i => some (5, i) | .ok _ => none),
    badIf 5 0 (decide (d.objN (0x3000 + 0x10 * n) 4 < total)),
    badAt 0xB (epochRecs img) (fun e => decide (e.rtype = 3) && !((reefRecs img).any fun r => decide (r.isle = e.isle ∧ r.reef = e.x) &&
      r.areas.any fun (i, _, len, _, _) => decide (i = e.y) && paFits ms e.savePa len &&
        (mapOf ms e.savePa).any fun m => decide (m.kind = 5))),
    badAt 0xC ((cwBytes img).map cwRecOf) (cwRingBad img),
    (srvRec img).bind fun r => badIf 0xD 0 (srvBad ms r),
    badIf 0xD 0 (decide (262144 < sumNat ((p :: others).map (·.maxReq)))),
    (collRec img).bind (collBad ms),
    badIf 0xE 0 ((List.range 4).any (fun i => decide (65536 < sumNat ((p :: others).map (·.icred i)))) ||
      decide (1024 < sumNat ((p :: others).map (·.inbound))))]

/-! ### Check 5 -/

def SiteRec.misaligned (r : SiteRec) : Bool :=
  (List.range 16).any (fun k => let g := r.site.ag k; decide (g.base % 8 ≠ 0) || g.stride.any fun s => decide (s % 8 ≠ 0)) ||
    r.extents.any fun e => decide (e.1 % 8 ≠ 0)

def StreamRec.misaligned (s : StreamRec) : Bool :=
  decide (s.dir ≠ 0) && (decide (bits (s.words.getD 0 0).toNat 39 0 % 32 ≠ 0) || decide (bits (s.words.getD 4 0).toNat 39 0 % 256 ≠ 0) ||
    s.blocks.any fun b => decide (bits (b.getD 0 0).toNat 39 0 % 256 ≠ 0 ∨ bits (b.getD 1 0).toNat 39 0 % 256 ≠ 0))

def checkAlignment (img : List Byte) : Option Where :=
  firstOf [badAt 2 (siteRecs img) (·.misaligned), badAt 4 (streamsRecs img) fun r => r.streams.any (·.misaligned)]

/-! ### Check 6 (R127, R138, R147, R168, R251, R313, R619) -/

/-- The armed triggers of a site record. -/
def SiteRec.armedTrigs (r : SiteRec) : List TrigDesc := (r.trigs.map fun w => trigOf w.toNat).filter (·.en)

/-- `SPILL` = 1 breaks R313 for queue q. -/
def SiteRec.spillBad (r : SiteRec) (img : List Byte) (q : Nat) : Bool :=
  let d := qDescOf (r.desc.getD q 0).toNat
  let e := (r.desc.getD (112 + q) 0).toNat
  let reef := r.y / 16 * 6 + r.x / 16
  let used := r.prog.any fun w => decide (bits w.toNat 63 58 = 0x30 ∧ bits w.toNat 45 40 = q)
  d.spill && (decide (d.mode ≠ 2) || !bit e 23 || bit e 22 || decide (bits e 1 0 ≠ r.isle ∨ bits e 8 2 ≠ 0x60 ∨ bits e 15 9 ≠ reef) || used ||
    !((reefRecs img).any fun f => decide (f.isle = r.isle ∧ f.reef = reef) &&
      (let c := f.chans.getD (bits e 21 16) (0, 0)
       let (a, len, m) := chanWin c
       let v := c.2.toNat
       decide (bits e 21 16 < 32 ∧ m = 3) && f.within a len [4] none && bit v 23 && !bit v 22 &&
         decide (bits v 1 0 = r.isle ∧ bits v 8 2 = r.x ∧ bits v 15 9 = r.y ∧ bits v 21 16 = q))))

/-- A site record breaks a rule of check 6: R138 of every trigger, R147 of the armed ones. -/
def SiteRec.descriptorsBad (r : SiteRec) (img : List Byte) : Bool :=
  let ts := r.armedTrigs
  let all := r.trigs.map fun w => trigOf w.toNat
  let mode (q : Nat) : Nat := (qDescOf (r.desc.getD q 0).toNat).mode
  ts.any (fun t => t.opq.isEmpty || decide (t.step = 0) || t.opq.any fun q => decide (mode q = 0)) ||
    all.any (fun t => decide (t.limit ≠ 1) && t.opq.any fun q => decide (mode q = 1)) || !distinct (all.flatMap fun t => t.opq.foldl insNat []) ||
    (List.range 64).any (fun q => r.spillBad img q) ||
    (List.range 16).any (fun k => let g := r.site.ag k; !fmtKnown g.fmt || decide (g.mode = 3)) || r.setupBad

/-- Planes of one isle overlap (R127). -/
def planesOverlap (img : List Byte) (i : Nat) : Bool :=
  !distinct (((stageRecs img).filter fun s => s.isle = i).flatMap fun s => s.planes.flatMap fun n => [n, n + 1, n + 6, n + 7])

/-- An AU counter of a window of another slot's plan (R251). -/
def Dev.counterShared (d : Dev) (j : Nat) (p : Plan) (r : WinRec) : Bool :=
  let n := d.slotOf j
  let k := rotIsle p.rho r.isle * 4 + r.k
  decide (4 ≤ r.d.mode) && d.jobs.any fun (i, b) => decide (i ≠ j) && decide (d.slotOf i ≠ n) && (match b.plan with
    | some o => (winRecs o.image).any fun w => decide (4 ≤ w.d.mode ∧ rotIsle o.rho w.isle * 4 + w.k = k ∧ w.d.counter = r.d.counter)
    | none => false)

def Dev.checkDescriptors (d : Dev) (j : Nat) (p : Plan) : Option Where :=
  let img := p.image
  firstOf [badIf 1 0 ((List.range 4).any (planesOverlap img)), badAt 2 (siteRecs img) (fun r => r.descriptorsBad img),
    badAt 7 (winRecs img) fun r => decide (r.d.mode = 3) || d.counterShared j p r]

/-! ### Checks 7 and 8 (R192, R249) -/

def checkCacheable (img : List Byte) : Option Where :=
  let ms := mapRecs img
  let ro (number : Nat) : Bool := ms.any fun m => decide (m.region = number ∧ m.kind = 2)
  firstOf [badAt 4 (streamsRecs img) (fun r => r.streams.any fun s => decide (s.dir = 3) && s.blocks.any fun b =>
      ro (paRegion (bits (b.getD 0 0).toNat 39 0))),
    badAt 7 (winRecs img) fun r => [2, 4, 5, 6].contains r.d.mode && ro r.d.region]

/-- A granule of HBM, as a plan address / 256, is written by the blocks of a stream (R268). -/
def StreamRec.covers (s : StreamRec) (g : Nat) : Bool :=
  let loops := max 1 (bits (s.words.getD 3 0).toNat 15 0)
  let ls := ofTwos 40 (bits (s.words.getD 4 0).toNat 39 0)
  s.blocks.any fun b =>
    let w0 := (b.getD 0 0).toNat
    (List.range loops).any fun p => (List.range (bits w0 63 48 + 1)).any fun r =>
      let row : Int := (bits w0 39 0 : Nat) + (r : Int) * ofTwos 40 (bits (b.getD 1 0).toNat 39 0) + (p : Int) * ls
      decide (row ≤ (g * 256 : Nat)) && decide (((g * 256 : Nat) : Int) < row + ((bits w0 47 40 + 1) * 256 : Nat))


/-- An AU window is covered by the clears declared for it (R249). -/
def cleared (img : List Byte) (r : WinRec) : Bool :=
  let w := r.d
  let ls := (linkRecs img).filter fun l => l.clear && decide (l.cisle = r.isle ∧ l.cx = 0x61 ∧ l.cy = r.k ∧ l.cq = r.win)
  let strs := (ls.filter fun l => l.ptype = 1).filterMap fun l => (linkStream img l).bind fun s => if s.dir = 3 then some s else none
  let first := (w.region * 2 ^ 32 + w.off) / 256
  ls.any (fun l => clearTokens img l w) || (List.range (ceilDiv w.bytes 256)).all fun i => strs.any (·.covers (first + i))

def checkCleared (img : List Byte) : Option Where :=
  badAt 7 (winRecs img) fun r => [4, 5, 6].contains r.d.mode && !cleared img r

/-! ### Checks 11 to 13 (R172, R210, R304, R618) -/

/-- Check 11. -/
def checkTiles (img : List Byte) : Option Where :=
  badAt 9 (budRecs img) fun r => (r.tiles.zip r.aa).any fun (w, aa) =>
    let kind := bits w.toNat 7 6
    let used : Bool := bit w.toNat 5 || decide (0 < aa)
    decide (kind = 3) || (used && (if kind = 2 then decide (aa = 0 ∨ 2 < aa) else decide (aa ≠ 0)))

/-- The plan carries a site record for a device site. -/
def Plan.hasSite (p : Plan) (s : Nat) : Bool := (siteRecs p.image).any fun r => decide (p.site r.isle r.x r.y = s)

/-- A translated route entry of a unit on an isle is absent (R172); one to a mask engine names an engine and a queue that the serving
section declares (R400). -/
def Dev.routeAbsent (d : Dev) (p : Plan) (isle : Nat) (e0 : W64) : Bool :=
  let n := (p.route e0).toNat
  let (i, x, y, q) := (bits n 1 0, bits n 8 2, bits n 15 9, bits n 21 16)
  if ¬ bit n 23 then false
  else if bit n 22 then
    decide (i ≠ isle ∨ 36 ≤ bits n 15 10) || !((reefRecs p.image).any fun r =>
      decide (rotIsle p.rho r.isle = i ∧ p.reefIn r.isle r.reef = bits n 15 10) && !(r.groups.getD (bits n 9 2) []).isEmpty)
  else if x < 96 then
    let s := siteNo i y x
    decide (95 < y) || !p.partition.contains (siteReef s) || d.health.degraded.contains (siteReef s) || !p.hasSite s
  else if x = 0x60 then
    decide (35 < y ∨ i ≠ isle) || decide (32 ≤ q ∧ q ≤ 61) || !p.partition.contains (i * 36 + y) || d.health.degraded.contains (i * 36 + y)
  else if x = 0x61 then
    if y < 4 then !((winRecs p.image).any fun r => decide (rotIsle p.rho r.isle = i ∧ r.k = y ∧ r.win = q))
    else decide (10 < y) || decide (y = 4 ∧ 62 ≤ q) || decide (y = 6 ∧ 32 ≤ q ∧ q ≤ 61) ||
      (decide (y = 7) && !((srvRec p.image).any fun r => (r.engines.take r.nme).any fun e => decide (rotIsle p.rho e.1 = i ∧ q < e.2)))
  else true

/-- A multicast group of a reef record names a target outside the partition or without a site record. -/
def Plan.groupBad (p : Plan) (r : ReefRec) : Bool := r.groups.any fun g => g.any fun t => !p.hasSite (p.site r.isle (t.1 % 96) (t.1 / 96))

/-- Check 12, on the good-site map as it stands (R300). -/
def Dev.checkRoutes (d : Dev) (p : Plan) : Option Where :=
  let img := p.image
  let bad (isle : Nat) (e : W64) : Bool := d.routeAbsent p (rotIsle p.rho isle) e
  let here (e : W64) : Bool := d.routeAbsent p (rotIsle p.rho (bits e.toNat 1 0)) e
  firstOf [badAt 2 (siteRecs img) (fun r => (List.range 64).any fun k => bad r.isle (r.desc.getD (112 + k) 0)),
    badAt 3 (reefRecs img) (fun r => p.groupBad r || r.chans.any fun c => bad r.isle c.2),
    badAt 4 (streamsRecs img) (fun r => r.routes.any (bad r.isle)), badAt 7 (winRecs img) (fun r => bad r.isle r.d.route),
    badIf 8 0 ((List.range 4).any fun i => (List.range (fieldAt (sectionBytes img 8) (4 + 2 * i) 2)).any fun k =>
      bad i (BitVec.ofNat 64 (guardRoute img i k))),
    badAt 0xC ((cwBytes img).map cwRecOf) (fun c => c.routes.any (bad c.isle)),
    (collRec img).bind fun r => firstOf [(badAt 0xE r.ins fun i => here i.route).map fun w => (w.1, w.2 + r.peers.length + r.outs.length),
      (badAt 0xE r.buckets fun b => bad b.isle b.croute).map fun w => (w.1, w.2 + r.peers.length + r.outs.length + r.ins.length)]]

/-- A guard record breaks R304. -/
def guardBad (img : List Byte) (g : GuardRec) : Bool :=
  let entries := (List.range g.nroute).map fun k => guardRoute img g.isle (g.route0 + k)
  decide (g.ndim = 0 ∨ 4 < g.ndim ∨ g.ndim ≤ g.splitDim) || (g.maxes.take g.ndim).any (· == 0) ||
    decide (fieldAt (sectionBytes img 8) (4 + 2 * g.isle) 2 < g.route0 + g.nroute) ||
    entries.any fun e => !bit e 23 || bit e 22 || decide (bits e 1 0 ≠ g.isle) ||
      !((siteRecs img).any fun r => decide (r.isle = bits e 1 0 ∧ r.x = bits e 8 2 ∧ r.y = bits e 15 9) &&
        (let m := (qDescOf (r.desc.getD (bits e 21 16) 0).toNat).mode
         decide (m = 1 ∨ m = 2)))

/-- Check 13. -/
def checkGuards (img : List Byte) : Option Where :=
  let n := fieldAt (sectionBytes img 8) 0 2
  badAt 8 (List.range n) fun i =>
    let id := fieldAt (sectionBytes img 8) (16 + 32 * i) 2
    (guardRecs img).any fun g => decide (g.id = id) && guardBad img g

/-! ### The end of a plan fetch (R299, R515, R516) -/

/-- Outcome of the checks: the placed plan, or the first failing check's code and place. -/
inductive Verdict where
  | accept (p : Plan)
  | reject (code : Nat) (wh : Where)
  deriving DecidableEq, Repr

/-- A failing check. -/
def Verdict.of (code : Nat) (w : Option Where) (next : Verdict) : Verdict := match w with | some x => .reject code x | none => next

/-- The checks of Table 9-11, in order. -/
def Dev.checkPlan (d : Dev) (j : Nat) (img : List Byte) (sigOk : Bool) : Verdict :=
  .of 0x1002 (checkFormat img) <| .of 0x1001 (d.checkSignature img sigOk) <| .of 0x1003 (d.checkPartition j img) <|
    match d.place j img with
    | none => .reject 0x1003 (1, 0)
    | some (rho, shift) =>
      let p : Plan := { image := img, rho := rho, shift := shift, meas := bytesAt img (img.length - 256) 48 }
      .of 0x1003 (d.checkHeld j p) <| .of 0x1010 (d.checkBuffers j p) <| .of 0x1011 (checkAlignment img) <|
      .of 0x1016 (d.checkDescriptors j p) <| .of 0x1017 (checkCacheable img) <| .of 0x1018 (checkCleared img) <|
      .of 0x1012 (checkCounts img) <| .of 0x1014 (checkDepths img) <| .of 0x1013 (checkTiles img) <| .of 0x1015 (d.checkRoutes p) <|
      .of 0x1019 (checkGuards img) (.accept p)

/-- The load is rejected (R299): logged for the job, which returns to the state it came from. -/
def Dev.rejectLoad (d : Dev) (t : TimeBase) (j code : Nat) (w : Where) : Dev :=
  (d.logErr t code (job := j)).abandonLoad t j code (w.1 + 256 * w.2)

/-- N_j and V_j of a plan (R444). -/
def planSizes (img : List Byte) : Nat × Nat :=
  let per (f : Nat → Nat) : Nat := (List.range 4).foldl (fun m i => max m (f i)) 0
  let save (i : Nat) : Nat := sumNat ((epochRecs img).map fun e =>
    if e.rtype = 3 ∧ e.isle = i then
      sumNat ((reefRecs img).map fun r => if r.isle = i ∧ r.reef = e.x then lrSize (r.regions.getD e.y 0) * 32 else 0)
    else 0)
  (per fun i => ((siteRecs img).filter fun r => r.isle = i).length, per save)

/-- Block descriptor with its HBM address (R295). -/
def Job.blockWords (b : Job) (w : List W64) : List Byte :=
  let w0 := (w.getD 0 0).toNat
  (le 5 (b.ha (bits w0 39 0)) ++ le 3 (w0 / 2 ^ 40)) ++ le 8 (w.getD 1 0).toNat ++ le 8 (w.getD 2 0).toNat ++ le 8 (w.getD 3 0).toNat

/-- The regions of a job's plan are zero-filled (R310, step 1). -/
def Dev.zeroRegions (d : Dev) (j : Nat) : Dev :=
  (d.job j).regions.foldl (fun d r => d.setStk r.2.1 ((d.stk r.2.1).zeroFill r.2.2.2.2.1 r.2.2.1 r.2.2.2.1)) d

/-- Who writes a region of a plan for the loader (R223): firmware into one of kind 3, else the job for which it writes. -/
def Dev.fillFor (d : Dev) (j kind : Nat) : Requester := if kind = 3 then .firmware else .job (d.slotOf j) j

/-- Initial contents of a region of a plan, the block lists that stand in it (R267, R295), and a page table without a block assigned
(R376) go there in class P3; a region of kind 2 then takes its kind. -/
def Dev.fillRegion (d : Dev) (j : Nat) (p : Plan) (r : Nat × Nat × Nat × Nat × Nat × Nat) : Dev :=
  let (number, k, lo, n, i, kind) := r
  let b := d.job j
  let put (d : Dev) (ha : Nat) (l : List Byte) : Dev := d.poke (d.fillFor j kind) (some j) ha l
  let d1 := ((mapRecs p.image).filter fun m => decide (m.region = number)).foldl (fun d m =>
    put d (b.ha (number * 2 ^ 32)) (bytesAt (sectionBytes p.image 5) m.initOfs m.initLen)) d
  let d2 := (streamsRecs p.image).foldl (fun d s => s.streams.foldl (fun d z =>
    let pa := bits (z.words.getD 0 0).toNat 39 0
    if z.dir = 0 ∨ paRegion pa ≠ number then d
    else (z.blocks.zipIdx).foldl (fun d (w, q) => put d (b.ha pa + 32 * q) (b.blockWords w)) d) d) d1
  let d3 := (srvRec p.image).elim d2 fun s =>
    if paRegion (s.addrs.getD 1 0) = number then
      put d2 (b.ha (s.addrs.getD 1 0)) (List.replicate (s.maxReq * (s.maxCtx / 16) * 4) 0xFF)
    else d2
  if kind = 2 then d3.setStk k ((d3.stk k).setRegion i (mkRegion (lo / 65536) (n / 65536) (d.slotOf j) j 2)) else d3

/-- The plan and the region of a job that a region of a stack belongs to. -/
def Dev.planRegion (d : Dev) (k region : Nat) : Option (Nat × Plan × (Nat × Nat × Nat × Nat × Nat × Nat)) :=
  d.jobs.findSome? fun (j, b) => b.plan.bind fun p =>
    (b.regions.find? fun r => decide (r.2.1 = k ∧ r.2.2.2.2.1 = region)).map fun r => (j, p, r)

/-- REGION_ZERO_FILL_END (R224, R310): the region serves its owner; a region of a plan that is being placed takes its initial
contents. -/
def Dev.regionFilled (d : Dev) (t : TimeBase) (k region : Nat) : Dev :=
  let d1 := d.zeroFillEnd t k region
  match d.planRegion k region with
  | some (j, p, r) => if (d.stk k).zeroing.contains region ∧ (d.job j).trans = 2 ∧ ¬ (d.job j).saved then d1.fillRegion j p r else d1
  | none => d1

/-- REGION_ZERO_FILL_END. -/
def execRegionZeroFillEnd (k : StackId) (region : Fin 256) (s : State) : Host.Outcome State Fault Refusal :=
  act s fun t d => d.regionFilled t k.val region.val

/-- The plan is accepted: regions, partition, group, counts of the job, its record; then it waits for its transition, a
temporal member in state 5 (R309, R436, R515). The staging region is released (R516). -/
def Dev.acceptPlan (d : Dev) (t : TimeBase) (j : Nat) (p : Plan) : Dev :=
  let d0 := d.dropRegions j
  let d1 := match d0.allocMap j p with | .ok e => e | .error _ => d0
  let (n, v) := planSizes p.image
  let d2 := d1.setJob j { d1.job j with
    plan := some p, reefs := p.partition, mapGen := d.ctrN 0x2D00 4, staged := 0, stageTides := [], reports := [], tideStamps := [], tag := 0,
    saved := false, guardQ := [], drained := [], drainLeft := 0, atTide := 0, stopWait := none, nMax := n, vMax := v,
    model := List.replicate 48 0, srv := {}, suspended := none, dispatched := [] }
  let d3 := ((((((d2.setCtr (0x4000 + j) 0x30 0).setCtr (0x4000 + j) 0x11 0).setCtr (0x4000 + j) 0x12 0).setCtr (0x4000 + j) 0x15 0).setCtr (0x4000 + j) 0x17
    0).setCtr (0x4000 + j) 0x44 0).jobRecord t j 1 0
  match d3.groupOf j with
  | none => d3.setJob j { d3.job j with trans := 1 }
  | some g =>
    let d4 := if (d3.group g).reefs.isEmpty then d3.setGroup g { d3.group g with reefs := p.partition } else d3
    let d5 := d4.jobTo t j 5 0
    if (d5.group g).running.isNone then
      (d5.setGroup g { d5.group g with running := some j }).setJob j { d5.job j with trans := 1 }
    else d5

/-- PLAN_FETCH_COMPLETE (R291, R299, R516, R546). While the link of `JOB_PLAN_HOST_DIE` is down the fetch does not end (R29). -/
def planFetchComplete (j : JobId) (image : List Byte) (tagOk sigOk : Bool) (t : TimeBase) (d : Dev) : Dev :=
  let b := d.job j.val
  if b.state ≠ 1 ∨ b.staged = 0 ∨ ¬ d.pcie (d.objN (0x4000 + j.val) 0x1B) then d
  else if fieldAt (d.obj (0x4000 + j.val) 0x1A) 0 1 = 1 ∧ ¬ tagOk then d.rejectLoad t j.val 0x5004 (0, 0)
  else match d.checkPlan j.val image sigOk with
    | .reject code w => d.rejectLoad t j.val code w
    | .accept p => d.acceptPlan t j.val p

/-- PLAN_FETCH_COMPLETE -/
def execPlanFetchComplete (j : JobId) (image : List Byte) (tagOk sigOk : Bool) (s : State) : Host.Outcome State Fault Refusal :=
  act s (planFetchComplete j image tagOk sigOk)

/-- A plan has been accepted and its first epoch has not begun: a member of a temporal group waits in state 5 (R515). -/
def Job.placing (b : Job) : Bool := b.plan.isSome && (decide (b.state = 1) || (decide (b.state = 5) && !b.saved))

/-- The map of a reef of the partition has changed since the loader's snapshot (R300). -/
def Dev.mapMoved (d : Dev) (b : Job) : Bool := b.reefs.any fun r => decide (b.mapGen < mget 0 d.health.reefGen r)

/-- GOOD_SITE_MAP_CHANGE (R300): the map of a reef of the partition has changed before the plan's epoch begins. -/
def goodSiteMapChange (j : JobId) (t : TimeBase) (d : Dev) : Dev :=
  let b := d.job j.val
  if b.placing ∧ d.mapMoved b then
    let d1 := d.rejectLoad t j.val 0x1015 (0, 0)
    if b.state = 5 then (d.groupOf j.val).elim d1 fun g => (d1.leaveGroup j.val g).groupStart t g else d1
  else d

/-- GOOD_SITE_MAP_CHANGE -/
def execGoodSiteMapChange (j : JobId) (s : State) : Host.Outcome State Fault Refusal := act s (goodSiteMapChange j)

end Sys2Proof.Machine
end

