-- ==== Sys2Proof/Machine/Epochs.lean ====
section
/-! DEFINITION. Shape guards, tide points, drains, epoch transitions and context switches (sections 9.5 to 9.8), and dispatch
within temporal groups (R441). -/
namespace Sys2Proof.Machine

/-- Perimeter control of an isle. -/
def pcNode (isle : Nat) : Node := stopNode isle (stopOfDy 10)

/-! ### Shape guards (R305, R306, R497) -/

/-- Extents of a guard as an iteration gives them. -/
def extsOf (exts : List (Nat × List Nat)) (g : Nat) : List Nat := ((exts.find? fun e => decide (e.1 = g)).map (·.2)).getD []

/-- The dimensions of a guard whose extent exceeds the planned one. -/
def GuardRec.over_ (g : GuardRec) (e : List Nat) : List Nat :=
  (List.range g.ndim).filter fun k => decide (g.maxes.getD k 0 < e.getD k 0)

/-- The evaluation of an iteration: refused, with guard and dimension; or the number of chunks and the guards that split. -/
def guardEval (gs : List GuardRec) (exts : List (Nat × List Nat)) : Except (Nat × Nat) (Nat × List Nat) :=
  match exts.find? (fun e => !gs.any fun g => decide (g.id = e.1)), gs.find? (fun g => !exts.any fun e => decide (e.1 = g.id)) with
  | some e, _ => .error (e.1, 0xFF)
  | none, some g => .error (g.id, 0xFF)
  | none, none =>
    gs.foldl (fun (a : Except (Nat × Nat) (Nat × List Nat)) g => match a with
      | .error x => .error x
      | .ok (n, sp) =>
        let e := extsOf exts g.id
        let ov := g.over_ e
        match ov with
        | [] => .ok (n, sp)
        | d0 :: _ =>
          if ¬ g.split then .error (g.id, d0)
          else match ov.find? fun k => decide (k ≠ g.splitDim) with
            | some k => .error (g.id, k)
            | none =>
              let m := ceilDiv (e.getD g.splitDim 0) (max 1 (g.maxes.getD g.splitDim 0))
              if 4096 < m ∨ (1 < n ∧ m ≠ n) then .error (g.id, g.splitDim) else .ok (m, sp ++ [g.id])) (.ok (1, []))

/-- The lowest dimension of a guard that is zero. -/
def GuardRec.zeroDim (g : GuardRec) (e : List Nat) : Option Nat := (List.range g.ndim).find? fun k => decide (e.getD k 0 = 0)

/-- The token of a guard for chunk c of n: kind, low header bits, payload. -/
def GuardRec.token (g : GuardRec) (e : List Nat) (splits : Bool) (c n : Nat) : Nat × Nat × W256 :=
  match g.zeroDim e with
  | some k => (4, k * 1024, 0)
  | none =>
    let mx := g.maxes.getD g.splitDim 0
    let ext := (List.range 4).map fun k =>
      if g.ndim ≤ k then 0
      else if splits ∧ k = g.splitDim then (if c + 1 < n then mx else e.getD k 0 - (n - 1) * mx)
      else e.getD k 0
    (5, 0, bytesPay (ext.flatMap (le 4) ++ le 2 g.id ++ List.replicate 14 0))

/-- The guards that take part send their tokens for an accepted iteration, chunk by chunk, in ascending `GUARD`. -/
def Dev.guardSend (d : Dev) (j : Nat) (p : Plan) (gs : List GuardRec) (exts : List (Nat × List Nat)) (n : Nat) (sp : List Nat) : Dev :=
  let tag := (d.job j).tag
  let epoch := d.ctrN (0x4000 + j) 0x13
  let d1 := (List.range n).foldl (fun d c => gs.foldl (fun d g =>
    let (kind, low, pay) := g.token (extsOf exts g.id) (sp.contains g.id) c n
    (List.range g.nroute).foldl (fun d k =>
      let e := p.route (BitVec.ofNat 64 (guardRoute p.image g.isle (g.route0 + k)))
      if e.getLsbD 23 then
        d.inject (pcNode (rotIsle p.rho g.isle)) { hdr := routeHdr e epoch ((tag + c) % 2 ^ 20) kind low, payload := pay }
      else d) d) d) d
  d1.setJob j { d1.job j with tag := (tag + n) % 2 ^ 20 }

/-- Guard and dimension found empty; dimension 0xFF: none. -/
def emptyFound (gs : List GuardRec) (exts : List (Nat × List Nat)) : Nat × Nat :=
  (gs.findSome? fun g => (g.zeroDim (extsOf exts g.id)).map fun k => (g.id, k)).getD (0, 0xFF)

/-- Perimeter control of every isle that a guard uses can send. -/
def Dev.guardsReady (d : Dev) (p : Plan) : Bool := (guardRecs p.image).all fun g => d.canInject (pcNode (rotIsle p.rho g.isle)) 5

/-- An ingress completion record (Table 16-9). -/
def Dev.ingressRecord_ (d : Dev) (t : TimeBase) (j status : Nat) (i : Ingress) : Dev :=
  d.emit t j (complRec 6 status j (d.slotOf j) i.ctx t.ns (le 4 i.tag ++ le 4 i.chunks ++ le 2 i.guard ++ le 1 i.dim))

/-- GUARD_ITERATION (R305, R306, R497): the oldest iteration at the guards. -/
def Dev.guardIteration (d : Dev) (t : TimeBase) (j : Nat) : Dev :=
  let b := d.job j
  match b.guardQ, b.plan with
  | exts :: rest, some p =>
    if b.state ≠ 2 ∨ ¬ d.guardsReady p ∨ d.jobHolds j then d
    else
      let gs := guardRecs p.image
      let upd (d : Dev) (f : Ingress → Ingress) : Dev :=
        let x := d.job j
        let k := x.dispatched.findIdx fun i => decide (i.chunks = 0)
        match x.dispatched[k]? with
        | some i => d.setJob j { x with dispatched := listSet x.dispatched k (f i) }
        | none => d
      match guardEval gs exts with
      | .ok (n, sp) =>
        let (g, dm) := emptyFound gs exts
        let d1 := (d.setJob j { b with guardQ := rest }).guardSend j p gs exts n sp
        upd d1 fun i => { i with due := d.ctrN (0x4000 + j) 0x17 + i.tides, tag := b.tag, chunks := n, guard := g, dim := dm }
      | .error (g, dm) =>
        let k := b.dispatched.findIdx fun i => decide (i.chunks = 0)
        let i := { b.dispatched.getD k {} with tag := b.tag, guard := g, dim := dm }
        let d1 := d.setJob j { b with guardQ := rest, dispatched := b.dispatched.eraseIdx k }
        (d1.logErr t 0x2001 (job := j) (die := Config.logDie 0x2001) (unit := Config.logUnit 0x2001) (wh := Config.logWhere 0x2001)).ingressRecord_
          t j 0x2001 i
  | _, _ => d

/-- GUARD_ITERATION. -/
def execGuardIteration (j : JobId) (s : State) : Host.Outcome State Fault Refusal := act s fun t d => d.guardIteration t j.val

/-! ### Drains (R309, R312, R488) -/

/-- A drain begins: the guards stop and send a drain marker to each of their routes. -/
def Dev.startDrain (d : Dev) (t : TimeBase) (j : Nat) : Dev :=
  let d1 := d.jobTo t j 3 0
  let d2 := d1.setJob j { d1.job j with drainAt := some t.elapsed, drainLimit := d1.objN 0x2700 0x10 * 1000000, drained := [], drainLeft := 0, drainSpill := none }
  match (d.job j).plan with
  | none => d2
  | some p =>
    let epoch := d.ctrN (0x4000 + j) 0x13
    (guardRecs p.image).foldl (fun d g => (List.range g.nroute).foldl (fun d k =>
      let e := p.route (BitVec.ofNat 64 (guardRoute p.image g.isle (g.route0 + k)))
      if e.getLsbD 23 then d.inject (pcNode (rotIsle p.rho g.isle)) { hdr := routeHdr e epoch 0 6 0, payload := 0 } else d) d) d2

/-- Nothing of a job's work is under way: it stands at its last tide point. -/
def Job.idle (b : Job) : Bool := !b.hasWork && b.dispatched.isEmpty && b.guardQ.isEmpty && b.srv.steps.isEmpty && b.released.isNone

/-- Work of a member has become ready (R441, R442): with no job loaded one is started; a loaded job that stands idle at its last
tide point is drained at once for another. -/
def Dev.groupWake (d0 : Dev) (t : TimeBase) (j : Nat) : Dev :=
  let d := d0.wakeMember j
  match d.groupOf j with
  | none => d
  | some g =>
    match (d.group g).running with
    | none => d.groupStart t g
    | some r =>
      if (d.job r).state = 2 ∧ (d.job r).idle then
        let d1 := d.decide_ t g
        if (d1.group g).next.isSome then (d1.setJob r { d1.job r with atTide := 3 }).startDrain t r else d1
      else d

/-- WORK_UNIT_RELEASE (R440): an admitted job's next unit is released once it is due and the job has work. -/
def workUnitRelease (j : JobId) (t : TimeBase) (d : Dev) : Dev :=
  let b := d.job j.val
  if b.admSt = 1 ∧ b.released.isNone ∧ b.admitAt + b.units * d.jobN j.val 7 * 1000 ≤ t.ns ∧ b.hasWork then
    (d.setJob j.val { b with released := some (t.ns + d.jobN j.val 8 * 1000) }).groupWake t j.val
  else d

/-- WORK_UNIT_RELEASE -/
def execWorkUnitRelease (j : JobId) (s : State) : Host.Outcome State Fault Refusal := act s (workUnitRelease j)

/-- Isles on whose arbiters a job has streams. -/
def Dev.streamIsles (d : Dev) (j : Nat) : List Nat :=
  (List.range 4).filter fun i => (d.arb i).streams.any fun e => decide (e.2.job = j)

/-- Sites of a job for which its plan has a record. -/
def Plan.recSites (p : Plan) : List Nat := (siteRecs p.image).map fun r => p.site r.isle r.x r.y

/-- Every unit of the partition has reported drained (R309, R213, R250, R357). -/
def Dev.isDrained (d : Dev) (j : Nat) : Bool :=
  let b := d.job j
  b.plan.any fun p =>
    p.recSites.all b.drained.contains && (d.streamIsles j).all (fun i => b.drained.contains (arbiterUnit i)) &&
      b.reefs.all (fun r => (d.lag r).mcq.isEmpty && (d.lag r).mc.isNone) &&
      d.sites.all (fun e => !b.reefs.contains (siteReef e.1) || e.2.resv.isEmpty) &&
      d.hbms.all (fun e => e.2.waits.all fun w => decide (e.2.winJob w.window ≠ j)) &&
      d.cause.all (fun e => decide (e.2.job ≠ some j) || d.cwQuiet e.1)

/-- The next Begin epoch on the reefs of a job is forced (R309, R311). -/
def Dev.forceNext (d : Dev) (j : Nat) : Dev := (d.job j).reefs.foldl (fun d r => d.setLag r { d.lag r with mustForce := true }) d

/-- PARTITION_DRAINED (R309): the lane buffers are written back, and entries left occupied make the next transition of the partition
a forced one; what the drain was for follows. -/
def Dev.partitionDrained (d : Dev) (t : TimeBase) (j : Nat) : Dev :=
  let b := d.job j
  if b.state ≠ 3 ∨ b.drainAt.isNone ∨ b.stopping ∨ ¬ d.isDrained j then d
  else
    let d0 := (d.flushJob j).chargeDrain t j
    let d1 := if b.drainLeft = 0 then d0 else d0.forceNext j
    let d2 := d1.setJob j { d1.job j with drainAt := none, atTide := if b.atTide = 3 ∧ b.stopWait.isNone then 3 else 0 }
    if b.stopWait.isSome ∨ b.atTide = 2 then
      (d2.endStop t j).startGroupOf t j
    else if b.atTide = 3 then d2
    else
      let d3 := d2.jobTo t j 4 0
      if b.atTide = 4 then { d3 with pu := { d3.pu with held := insNat d3.pu.held j } } else d3

/-- PARTITION_DRAINED. -/
def execPartitionDrained (j : JobId) (s : State) : Host.Outcome State Fault Refusal := act s fun t d => d.partitionDrained t j.val

/-- DRAIN_TIMEOUT (R312, R585): the job stops without its drain; a stop code that waited stands. -/
def Dev.drainTimeout (d : Dev) (t : TimeBase) (j : Nat) : Dev :=
  let b := d.job j
  match b.drainAt with
  | none => d
  | some e =>
    if b.state ≠ 3 ∨ t.elapsed < e + b.drainLimit then d
    else
      let d1 := (d.logErr t 0x1020 (job := j)).stopNow t j 0x1020
      match b.stopWait with
      | some c => if c = 0 then d1 else d1.setCtr (0x4000 + j) 0x1C c.toNat
      | none => d1

/-- DRAIN_TIMEOUT. -/
def execDrainTimeout (j : JobId) (s : State) : Host.Outcome State Fault Refusal := act s fun t d => d.drainTimeout t j.val

/-! ### Tide points (R307, R308) -/

/-- A reporter's token counted for its stage; where it is the last that a tide point needs, the time is that point's stamp
(R307). -/
def Job.tideToken (b : Job) (now : Nat × Nat) (stage s : Nat) (rs : List Nat) : Job :=
  let k := stage * 36864 + s
  let m := mput 0 b.reports k (mget 0 b.reports k + 1)
  let stamps := mget [] b.tideStamps stage
  { b with
    reports := m
    tideStamps := if rs.all fun r => stamps.length < mget 0 m (stage * 36864 + r) then mput [] b.tideStamps stage (stamps ++ [now])
      else b.tideStamps }

/-- TIDE_REPORT (R307): a token that has reached perimeter control. One of a reporter of its job is counted; any other is taken
without effect. -/
def Dev.tideReport (d : Dev) (t : TimeBase) (i : Nat) (p : Port) (c : Cls) : Dev :=
  let node := pcNode i
  match d.arrived node p c with
  | none => d
  | some tr =>
    if tr.answer then d else
    let f := tr.flit
    let take (d : Dev) : Dev := d.takeFlit node p c
    match tr.src with
    | .site s =>
      match d.jobOfSite s.val with
      | none => take d
      | some j =>
        d.unitGate t j (d.ctrN (0x4000 + j) 0x13) i 3 10 tr take fun d =>
          let d1 := take d
          let stage := payWord f.payload 0 % 256
          let b := d1.job j
          if f.kind = 0 ∧ f.queue = 0 ∧ b.plan.any (fun p => (p.reporters stage).contains s.val) then
            d1.setJob j (b.tideToken (t.ns, t.elapsed) stage s.val ((b.plan.elim [] fun p => p.reporters stage)))
          else d1
    | _ => take d

/-- TIDE_REPORT. -/
def execTideReport (i : IsleId) (p : Port) (c : Cls) (s : State) : Host.Outcome State Fault Refusal :=
  act s fun t d => d.tideReport t i.val p c

/-- A tide point of a stage reaches the stream arbiters of the job's isles, with its stamp (R270, R271); cycles may form
(R283). -/
def Dev.stampTide (d : Dev) (t : TimeBase) (j stage n stamp : Nat) : Dev :=
  (d.job j).isles.foldl (fun d i =>
    let a := d.arb i
    let k := j * 256 + stage
    (d.setArb i { a with
      tides := mput 0 a.tides k n, stamps := mput [] a.stamps k (((n, stamp) :: mget [] a.stamps k).take 256) }).trackCycles t i) d

/-- What a job tide point does (R308, R375, R416, R440, R441, R493): the batch steps it completes, the hold of a stalled ring, the
end of the work unit; the writes and the membership that wait take effect; then the decision of the group, and the drain that
waits for it. -/
def Dev.jobTide (d : Dev) (t : TimeBase) (j : Nat) (stamp : Nat × Nat) (errs : HbmErrs) : Dev :=
  let d1 := d.bump (0x4000 + j) 0x17 1
  let n := d1.ctrN (0x4000 + j) 0x17
  let x := d1.job j
  let d2 := d1.setJob j { x with
    hold := d1.ringHold j,
    srv := { x.srv with steps := x.srv.steps.map fun s => if s.tideAt.isNone ∧ s.tide ≤ n then { s with tideAt := some stamp.1 } else s } }
  let d2 := ((d2.unitEnd t j stamp).takeWrites j).applyMembership t j errs
  let d3 := (d2.groupOf j).elim d2 (d2.decide_ t)
  let b := d3.job j
  if b.state ≠ 2 ∨ b.stopping then d3
  else
    let sw : Bool := (d3.groupOf j).any fun g => ((d3.group g).next.isSome || !d3.dispatchable g j) && decide ((d3.group g).running = some j)
    if b.atTide ≠ 0 then d3.startDrain t j
    else if sw then (d3.setJob j { b with atTide := 3 }).startDrain t j
    else d3

/-- TIDE_POINT (R307): every reporter of the stage has sent its token. -/
def Dev.tidePoint (d : Dev) (t : TimeBase) (j stage : Nat) (errs : HbmErrs) : Dev :=
  let b := d.job j
  match b.plan with
  | none => d
  | some p =>
    let rs := p.reporters stage
    let got (s : Nat) : Nat := mget 0 b.reports (stage * 36864 + s)
    if rs.isEmpty ∨ ¬ (b.state = 2 ∨ b.state = 3) ∨ b.stopping ∨ rs.any (fun s => decide (got s = 0)) then d
    else
      let n := mget 0 b.stageTides stage + 1
      let d1 := d.setJob j { b with
        reports := rs.foldl (fun m s => mput 0 m (stage * 36864 + s) (mget 0 m (stage * 36864 + s) - 1)) b.reports,
        tideStamps := mput [] b.tideStamps stage ((mget [] b.tideStamps stage).drop 1),
        stageTides := mput 0 b.stageTides stage n }
      let stamp := (mget [] b.tideStamps stage).headD (t.ns, t.elapsed)
      let d2 := d1.stampTide t j stage n stamp.1
      let d3 := match (stageRecs p.image).find? fun s => decide (s.stage = stage) with
        | some s => d2.isleTide (rotIsle p.rho s.isle)
        | none => d2
      if stage = p.tideStage then d3.jobTide t j stamp errs else d3

/-- TIDE_POINT. -/
def execTidePoint (j : Reads JobId) (stage : Byte) (s : State) : Host.Outcome State Fault Refusal :=
  act s fun t d => d.tidePoint t j.val.val stage.toNat j.errs

/-! ### Forced reconfiguration (R311) -/

/-- A flit is of a job: it comes from its partition or goes there. -/
def Job.owns (b : Job) (x : Transit) : Bool :=
  (match nodeReef x.src with | some r => b.reefs.contains r | none => false) ||
  (match x.target with
   | .site s => b.reefs.contains (siteReef s)
   | .lagoon r => b.reefs.contains r
   | _ => false)

/-- A router of the partition holds a flit of the job, or an isthmus group a flit or an unacknowledged frame that carries one. -/
def Dev.networkHolds (d : Dev) (j : Nat) : Bool :=
  let b := d.job j
  let near (k : Nat) : Bool :=
    let n := k / 36
    if n < 36864 then b.reefs.contains (siteReef n)
    else if n < 39168 then b.reefs.contains ((n - 36864) / 16)
    else if n < 39312 then b.reefs.contains (n - 39168)
    else if 39376 ≤ n then b.reefs.contains ((n - 39376) / 32) else false
  d.fabric.bufs.any (fun e => near e.1 && e.2.any b.owns) ||
  d.bridges.any fun e => e.2.groups.any fun g =>
    g.2.localQ.any b.owns || g.2.transitQ.any b.owns || g.2.rx.any (fun x => b.owns x.1) || g.2.tail.any (fun x => b.owns x.2) ||
      g.2.early.any (fun f => f.sent.any b.owns) || g.2.unacked.any fun f => f.2.sent.any b.owns

/-- FORCED_QUIET_END (R311, R585): once the network is found to hold no flit of the job, `FORCED_QUIET` more passes
(assumption 137); then the discards are added and the stop ends; the next Begin epoch on the reefs is forced. -/
def Dev.forcedQuietEnd (d : Dev) (t : TimeBase) (j : Nat) : Dev :=
  let b := d.job j
  if b.quietAt.isNone ∨ ¬ b.stopping then d
  else if d.networkHolds j then d.setJob j { b with emptyAt := none }
  else match b.emptyAt with
  | none => d.setJob j { b with emptyAt := some t.elapsed }
  | some e =>
    if t.elapsed < e + b.quietFor then d
    else
      let d1 := d.collectDiscards t j
      let d2 := d1.forceNext j
      let g := d2.groupOf j
      let run : Bool := g.any fun g => decide ((d2.group g).running = some j)
      let d3 := d2.endStop t j
      match g, run with
      | some g, true => (d3.setGroup g { d3.group g with blocked := some (j, 1, d3.ctrN (0x4000 + j) 0x1C) }).groupStart t g
      | _, _ => d3

/-- FORCED_QUIET_END. -/
def execForcedQuietEnd (j : JobId) (s : State) : Host.Outcome State Fault Refusal := act s fun t d => d.forcedQuietEnd t j.val

/-! ### Clearing (R188, R298) -/

/-- The clearing program's effect on a site, under the epoch that its Begin epoch carried (R298). -/
def Site.cleared (x : Site) (epoch : BitVec 4) : Site :=
  { x with
    sram := mdrop (fun a => decide (a < 0xBA80)) x.sram, tiles := [], tmeta := mmap 0 (fun _ w => w &&& 0xFE3F#16) x.tmeta, sregs := [],
    vregs := [], sticky := 0, epoch := epoch, setup := none, ctxs := [], order := [], armed := false, queues := [], stopped := none,
    controlStop := false }

/-- Epoch of the transition under way (R310). -/
def Dev.nextEpoch (d : Dev) (j : Nat) : Nat := if (d.job j).begun then (d.ctrN (0x4000 + j) 0x13 + 1) % 16 else 0

/-- CLEARING_PROGRAM_END (R298): the site's report. -/
def Dev.clearingEnd (d : Dev) (s : Nat) : Dev :=
  match d.jobs.find? fun e => e.2.clearing.contains s with
  | none => d
  | some (j, b) =>
    let d1 := d.setSite s ((d.site s).cleared (BitVec.ofNat 4 (d.nextEpoch j)))
    d1.setJob j { b with clearing := b.clearing.filter fun x => decide (x ≠ s) }

/-- CLEARING_PROGRAM_END. -/
def execClearingProgramEnd (s : SiteId) (st : State) : Host.Outcome State Fault Refusal := act st fun _ d => d.clearingEnd s.val

/-! ### Epoch transition: steps 1 and 2 (R310) -/

/-- The new regions of a lagoon that hold a unit which no region of their slot covered before (R188). -/
def Lagoon.toZero (l : Lagoon) (new : List W64) : List Nat :=
  (List.range new.length).filter fun i =>
    let w := new.getD i 0
    lrKind w ≠ 0 && !(l.regions.any fun e => decide (lrKind e.2 ≠ 0) && decide (lrSlot e.2 = lrSlot w) && decide (lrBase e.2 ≤ lrBase w) &&
      decide (lrBase w + lrSize w ≤ lrBase e.2 + lrSize e.2))

/-- Lagoon zeroing starts, cache regions are invalidated, the regions that the load allocated are zero-filled, and the sites that
change slot run the clearing program. -/
def Dev.transitionStart (d0 : Dev) (j : Nat) (p : Plan) : Dev :=
  let d := if (d0.job j).saved then d0 else d0.zeroRegions j
  let d1 := (reefRecs p.image).foldl (fun d r =>
    let n := p.reef r.isle r.reef
    let l := d.lag n
    let zs := l.toZero r.regions
    let hit (e : Nat) : Bool := zs.any fun i => decide (lrBase (r.regions.getD i 0) ≤ e) && decide (e < lrBase (r.regions.getD i 0) + lrSize (r.regions.getD i 0))
    d.setLag n { l with mem := mdrop hit l.mem, zeroing := zs, cache := [], fills := [], fillData := [] }) d
  d1.setJob j { d1.job j with
    trans := 2, clearing := (p.recSites.filter fun s => decide ((d1.site s).lastSlot ≠ some (d1.slotOf j))).foldl insNat [] }

/-- Steps 1 and 2 have ended everywhere: no site clears, no lagoon region of the partition and no HBM region of the job is being
zeroed. -/
def Dev.transitionReady (d : Dev) (j : Nat) : Bool :=
  let b := d.job j
  b.clearing.isEmpty && b.reefs.all (fun r => (d.lag r).zeroing.isEmpty) &&
    b.regions.all fun r => !(d.stk r.2.1).zeroing.contains r.2.2.2.2.1

/-! ### Epoch transition: step 3 (R297, R316) -/

/-- Tide count of a stage at the start of the epoch. -/
def Job.tideCount (b : Job) (stage : Nat) : Nat := if b.saved then mget 0 b.stageTides stage else 0

/-- The resume block of a site (R316). -/
def resumeBlock (p : Plan) (b : Job) (r : SiteRec) : List Byte :=
  (List.range 32).flatMap fun k =>
    le 4 (match (epochRecs p.image).find? fun e => decide (e.rtype = 2 ∧ e.isle = r.isle ∧ e.x = r.x ∧ e.y = r.y ∧ e.trig = k) with
      | some e => (e.ctr0 + b.tideCount r.stage * e.perUnit) % 2 ^ 20
      | none => 0)

/-- The loader's writes of a site (R297, R316). -/
def Site.load (x : Site) (p : Plan) (b : Job) (r : SiteRec) : Site :=
  let desc := r.desc.zipIdx.map fun (w, i) => if 112 ≤ i then p.route w else w
  let y : Site := { x with
    prog := mputs 0 [] 0 (r.prog.take 1024),
    trigs := (List.range 32).foldl (fun m k => mput {} m k { mget {} x.trigs k with word := r.trigs.getD k 0 }) x.trigs,
    tmeta := match (budRecs p.image).find? fun k => decide (k.isle = r.isle ∧ k.x = r.x ∧ k.y = r.y) with
      | some k => mputs 0 [] 0 k.tiles
      | none => [] }
  let y := y.wr 0xBA80 (desc.flatMap fun w => le 8 w.toNat)
  let y := r.extents.foldl (fun (y : Site) e => y.wr e.1 (e.2.flatMap fun w => le 8 w.toNat)) y
  if p.flag 2 then y.wr 0xBA00 (resumeBlock p b r) else y

/-- Sites: images, then Begin epoch to each (R310, steps 3 and 5). Sites without a record take the epoch (assumption 28). -/
def Dev.loadSites (d : Dev) (j : Nat) (p : Plan) (epoch : BitVec 4) (forced : Bool) : Dev :=
  let b := d.job j
  let d1 := b.sites.foldl (fun d s => d.setSite s { d.site s with epoch := epoch }) d
  (siteRecs p.image).foldl (fun d r =>
    let s := p.site r.isle r.x r.y
    d.setSite s { ((d.site s).load p b r).begin_ epoch forced with lastSlot := some (d.slotOf j) }) d1

/-- Lagoons of the partition: tables, groups, pairs and agents (R310, steps 3, 4 and 6). -/
def Dev.loadLagoons (d : Dev) (j : Nat) (p : Plan) (epoch : BitVec 4) (forced : Bool) : Dev :=
  let recs := reefRecs p.image
  (d.job j).reefs.foldl (fun d n =>
    let l := d.lag n
    let base : Lagoon := { l with
      discard := l.discard + (if forced then l.waits.length + l.mcq.length + b2n l.mc.isSome else 0),
      regions := [], chans := [], epoch := epoch, forced := forced, spillFull := [], cache := [], fills := [], fillData := [], pairs := [],
      waits := [], groups := [], mcq := [], mc := none, mustForce := false }
    match recs.find? fun r => decide (p.reef r.isle r.reef = n) with
    | none => d.setLag n base
    | some r =>
      d.setLag n { base with
        regions := mputs 0 [] 0 r.regions,
        chans := mputs {} [] 0 (r.chans.map fun (a, c) => ({ w0 := a, w1 := p.route c } : Channel)),
        groups := mputs [] [] 0 (r.groups.map fun g => (g.map fun (o, q) =>
          let s := p.site r.isle (o % 96) (o / 96)
          (siteY s * 96 + siteX s) * 64 + q).foldl insNat []) }) d

/-- The first block of a stream whose effective tide is at least a count, as pass and position (R316). -/
def Stream.resumePos (s : Stream) (blocks : List (List W64)) (n : Nat) : Nat × Nat :=
  let passes := if s.d.loops = 0 then 65536 else s.d.loops
  let tide (k : Nat) : Nat := { s with pass := k / s.d.nblk : Stream }.tideOf (blockOf (blocks.getD (k % s.d.nblk) []))
  match (List.range (passes * s.d.nblk)).find? fun k => decide ((tide k + 65536 - n % 65536) % 65536 < 32768) with
  | some k => (k / s.d.nblk, k % s.d.nblk)
  | none => (passes, 0)

/-- A stream of the image in device terms (R294, R295). -/
def Dev.streamOf (d : Dev) (j : Nat) (p : Plan) (isle : Nat) (z : StreamRec) : Stream :=
  let b := d.job j
  let w (i : Nat) : Nat := (z.words.getD i 0).toNat
  let w0 := w 0 / 2 ^ 40 * 2 ^ 40 + (if z.dir = 0 then bits (w 0) 39 0 else b.ha (bits (w 0) 39 0) % 2 ^ 40)
  let w1 := w 1 / 2 ^ 18 * 2 ^ 18 + p.reefIn isle (bits (w 1) 17 12) * 2 ^ 12 + bits (w 1) 11 0
  let w4 := bits (w 4) 39 0 + d.slotOf j % 64 * 2 ^ 40 + j * 2 ^ 46 + w 4 / 2 ^ 54 * 2 ^ 54
  let s : Stream := { words := [w0, w1, w 2, w 3, w4].map (BitVec.ofNat 64) }
  if b.saved ∧ z.dir ≠ 0 then
    let (pass, next) := s.resumePos z.blocks (b.tideCount s.d.anchor)
    { s with pass := pass, next := next, done := decide (s.d.loops ≠ 0 ∧ s.d.loops ≤ pass) }
  else s

/-- What requests in flight are for is gone: they deliver nothing. -/
def Dev.orphan (d : Dev) (gone : ReplyTo → Bool) : Dev :=
  let cut (l : List HbmReq) : List HbmReq := l.map fun r => if gone r.reply then { r with reply := .none } else r
  { d with hbms := mmap {} (fun _ (k : Stack) => { k with arriving := cut k.arriving, queue := cut k.queue, issued := cut k.issued }) d.hbms }

/-- A reply to a stream, a spill or a refill of an isle, of a job's streams and reefs. -/
def Dev.ofStreams (d : Dev) (i : Nat) (sids reefs : List Nat) (r : ReplyTo) : Bool :=
  match r with
  | .stream k sid _ _ | .list k sid _ => decide (k.val = i) && sids.contains sid
  | .spill k _ => decide (k.val = i) && (d.arb i).escape.any fun e => sids.contains e.sid
  | .refill rf _ => decide (rf.val / 36 = i) && reefs.contains rf.val
  | _ => false

/-- The streams of a job leave the arbiters, and its pairs the semaphore map; its escape chunks are free (R282, R596). -/
def Dev.dropStreams (d : Dev) (t : TimeBase) (j : Nat) : Dev :=
  let reefs := (d.job j).reefs
  (List.range 4).foldl (fun d i =>
    let a := d.arb i
    let sids := (a.streams.filter fun e => decide (e.2.job = j)).map (·.1)
    let d1 := (d.orphan (d.ofStreams i sids reefs)).setArb i { a with
      streams := a.streams.filter fun e => decide (e.2.job ≠ j),
      semMap := a.semMap.filter fun e => !reefs.contains (i * 36 + (e.2 - 1) / 128),
      escape := match a.escape with | some e => if (a.stream e.sid).job = j then none else some e | none => none,
      tides := mdrop (fun k => decide (k / 256 = j)) a.tides, stamps := mdrop (fun k => decide (k / 256 = j)) a.stamps }
    ((d.chunksOf i j).foldl (fun d c => d.freeChunk i c) d1).trackCycles t i) d

/-- The jobs that share a partition with a job. -/
def Dev.mates (d : Dev) (j : Nat) : List Nat :=
  d.jobs.filterMap fun (k, b) => if k ≠ j ∧ b.reefs.any ((d.job j).reefs.contains ·) then some k else none

/-- Stream arbiters: the job's streams, routes, semaphore map and tide counts; what the partition's last epoch left is dropped, its
escape chunks released; then the pairs of the streams have every pool slot free, and the lists are read ahead (R267, R282,
R310). -/
def Dev.loadStreams (d : Dev) (t : TimeBase) (j : Nat) (p : Plan) : Dev :=
  let b := d.job j
  let d0 := (j :: d.mates j).foldl (fun d k => d.dropStreams t k) d
  let d1 := (semRecs p.image).foldl (fun d r =>
    let i := rotIsle p.rho r.isle
    let a := d.arb i
    d.setArb i { a with semMap := r.pairs.foldl (fun m (id, reef, slot) => mput 0 m id (p.reefIn r.isle reef * 128 + slot + 1)) a.semMap }) d0
  let d2 := (streamsRecs p.image).foldl (fun d r =>
    let i := rotIsle p.rho r.isle
    let a := d.arb i
    let ss := r.streams.map fun z => (z.sid, d.streamOf j p r.isle z)
    let d1 := d.setArb i { a with
      routes := mputs 0 [] 0 (r.routes.map p.route), streams := ss.foldl (fun m e => mput {} m e.1 e.2) a.streams }
    ss.foldl (fun d (sid, s) =>
      if s.d.dir = 0 then d
      else match d.pairAt i s.d.pair with
        | some (n, q) => (d.setPair n q { empty := BitVec.ofNat 16 s.d.poolSlots }).askList i sid
        | none => d.askList i sid) d1) d1
  (((stageRecs p.image).map (·.stage)).foldl insNat []).foldl (fun d s => d.stampTide t j s (b.tideCount s) t.ns) d2

/-- The windows of a job leave the controllers, with what they hold. -/
def Dev.dropWindows (d : Dev) (j : Nat) : Dev :=
  { d with hbms := mmap {} (fun _ (k : Stack) =>
    let old := (k.windows.filter fun e => decide (k.winJob e.1 = j)).map (·.1)
    { k with
      windows := k.windows.filter fun e => !old.contains e.1, reorder := k.reorder.filter fun e => !old.contains e.window,
      waits := k.waits.filter fun w => !old.contains w.window }) d.hbms }

/-- Controller windows of the job, with their epoch; the counters of its windows are zero (R250, R295, R310). -/
def Dev.loadWindows (d : Dev) (j : Nat) (p : Plan) (epoch : Nat) : Dev :=
  let d0 := d.dropWindows j
  (winRecs p.image).foldl (fun d r =>
    let n := rotIsle p.rho r.isle * 4 + r.k
    let k := d.stk n
    let w := r.d
    let ha := (d.job j).ha (w.region * 2 ^ 32 + w.off)
    let a := (r.w.getD 0 0).toNat
    let c := (r.w.getD 1 0).toNat
    let x : Window := {
      w0 := BitVec.ofNat 64 (a / 2 ^ 32 * 2 ^ 32 + ha / 256 % 2 ^ 32),
      w1 := BitVec.ofNat 64 (bits c 17 0 + d.slotOf j % 64 * 2 ^ 18 + j * 2 ^ 24 + c / 2 ^ 32 * 2 ^ 32), w2 := p.route (r.w.getD 2 0) }
    d.setStk n { k with
      windows := mput {} k.windows r.win x, epochs := mput 0 k.epochs r.win epoch,
      counters := if 4 ≤ w.mode then mput 0 k.counters w.counter 0 else k.counters }) d0

/-- Firmware opens an atomic window over the request table and one over the page table of a serving job (R239, R244): on each table's
stack the highest window that is off, of S × P entries from the table on, without a reply route (assumption 146). -/
def Dev.openTables (d : Dev) (j : Nat) (p : Plan) (epoch : Nat) : Dev :=
  (srvRec p.image).elim d fun r => [(0, r.maxReq * 64), (1, r.maxReq * (r.maxCtx / 16) * 4)].foldl (fun d (k, bytes) =>
    let ha := (d.job j).ha (r.addrs.getD k 0)
    let n := ha / 2 ^ 36
    let x := d.stk n
    match (List.range 64).reverse.find? fun q => decide ((x.win q).mode = 0) with
    | none => d
    | some q =>
      let per := min 1024 (max 1 (ceilDiv (bytes / 32) (2 ^ 20)))
      let slots := min (2 ^ 20) (max 1 (bytes / 32 / per))
      d.setStk n { x with
        windows := mput {} x.windows q {
          w0 := BitVec.ofNat 64 (ha / 256 % 2 ^ 32 + 3 * 2 ^ 32 + (slots - 1) * 2 ^ 35),
          w1 := BitVec.ofNat 64 (per - 1 + d.slotOf j % 64 * 2 ^ 18 + j * 2 ^ 24) },
        epochs := mput 0 x.epochs q epoch }) d

/-- Bytes of a list replaced at an offset. -/
def patch (b : List Byte) (o : Nat) (x : List Byte) : List Byte := b.take o ++ x ++ b.drop (o + x.length)

/-- A causeway record in device terms (R294). -/
def Plan.cwRecord (p : Plan) (r : List Byte) : List Byte :=
  let c := cwRecOf r
  let r1 := patch (patch r 0 (le 1 (rotIsle p.rho c.isle))) 33 (le 1 (rotIsle p.rho c.recIsle))
  let r2 := (List.range 16).foldl (fun r i => patch r (48 + 4 * i) (le 1 (p.reefIn c.isle (c.ring.getD i (0, 0)).1))) r1
  (List.range 64).foldl (fun r i => patch r (624 + 8 * i) (le 8 (p.route (c.routes.getD i 0)).toNat)) r2

/-- The root of the prefix index (R380, Table 12-7): no tokens, no set, no parent; its children are the nodes under it. -/
def Serving.rootBytes (v : Serving) : List Byte :=
  List.replicate 64 0 ++ List.replicate 8 0xFF ++ le 4 0 ++
    le 4 (v.nodes.filter fun e => e.2.any fun x => decide (x.parent = 0)).length ++ List.replicate 48 0

/-- Causeways and mask engines of the job; the root of its prefix index. Ring records that no student row matched are added to
`JOB_DISCARDS` of the job whose they are (R357). -/
def Dev.loadUnits (d : Dev) (t : TimeBase) (j : Nat) (p : Plan) (epoch : BitVec 4) : Dev :=
  let units := (cwBytes p.image).map fun r => (rotIsle p.rho (cwRecOf r).isle, p.cwRecord r)
  let d0 := (d.cause.filter fun e => decide (e.2.job = some j) || units.any fun x => decide (x.1 = e.1)).foldl (fun d e =>
    let d1 := d.cwClock t e.1
    d1.bump (0x4000 + e.2.job.getD j) 0x16 e.2.unmatched) d
  let d1 : Dev := { d0 with
    cause := d0.cause.filter fun e => decide (e.2.job ≠ some j), masks := d0.masks.filter fun e => decide (e.2.job ≠ some j) }
  let d2 := units.foldl (fun d x => d.setCw x.1 (Causeway.begin_ x.2 (some j) epoch)) d1
  let d3 := ((srvRec p.image).elim [] (·.engines)).foldl (fun d e => d.setMask (rotIsle p.rho e.1) { job := some j }) d2
  match srvRec p.image with
  | some r => d3.jobWrite t j (r.addrs.getD 5 0) 0 (d3.job j).srv.rootBytes
  | none => d3

/-- Saved lagoon regions: the lagoon and its first entry, its entries, and the save address (Table 9-9, type 3); nothing of a
soft-target ring is saved (R357). -/
def Dev.saves (d : Dev) (j : Nat) (p : Plan) : List (Nat × Nat × Nat × Nat) :=
  ((epochRecs p.image).filter fun e => decide (e.rtype = 3)).filterMap fun e =>
    let n := p.reef e.isle e.x
    let w := (((reefRecs p.image).find? fun r => decide (r.isle = e.isle ∧ r.reef = e.x)).map fun r => r.regions.getD e.y 0).getD 0
    if lrKind w = 5 then none else some (n, lrBase w, lrSize w, (d.job j).ha e.savePa)

/-- Saved lagoon regions are restored through the isle's stream engines (R233, R316), or a sector of one is uncorrectable. -/
def Dev.restoreSaves (d : Dev) (t : TimeBase) (j : Nat) (p : Plan) (errs : HbmErrs) : Bool × Dev :=
  (d.saves j p).foldl (fun (a : Bool × Dev) (n, base, size, ha) =>
    let (k, s) := (ha / 2 ^ 36, ha % 2 ^ 36 / 32)
    if ¬ a.1 then a
    else match (a.2.owe k s size { cls := 1, deadline := t.ns, who := .job (d.slotOf j) j, job := some j }).readSectors t k s size errs (some j) with
      | (ws, none, d1) => (true, d1.setLag n { d1.lag n with mem := mputs 0 (d1.lag n).mem base ws })
      | (_, some _, d1) => (false, d1)) (true, d)

/-- Lagoon regions are saved through the isle's stream engines (R186, R233, R315), or a word of one is uncorrectable; the errors of
the command are found in the first. -/
def Dev.saveLagoons (d : Dev) (t : TimeBase) (j : Nat) (p : Plan) (e : Ecc) : Bool × Dev :=
  ((d.saves j p).zipIdx).foldl (fun (a : Bool × Dev) ((n, base, size, ha), i) =>
    let (k, s) := (ha / 2 ^ 36, ha % 2 ^ 36 / 32)
    if ¬ a.1 then a
    else match a.2.lagEcc t n (if i = 0 then e else {}) with
      | (true, d1) => (true, (d1.writeSectors k s (mgets 0 (d1.lag n).mem base size)).owe k s size
          { cls := 3, write := true, who := .job (d.slotOf j) j, job := some j })
      | (false, d1) => (false, d1)) (true, d)

/-! ### Epoch transition: the end (R310, steps 3 to 7) -/

/-- Steps 3 to 7: the job runs in its new epoch. -/
def Dev.transitionEnd (d : Dev) (t : TimeBase) (j : Nat) (p : Plan) (errs : HbmErrs) : Dev :=
  let b := d.job j
  let e := d.nextEpoch j
  let ep : BitVec 4 := BitVec.ofNat 4 e
  let forced : Bool := b.reefs.any fun r => (d.lag r).mustForce
  let d1 := (d.loadSites j p ep forced).loadLagoons j p ep forced
  let d3 := (((d1.loadStreams t j p).loadWindows j p e).openTables j p e).loadUnits t j p ep
  let x := d3.job j
  let d4 := (d3.setJob j { x with
    trans := if forced ∧ !(siteRecs p.image).isEmpty then 3 else 0, begun := true, stageTides := if b.saved then b.stageTides else [],
    reports := [], tideStamps := [], held := [], drained := [], drainLeft := 0, atTide := 0, inSince := t.elapsed, unitStart := t.elapsed, saved := false,
    suspended := none }).setCtr (0x4000 + j) 0x13 e
  (d4.jobTo t j 2 0).applyMembership t j errs

/-- EPOCH_TRANSITION (R310): steps 1 and 2 start together; once they have ended everywhere, the rest follows, after what a resumed
job has saved is restored (R316). -/
def Dev.epochTransition (d : Dev) (t : TimeBase) (j : Nat) (errs : HbmErrs) : Dev :=
  let b := d.job j
  match b.plan with
  | none => d
  | some p =>
    if b.trans = 1 then d.transitionStart j p
    else if b.trans = 2 ∧ d.transitionReady j then
      if b.saved then (let (ok, d1) := d.restoreSaves t j p errs
                       if ok then d1.transitionEnd t j p errs else d1)
      else d.transitionEnd t j p errs
    else d

/-- EPOCH_TRANSITION. -/
def execEpochTransition (j : Reads JobId) (s : State) : Host.Outcome State Fault Refusal :=
  act s fun t d => d.epochTransition t j.val.val j.errs

/-! ### Context switches (R315, R441, R447) -/

/-- What a switch may delay an admitted member's unit by (R447, Table 14-2): a spill or an escape that the drain waited for, or the
clearing between slots, which has no status code (0, assumption 149); else what already delays it. -/
def Dev.switchDelay (d : Dev) (g j : Nat) : Option (Nat × Nat × Nat) :=
  let x := d.group g
  match (d.job j).drainSpill with
  | some c => some (j, 2, c)
  | none => if x.next.any fun k => decide (d.slotOf k ≠ d.slotOf j) then some (j, 1, 0) else x.blocked

/-- CONTEXT_SWITCH_OUT (R315): lagoon regions go to their save areas, and the partition to the job to be switched in. -/
def Dev.contextSwitchOut (d : Dev) (t : TimeBase) (j : Nat) (e : Ecc) : Dev :=
  let b := d.job j
  match b.plan, d.groupOf j with
  | some p, some g =>
    if b.state ≠ 3 ∨ b.drainAt.isSome ∨ b.atTide ≠ 3 ∨ b.stopping then d
    else match d.saveLagoons t j p e with
    | (false, d1) => d1
    | (true, d1) =>
      let d2 := d1.setJob j { d1.job j with saved := true, atTide := 0 }
      let d3 := p.partition.foldl (fun d r => d.repairReef r) ((d2.jobTo t j 5 0).bump 0x2600 6 1)
      let d4 := d3.setGroup g { d3.group g with blocked := d3.switchDelay g j }
      match (d4.group g).next with
      | some k => d4.switchIn t g k
      | none => (d4.setGroup g { d4.group g with running := none }).groupStart t g
  | _, _ => d

/-- CONTEXT_SWITCH_OUT. -/
def execContextSwitchOut (j : Checked JobId) (s : State) : Host.Outcome State Fault Refusal :=
  act s fun t d => d.contextSwitchOut t j.val.val j.ecc

end Sys2Proof.Machine
end

