-- ==== Sys2Proof/Machine/Serving.lean ====
section
/-! DEFINITION. The serving engine (chapter 12): submissions, KV pages, the prefix index, batch steps, the mask engine and its
sampler, step completion and boundaries. -/
namespace Sys2Proof.Machine

/-! ### Tables in HBM (R370, R373, R376, R380; assumption 29)

Firmware keeps requests, page tables and the prefix index itself; what changes there it also writes into the job's tables. -/

def Dev.srvOf (d : Dev) (j : Nat) : Option SrvRec := (d.job j).plan.bind fun p => srvRec p.image
def SrvRec.addr (r : SrvRec) (k : Nat) : Nat := r.addrs.getD k 0

def none32 : Nat := 0xFFFFFFFF

/-- An index node (Table 12-7). -/
def IndexNode.bytes (x : IndexNode) : List Byte :=
  (List.range 16).flatMap (fun i => le 4 (x.toks.getD i 0).toNat) ++ le 4 x.set ++ le 4 x.parent ++ le 4 x.refs ++ le 4 x.nchild ++
    le 8 x.lastUse ++ List.replicate 40 0

/-- An index bucket (Table 12-8). -/
def IndexBucket.bytes (x : IndexBucket) : List Byte := le 8 x.fp.toNat ++ le 4 x.child ++ le 4 x.parent ++ List.replicate 16 0

/-- What changed since the serving state `old` is written into the tables of the job. -/
def Dev.syncTables (d : Dev) (j : Nat) (old : Serving) : Dev :=
  let b := d.job j
  let v := b.srv
  match d.srvOf j with
  | none => d
  | some r =>
    let at_ (k off : Nat) : Nat := b.ha (r.addr k) + off
    let d1 := v.nodes.foldl (fun d (n, x) =>
      if x = mget none old.nodes n then d else match x with
        | some x => d.poke (.job (d.slotOf j) j) (some j) (at_ 5 (128 * n)) x.bytes
        | none => d) d
    let d2 := if v.rootBytes = old.rootBytes then d1 else d1.poke (.job (d.slotOf j) j) (some j) (at_ 5 0) v.rootBytes
    let d3 := v.buckets.foldl (fun d (n, x) => if x = mget {} old.buckets n then d else d.poke (.job (d.slotOf j) j) (some j) (at_ 6 (32 * n)) x.bytes) d2
    v.reqs.foldl (fun d (n, q) =>
      let o := old.req n
      let fresh : Bool := decide (q.gen ≠ o.gen)
      let had := if fresh then 0 else o.tokens.length
      let d1 := if fresh then d.poke (.job (d.slotOf j) j) (some j) (at_ 0 (64 * n)) q.params else d
      let d2 := d1.poke (.job (d.slotOf j) j) (some j) (at_ 2 ((n * r.maxCtx + had) * 4)) ((q.tokens.drop had).flatMap fun x => le 4 x.toNat)
      let page (k : Nat) : Nat := at_ 1 ((n * (r.maxCtx / 16) + k) * 4)
      let d3 := if fresh then d2.poke (.job (d.slotOf j) j) (some j) (page 0) (List.replicate (4 * (r.maxCtx / 16)) 0xFF) else d2
      (if fresh then [] else o.pages.map (·.1)) |>.foldl (fun d k =>
        if mget 0 q.pages k = 0 then d.poke (.job (d.slotOf j) j) (some j) (page k) (le 4 none32) else d)
        (q.pages.foldl (fun d (k, s) => if ¬ fresh ∧ mget 0 o.pages k = s then d else d.poke (.job (d.slotOf j) j) (some j) (page k) (le 4 (s - 1))) d3)) d3

/-- A serving operation, with the tables written after it. -/
def Dev.serve (d : Dev) (j : Nat) (f : Dev → Dev) : Dev := (f d).syncTables j (d.job j).srv

def Dev.setServing (d : Dev) (j : Nat) (v : Serving) : Dev := d.setJob j { d.job j with srv := v }

/-! ### SUBMIT, CANCEL (R367 to R370, R393, R495) -/

/-- The next entry of a host-written ring is read: the ring, of a kind, enabled, holds one, and its host die is up. -/
def Dev.takeEntry (d : Dev) (r kind : Nat) : Option Dev :=
  let g := d.rng r
  let up : Bool := if d.objN (0x2710 + r) 4 = 0 then d.pu.pcie0 else d.pu.pcie1
  if g.enabled ∧ d.objN (0x2710 + r) 1 = kind ∧ g.dev ≠ g.host ∧ up then
    some ((d.setRng r { g with dev := g.dev + 1 }).bump (0x2710 + r) 8 1)
  else none

/-- A parameter block agrees with Table 12-3 and with the job's mask tables. -/
def paramsBad (r : SrvRec) (img : List Byte) (p : List Byte) : Bool :=
  let f := fieldAt p
  let mask := bits (f 20 1) 1 0
  let m := r.masks.getD (f 21 1) (0, 0, 0)
  decide (0x7F800000 ≤ f 8 4) || decide (256 < f 12 2) || decide (8 < f 14 2) || decide (f 16 4 = 0) || decide (0x3F800000 < f 16 4) ||
    decide (3 ≤ f 20 1) || decide (63 < f 21 1) || decide (f 22 2 ≠ 0) || (bytesAt p 44 20).any (fun x => decide (x ≠ 0)) ||
    (decide (mask ≠ 0) && (decide (r.masks.length ≤ f 21 1) || decide (m.2.1 ≠ mask))) ||
    (decide (mask = 2) && decide (fieldAt (initBytes img m.1 4) 0 4 ≤ f 24 4)) ||
    (List.range 4).any fun i => decide (r.v ≤ f (28 + 4 * i) 4) && decide (f (28 + 4 * i) 4 ≠ none32)

/-- The code with which firmware refuses an operation (R369), if it does. -/
def Dev.refusalOf (d : Dev) (j : Nat) (desc buf : List Byte) (gcmOk : Bool) : Option Nat :=
  let f := fieldAt desc
  let b := d.job j
  let op := bits (f 0 1) 3 0
  let n := f 4 4
  let q := b.srv.req n
  let open_ : Bool := (mget none b.srv.sessions (f 2 1)).any fun x => !x.closing
  match d.srvOf j, b.plan with
  | some r, some p =>
    if op = 0 ∨ 2 < op ∨ !open_ ∨ r.maxReq ≤ n ∨ b.state ≠ 2 ∨
        (op = 1 ∧ (q.state ≠ .free ∨ q.gen = 0xFFFFFFFF)) ∨ (op = 2 ∧ (q.state = .free ∨ q.session ≠ f 2 1)) then some 0x6010
    else
      let reserved : Bool := decide (16 ≤ f 0 1) || decide (2 ≤ f 1 1) || decide (f 3 1 ≠ 0) ||
        (bytesAt desc 32 32).any (fun x => decide (x ≠ 0))
      let plen := fieldAt buf 12 4
      if op = 2 then (if reserved then some 0x6011 else none)
      else if reserved ∨ f 16 4 ≠ 96 + 4 * plen ∨ buf.length ≠ f 16 4 ∨ !gcmOk ∨ f 20 4 = 0 ∨ paramsBad r p.image (bytesAt buf 16 64) ∨
          (List.range plen).any (fun i => decide (r.v ≤ fieldAt buf (80 + 4 * i) 4)) then some 0x6011
      else if plen = 0 ∨ r.maxCtx < plen + f 20 4 then some 0x6012
      else none
  | _, _ => some 0x6010

/-- The request of an accepted submission (R370, R385, R393, R398). -/
def Dev.newRequest (d : Dev) (t : TimeBase) (j : Nat) (desc buf : List Byte) : Request :=
  let f := fieldAt desc
  let b := d.job j
  let plen := fieldAt buf 12 4
  let params := bytesAt buf 16 64
  let mask : Nat := bits (fieldAt params 20 1) 1 0
  let hash : List Byte := match d.srvOf j, b.plan with
    | some r, some p =>
      let m := r.masks.getD (fieldAt params 21 1) (0, 0, 0)
      if mask = 0 then List.replicate 48 0 else Config.sha384 (initBytes p.image m.1 m.2.2)
    | _, _ => []
  { state := .queued, session := f 2 1, policyLate := bit (f 1 1) 0, maxNew := f 20 4, deadline := f 24 8, params := params, plen := plen,
    tokens := (List.range plen).map fun i => BitVec.ofNat 32 (fieldAt buf (80 + 4 * i) 4), order := b.srv.nextOrder,
    auto := fieldAt params 24 4, gen := (b.srv.req (f 4 4)).gen + 1, inHash := Config.sha384 (params ++ bytesAt buf 80 (4 * plen)),
    tAccept := t.ns, model := b.model, maskHash := hash }

/-- An entry of a submission ring: firmware's checks in order; a refusal or a cancellation waits for the next boundary. -/
def Dev.submission (d : Dev) (t : TimeBase) (r : Nat) (desc buf : List Byte) (gcmOk : Bool) : Dev :=
  let j := d.objN (0x2710 + r) 5
  match d.takeEntry r 4 with
  | none => d
  | some d1 =>
    if d.pu.state ≠ .op ∨ d.pu.toSafeop then d
    else
      let b := d.job j
      let n := fieldAt desc 4 4
      let owe (c : Nat) : Owed := { stamp := t.ns, session := fieldAt desc 2 1, req := n, code := c }
      match d.refusalOf j desc buf gcmOk with
      | some c => (d1.setServing j { b.srv with owed := b.srv.owed ++ [owe c] }).bump 0x2900 0x16 1
      | none =>
        if bits (fieldAt desc 0 1) 3 0 = 2 then
          d1.setServing j { b.srv.setReq n { b.srv.req n with cancel := true } with owed := b.srv.owed ++ [owe 0] }
        else
          d1.serve j fun d => d.setServing j { b.srv.setReq n (d.newRequest t j desc buf) with nextOrder := b.srv.nextOrder + 1 }

/-- SUBMIT. -/
def execSubmit (r : RingId) (desc buf : List Byte) (gcmOk : Bool) (s : State) : Host.Outcome State Fault Refusal :=
  act s fun t d => d.submission t r.val desc buf gcmOk

/-- CANCEL. -/
def execCancel (r : RingId) (desc : List Byte) (s : State) : Host.Outcome State Fault Refusal :=
  act s fun t d => d.submission t r.val desc [] true

/-! ### The prefix index (R380 to R382) -/

/-- Reads of class P0 that an engine makes one after another (R233), each of n bytes at a plan address and an offset; the first one
that waits, is refused or is uncorrectable ends them. -/
def Dev.readAll (d : Dev) (t : TimeBase) (j : Nat) (errs : HbmErrs) : List (Nat × Nat × Nat) → Bool × Dev
  | [] => (true, d)
  | (pa, off, n) :: l => match d.jobRead t j 0 errs pa off n with
    | (some _, d1) => d1.readAll t j errs l
    | (none, d1) => (false, d1)

/-- Fingerprint of a chunk under a parent node. -/
def fingerprint (p : Nat) (toks : List W32) : W64 :=
  let h := toks.foldl (fun (h : W64) x => (h ^^^ x.setWidth 64) * 0x100000001B3#64) (BitVec.ofNat 64 p + 0x6A09E667F3BCC908#64)
  if h = 0 then 1 else h

/-- The buckets a lookup may probe. -/
def SrvRec.probes (r : SrvRec) (h : W64) : List Nat := (List.range 8).map fun i => (h.toNat + i) % 2 ^ r.idxLog2

def Serving.node (v : Serving) (n : Nat) : Option IndexNode := mget none v.nodes n

/-- The probes of a lookup in order: an empty bucket ends it. -/
def Serving.probe (v : Serving) (p : Nat) (toks : List W32) (h : W64) : List Nat → Option Nat
  | [] => none
  | i :: rest =>
    let k := mget ({} : IndexBucket) v.buckets i
    if k.fp = 0 then none
    else if k.fp = h ∧ k.child ≠ none32 ∧ k.parent = p ∧ (v.node k.child).any (fun x => decide (x.toks = toks)) then some k.child
    else v.probe p toks h rest

/-- `find_child`. -/
def Serving.findChild (v : Serving) (r : SrvRec) (p : Nat) (toks : List W32) : Option Nat :=
  let h := fingerprint p toks
  v.probe p toks h (r.probes h)

/-- The nodes that a walk matches, from chunk i on. -/
def Serving.walk (v : Serving) (r : SrvRec) (toks : List W32) (p i : Nat) : Nat → List Nat
  | 0 => []
  | n + 1 => match v.findChild r p ((toks.drop (16 * i)).take 16) with
    | some c => c :: v.walk r toks c (i + 1) n
    | none => []

/-- What a lookup reads: the buckets it probes, and the tokens of the nodes that agree in fingerprint and parent. -/
def Serving.probeReads (v : Serving) (r : SrvRec) (p : Nat) (toks : List W32) (h : W64) : List Nat → List (Nat × Nat × Nat)
  | [] => []
  | i :: rest =>
    let k := mget ({} : IndexBucket) v.buckets i
    let bucket := (r.addr 6, 32 * i, 32)
    if k.fp = 0 then [bucket]
    else if k.fp = h ∧ k.child ≠ none32 ∧ k.parent = p then
      bucket :: (r.addr 5, 128 * k.child, 64) ::
        if (v.node k.child).any fun x => decide (x.toks = toks) then [] else v.probeReads r p toks h rest
    else bucket :: v.probeReads r p toks h rest

/-- What the walk of request n reads from chunk i on: the tokens of each chunk, and its lookup (R382). -/
def Serving.walkReads (v : Serving) (r : SrvRec) (n : Nat) (toks : List W32) (p i : Nat) : Nat → List (Nat × Nat × Nat)
  | 0 => []
  | m + 1 =>
    let c := (toks.drop (16 * i)).take 16
    let h := fingerprint p c
    (r.addr 2, (n * r.maxCtx + 16 * i) * 4, 64) :: v.probeReads r p c h (r.probes h) ++
      (match v.findChild r p c with
       | some k => v.walkReads r n toks k (i + 1) m
       | none => [])

/-- PREFIX_WALK (R381, R382): the walks of a job are served in the order of acceptance; the walker reads the index and the prompt
in class P0. -/
def Dev.prefixWalk (d0 : Dev) (t : TimeBase) (j n : Nat) (errs : HbmErrs) : Dev :=
  let v := (d0.job j).srv
  let q := v.req n
  match d0.srvOf j with
  | none => d0
  | some r =>
    if q.state ≠ .queued ∨ v.reqs.any (fun e => decide (e.2.state = .queued ∧ e.2.order < q.order)) then d0
    else match d0.readAll t j errs (v.walkReads r n q.tokens 0 0 ((q.plen - 1) / 16)) with
    | (false, d) => d
    | (true, d) =>
      let m := v.walk r q.tokens 0 0 ((q.plen - 1) / 16)
      let nodes := m.foldl (fun x c => match mget none x c with
        | some y => mput none x c (some { y with refs := y.refs + 1, lastUse := v.nextStep })
        | none => x) v.nodes
      let pages := m.zipIdx.foldl (fun x (c, i) => mput 0 x i (((v.node c).elim 0 (·.set)) + 1)) q.pages
      let v1 := { v with nodes := nodes }.setReq n { q with state := .prefill, kv := 16 * m.length, pages := pages, nodes := m }
      let d1 := d.serve j fun d => d.setServing j v1
      (d1.bump 0x2900 0x12 (16 * m.length)).groupWake t j

/-- PREFIX_WALK. -/
def execPrefixWalk (j : JobId) (req : Reads (BitVec 18)) (s : State) : Host.Outcome State Fault Refusal :=
  act s fun t d => d.prefixWalk t j.val req.val.toNat req.errs

/-! ### KV pages (R376 to R379) -/

/-- The lowest numbers free below hi, at most n. -/
def gaps : Map PageState → Nat → Nat → Nat → List Nat
  | [], lo, hi, n => (List.range (min n (hi - lo))).map (lo + ·)
  | (k, _) :: r, lo, hi, n =>
    let g := min n (min k hi - lo)
    (List.range g).map (lo + ·) ++ gaps r (max lo (k + 1)) hi (n - g)

/-- The indexed leaf without references that was used longest ago. -/
def Serving.victim (v : Serving) : Option (Nat × IndexNode) :=
  v.nodes.foldl (fun best (n, x) => match x with
    | some x =>
      if x.refs ≠ 0 ∨ x.nchild ≠ 0 then best
      else match best with
        | some (_, y) => if x.lastUse < y.lastUse then some (n, x) else best
        | none => some (n, x)
    | none => best) none

/-- A leaf is evicted: its set is free, its bucket entry deleted, its parent loses a child. -/
def Serving.evict (v : Serving) (n : Nat) (x : IndexNode) : Serving :=
  let nodes := mput none v.nodes n none
  { v with
    sets := mput .free v.sets x.set .free,
    nodes := match mget none nodes x.parent with
      | some y => mput none nodes x.parent (some { y with nchild := y.nchild - 1 })
      | none => nodes,
    buckets := mmap {} (fun _ k => if k.child = n ∧ k.fp ≠ 0 then { k with child := none32 } else k) v.buckets }

/-- n free sets, with evictions until they are free; their number comes with them. -/
def Serving.alloc (v : Serving) (hi n : Nat) : Nat → Nat → Option (List Nat) × Serving × Nat
  | 0, k => let g := gaps v.sets 0 hi n
            (if g.length = n then some g else none, v, k)
  | f + 1, k =>
    let g := gaps v.sets 0 hi n
    if g.length = n then (some g, v, k)
    else match v.victim with
      | some (m, x) => (v.evict m x).alloc hi n f (k + 1)
      | none => (none, v, k)

/-! ### Forming a batch step (R371 to R374, R387, R388) -/

/-- The rank of a request: deadline, then acceptance. -/
def Request.before (a b : Request) : Bool :=
  let da := if a.deadline = 0 then 2 ^ 64 else a.deadline
  let db := if b.deadline = 0 then 2 ^ 64 else b.deadline
  decide (da < db) || (decide (da = db) && decide (a.order < b.order))

/-- Requests of a state that are not in flight, in rank order. -/
def Serving.ranked (v : Serving) (p : Request → Bool) : List Nat :=
  ((v.reqs.filter fun e => p e.2).foldl (fun l e => insertBy (fun a b => a.2.before b.2) e l) []).map (·.1)

/-- Drafts for a request (R387): what followed the most recent earlier occurrence of its last three tokens, at most 4,096 positions
back. -/
def drafts (toks : List W32) (m : Nat) : List W32 :=
  let n := toks.length
  let key := toks.drop (n - 3)
  if n < 4 ∨ m = 0 then []
  else match (List.range (min 4096 (n - 3))).find? fun i => decide ((toks.drop (n - 4 - i)).take 3 = key) with
    | some i => (toks.drop (n - 1 - i)).take m
    | none => []

/-- A step while it is formed. -/
structure Forming where
  v : Serving
  rows : List BatchRow := []
  left : Nat
  /-- requests taken -/
  taken : List Nat := []
  proposed : Nat := 0
  evicted : Nat := 0
  deriving DecidableEq, Repr

/-- Rows of consecutive positions of a request, with the page sets of its blocks. -/
def rowsOf (r : SrvRec) (f : Forming) (n : Nat) (pages : Map Nat) (pos : Nat) (toks : List W32) (sample draft : Nat → Bool) : List BatchRow :=
  toks.zipIdx.map fun (x, i) =>
    { token := x, pos := pos + i, req := n, sample := sample i, draft := draft i, engine := f.taken.length % max 1 r.nme,
      set := mget 0 pages ((pos + i) / 16) - 1 }

/-- A request's blocks from position lo to position hi that have no set take one each; or the request is paused. -/
def Forming.page (f : Forming) (r : SrvRec) (n lo hi : Nat) (st : Nat → PageState) : Option (Forming × Map Nat) :=
  let q := f.v.req n
  let need := ((List.range (hi / 16 + 1 - lo / 16)).map (lo / 16 + ·)).filter fun b => decide (mget 0 q.pages b = 0)
  match f.v.alloc r.nsets need.length f.v.nodes.length 0 with
  | (some g, v, k) =>
    let pages := (need.zip g).foldl (fun m (b, s) => mput 0 m b (s + 1)) q.pages
    some ({ f with v := { v with sets := (need.zip g).foldl (fun m (b, s) => mput .free m s (st b)) v.sets }, evicted := f.evicted + k },
      pages)
  | (none, _, _) => none

/-- What remains of a failed allocation: its evictions, and the paused request. -/
def Forming.pause (f : Forming) (r : SrvRec) (n need : Nat) : Forming :=
  let (_, v, k) := f.v.alloc r.nsets need f.v.nodes.length 0
  { f with v := v.setReq n { v.req n with paused := true }, evicted := f.evicted + k }

/-- A decode request is taken. -/
def Forming.decode (f : Forming) (r : SrvRec) (draftsOn : Bool) (n : Nat) : Forming :=
  let q := f.v.req n
  let len := q.tokens.length
  let ds := if draftsOn then drafts q.tokens (min (fieldAt q.params 14 2) (min (f.left - 1) (r.maxCtx - len))) else []
  if f.left = 0 then f
  else
    let spec := if ds.isEmpty then q.spec else q.spec + 1
    let hi := len - 1 + ds.length
    match f.page r n (len - 1) hi fun b => if 16 * b ≤ len - 1 then .priv n else .provisional n spec with
    | none => f.pause r n (hi / 16 + 1 - (len - 1) / 16)
    | some (g, pages) =>
      { g with
        v := g.v.setReq n { q with inFlight := true, paused := false, spec := spec, pages := pages },
        rows := g.rows ++ rowsOf r f n pages (len - 1) (q.tokens.drop (len - 1) ++ ds) (fun _ => true) (fun i => decide (i ≠ 0)),
        left := f.left - 1 - ds.length, taken := f.taken ++ [n], proposed := f.proposed + ds.length }

/-- A prefill request is taken, where its chunk is not empty. -/
def Forming.prefill (f : Forming) (r : SrvRec) (n : Nat) : Forming :=
  let q := f.v.req n
  let rest := q.plen - q.kv
  let c0 := min rest (min r.pchunk f.left)
  let c := if c0 < rest then c0 / 16 * 16 else c0
  if c = 0 then f
  else match f.page r n q.kv (q.kv + c - 1) fun _ => .priv n with
    | none => f.pause r n ((q.kv + c - 1) / 16 + 1 - q.kv / 16)
    | some (g, pages) =>
      { g with
        v := g.v.setReq n { q with inFlight := true, paused := false, pages := pages },
        rows := g.rows ++ rowsOf r f n pages q.kv ((q.tokens.drop q.kv).take c) (fun i => decide (q.kv + i + 1 = q.plen)) (fun _ => false),
        left := f.left - c, taken := f.taken ++ [n] }

/-- Sample rows take their numbers at their mask engines, from the counts given. -/
def numberRows (count : Map Nat) : List BatchRow → List BatchRow × Map Nat
  | [] => ([], count)
  | x :: l =>
    let n := mget 0 count x.engine
    let (l1, c1) := numberRows (if x.sample then mput 0 count x.engine (n + 1) else count) l
    ({ x with num := n } :: l1, c1)

/-- A row of the batch buffer (Table 12-5). -/
def BatchRow.bytes (x : BatchRow) : List Byte :=
  le 4 x.token.toNat ++ le 4 x.pos ++ le 4 (x.req % 2 ^ 18 + b2n x.sample * 2 ^ 24 + b2n x.draft * 2 ^ 25 + x.engine * 2 ^ 26) ++ le 4 x.set

/-- A job's work may be dispatched: it runs, its device is in OP and not leaving it, no stalled ring or isle holds it, its
membership applies, and its group runs it (R417, R441, R447, R488, R493, R34). -/
def Dev.mayDispatch (d : Dev) (j : Nat) : Bool :=
  let b := d.job j
  decide (b.state = 2) && !b.stopping && decide (d.pu.state = .op) && !d.pu.toSafeop && (d.groupOf j).all (d.dispatchable · j) && !(b.hold && d.ringHold j) &&
    b.mayIngress && !d.jobHolds j &&
    (match d.groupOf j with | some g => decide ((d.group g).running = some j) | none => true)

/-- The mask engine isle of an engine of the serving section. -/
def Plan.engineIsle (p : Plan) (r : SrvRec) (e : Nat) : Nat := rotIsle p.rho (r.engines.getD e (0, 0)).1

/-- The next step is formed and issued, where one may be (R372, R374, R553). -/
def Dev.formStep (d : Dev) (j : Nat) : Dev :=
  let b := d.job j
  match b.plan, d.srvOf j with
  | some p, some r =>
    if ¬ d.mayDispatch j ∨ d.nv.backlog ∨ r.inflight ≤ b.srv.steps.length ∨ ¬ d.guardsReady p then d
    else
      let on : Bool := p.flag 0 && decide (d.objN 0x2900 0x20 = 1)
      let dec := b.srv.ranked fun q => decide (q.state = .decode) && !q.inFlight && !q.paused
      let pre := b.srv.ranked fun q => decide (q.state = .prefill) && !q.inFlight
      let f1 := dec.foldl (fun f n => f.decode r on n) ({ v := b.srv, left := r.budget } : Forming)
      let f := pre.foldl (fun f n => f.prefill r n) f1
      let counted := ((d.setServing j f.v).bump 0x2900 0x17 f.evicted).syncTables j b.srv
      if f.rows.isEmpty then counted
      else
        let counts : Map Nat := (List.range r.nme).foldl (fun m e => mput 0 m e (d.mask (p.engineIsle r e)).rowsTaken) []
        let (rows, after) := numberRows counts f.rows
        let last := (b.srv.steps.getLast?).elim (d.ctrN (0x4000 + j) 0x17) fun s => max s.tide (d.ctrN (0x4000 + j) 0x17)
        let step : BatchStep :=
          { step := f.v.nextStep, rows := rows, tag := b.tag, tide := last + 1,
            results := f.taken.map fun n => { req := n, state := (f.v.req n).auto } }
        let ns := (rows.filter (·.sample)).length
        let d1 := counted.setServing j { f.v with nextStep := f.v.nextStep + 1, steps := f.v.steps ++ [step] }
        let d2 := (List.range r.nme).foldl (fun d e =>
          let i := p.engineIsle r e
          d.setMask i { d.mask i with rowsTaken := mget 0 after e }) d1
        let buf := le 8 step.step ++ le 4 rows.length ++ le 4 ns ++ le 4 f.taken.length ++ List.replicate 44 0 ++ rows.flatMap (·.bytes)
        let d3 := d2.poke (.job (d.slotOf j) j) (some j) (b.ha (r.addr 3) + step.step % max 1 r.inflight * (64 + 16 * r.budget)) buf
        let d4 := (d3.bump 0x2900 0x10 1).bump 0x2900 0x13 f.proposed
        let exts := [(r.guard, [rows.length, ns])]
        let gs := (guardRecs p.image).filter fun g => decide (g.id = r.guard)
        match guardEval gs exts with
        | .ok (n, sp) => d4.guardSend j p gs exts n sp
        | .error _ => d4
  | _, _ => d

/-- Further steps, while fewer than `INFLIGHT` are in flight and rows result. -/
def Dev.formSteps (d : Dev) (j : Nat) : Dev := (List.range 4).foldl (fun d _ => d.formStep j) d

/-- FORM_BATCH_STEP. -/
def execFormBatchStep (j : JobId) (s : State) : Host.Outcome State Fault Refusal := act s fun _ d => d.formStep j.val

/-! ### The mask engine (R384, R385, Table 12-9, Table 12-10) -/

/-- The mask engine of an isle. -/
def maskNode (i : Nat) : Node := stopNode i (stopOfDy 7)

/-- The engine of a job's serving section that stands on an isle: its number and `NQ`. -/
def Dev.engineAt (d : Dev) (j i : Nat) : Option (Nat × Nat × SrvRec) :=
  match (d.job j).plan, d.srvOf j with
  | some p, some r => ((List.range r.nme).find? fun e => decide (p.engineIsle r e = i)).map fun e => (e, (r.engines.getD e (0, 0)).2, r)
  | _, _ => none

/-- MASK_LOGIT_TOKEN: a token of a logit row. A row that finds no free staging slot waits. -/
def Dev.maskLogit (d : Dev) (t : TimeBase) (i : Nat) (p : Port) (c : Cls) : Dev :=
  match d.arrived (maskNode i) p c with
  | none => d
  | some tr =>
    let f := tr.flit
    let u := d.mask i
    let take (d : Dev) : Dev := d.takeFlit (maskNode i) p c
    let bad (d : Dev) : Dev := match u.job with
      | some j => (take d).jobError t j 0x2014 i 3 7 f.queue
      | none => (take d).logErr t 0x2014 (die := i) (unit := 3) (wh := 7) (tag := f.queue)
    match u.job with
    | none => bad d
    | some j =>
      d.unitGate t j (d.ctrN (0x4000 + j) 0x13) i 3 7 tr take fun d =>
        match d.engineAt j i with
        | none => bad d
        | some (_, nq, r) =>
          if nq ≤ f.queue ∨ f.kind ≠ 0 ∨ f.hi4 ≠ 15 then bad d
          else
            let row := mget 0 u.queueRow f.queue
            let tok := mget 0 u.queueTok f.queue
            let per := r.v / max 1 nq
            let held := (List.range 4).find? fun k => let s := mget ({} : Staging) u.slots k
                                                     decide (s.role = 1) && decide (s.row = row)
            match held.orElse fun _ => (List.range 4).find? fun k => decide ((mget ({} : Staging) u.slots k).role = 0) with
            | none => d
            | some k =>
              let g := mget ({} : Staging) u.slots k
              let lanes := (List.range 16).map fun l => f.payload.extractLsb' (16 * l) 16
              let last : Bool := decide (per / 16 ≤ tok + 1)
              (take d).setMask i { u with
                slots := mput {} u.slots k
                  { g with role := 1, row := row, logits := mputs 0 g.logits (f.queue * per + 16 * tok) lanes, got := g.got + 1 },
                queueTok := mput 0 u.queueTok f.queue (if last then 0 else tok + 1),
                queueRow := mput 0 u.queueRow f.queue (if last then row + 1 else row) }

/-- MASK_LOGIT_TOKEN. -/
def execMaskLogitToken (i : IsleId) (p : Port) (c : Cls) (s : State) : Host.Outcome State Fault Refusal :=
  act s fun t d => d.maskLogit t i.val p c

/-- The sample row of a number at an engine that has not been processed: the place of its step, its place in the step. -/
def Serving.sampleRow (v : Serving) (e n : Nat) : Option (Nat × Nat) :=
  v.steps.zipIdx.findSome? fun (s, k) =>
    (s.rows.zipIdx.find? fun (x, _) => x.sample && !x.done && decide (x.engine = e) && decide (x.num = n)).map fun (_, i) => (k, i)

/-- Bytes of a job's region as the memory holds them. -/
def Dev.regionBytes (d : Dev) (j pa off n : Nat) : List Byte :=
  let ha := (d.job j).ha pa + off
  let k := d.stk (ha / 2 ^ 36)
  (((List.range (ceilDiv (ha % 32 + n) 32)).flatMap fun i => payBytes (k.rd (ha % 2 ^ 36 / 32 + i))).drop (ha % 32)).take n

/-- A state of an automaton table: `RUN0`, `NRUN`, `MODE`, `STOP`, `BMAP`, `NEXT`, and the first byte of the run array. -/
structure AutoState where
  run0 : Nat
  nrun : Nat
  mode : Nat
  stop : Bool
  bmap : Nat
  next : Nat
  runs : Nat
  deriving DecidableEq, Repr

def Dev.autoState (d : Dev) (j pa s : Nat) : AutoState :=
  let w := d.regionBytes j pa (64 + 16 * s) 16
  let w0 := fieldAt w 0 8
  let w1 := fieldAt w 8 8
  { run0 := bits w0 31 0, nrun := bits w0 47 32, mode := bits w0 49 48, stop := bit w0 50, bmap := bits w1 31 0, next := bits w1 51 32,
    runs := 64 + 16 * fieldAt (d.regionBytes j pa 0 4) 0 4 }

/-- The runs of a state: first id, last id, successor. -/
def Dev.autoRuns (d : Dev) (j pa : Nat) (a : AutoState) : List (Nat × Nat × Nat) :=
  let b := d.regionBytes j pa (a.runs + 8 * a.run0) (8 * a.nrun)
  (List.range a.nrun).map fun i => let w := fieldAt b (8 * i) 8
                                   (bits w 17 0, bits w 17 0 + bits w 35 18, bits w 55 36)

/-- The state after a token, where the state allows one. -/
def Dev.autoNext (d : Dev) (j pa s tok : Nat) : Option Nat :=
  let a := d.autoState j pa s
  if a.mode = 0 then ((d.autoRuns j pa a).find? fun x => decide (x.1 ≤ tok ∧ tok ≤ x.2.1)).map (·.2.2) else some a.next

def bitmapBits (b : List Byte) : List Bool := b.flatMap fun x => (List.range 8).map fun i => x.getLsbD i

/-- The mask of a row: for each id, whether it is allowed (R385). -/
def Dev.maskOf (d : Dev) (j : Nat) (r : SrvRec) (q : Request) (s : Nat) : List Bool :=
  let m := r.masks.getD (fieldAt q.params 21 1) (0, 0, 0)
  let all := List.replicate r.v true
  match bits (fieldAt q.params 20 1) 1 0 with
  | 1 => (bitmapBits (d.regionBytes j m.1 0 (ceilDiv r.v 256 * 32))).take r.v
  | 2 =>
    let a := d.autoState j m.1 s
    if a.mode = 1 then (bitmapBits (d.regionBytes j m.1 (32 * a.bmap) (ceilDiv r.v 256 * 32))).take r.v
    else if a.mode = 2 then all
    else let rs := d.autoRuns j m.1 a
         (List.range r.v).map fun id => rs.any fun x => decide (x.1 ≤ id ∧ id ≤ x.2.1)
  | _ => all

/-- The automaton state in which a row is sampled: from the accepted tokens, over the drafts before it. -/
def Dev.rowState (d : Dev) (j : Nat) (r : SrvRec) (q : Request) (rows : List BatchRow) (req i : Nat) : Option Nat :=
  let m := r.masks.getD (fieldAt q.params 21 1) (0, 0, 0)
  ((rows.take (i + 1)).filter fun x => decide (x.req = req) && x.draft).foldl
    (fun s x => s.bind fun s => d.autoNext j m.1 s x.token.toNat) (some q.auto)

/-- The parts of a mask table that a row's mask needs: offset and bytes; and the bitmap among them, if there is one. -/
def Dev.maskParts (d : Dev) (j : Nat) (r : SrvRec) (q : Request) (s : Option Nat) : List (Nat × Nat) × Option Nat :=
  let m := r.masks.getD (fieldAt q.params 21 1) (0, 0, 0)
  match bits (fieldAt q.params 20 1) 1 0, s with
  | 1, _ => ([], some 0)
  | 2, some s =>
    let a := d.autoState j m.1 s
    ((64 + 16 * s, 16) :: (if a.mode = 0 then [(a.runs + 8 * a.run0, 8 * a.nrun)] else []), if a.mode = 1 then some (32 * a.bmap) else none)
  | _, _ => ([], none)

/-- MASK_FETCH: the mask of a staged row is fetched; bitmaps come through the engine's cache of 256 KiB. -/
def Dev.maskFetch (d : Dev) (t : TimeBase) (i k : Nat) (errs : HbmErrs) : Dev :=
  let u := d.mask i
  let g := mget ({} : Staging) u.slots k
  match u.job with
  | none => d
  | some j =>
    if g.role = 0 ∨ u.masks.contains g.row ∨ d.jobStopped j then d
    else match d.engineAt j i with
      | none => d
      | some (e, _, r) =>
        let v := (d.job j).srv
        match v.sampleRow e g.row with
        | none => d
        | some (n, x) =>
          let rows := (v.steps.getD n {}).rows
          let row := rows.getD x {}
          let q := v.req row.req
          let pa := (r.masks.getD (fieldAt q.params 21 1) (0, 0, 0)).1
          let (parts, bm) := d.maskParts j r q (d.rowState j r q rows row.req x)
          let size := ceilDiv r.v 256 * 32
          let key (o : Nat) : Nat := ((d.job j).ha pa + o) / 32
          let miss : List (Nat × Nat) := match bm with
            | some o => if u.cache.contains (key o) then [] else [(o, size)]
            | none => []
          match d.readAll t j errs ((parts ++ miss).map fun x => (pa, x)) with
          | (false, d1) => d1
          | (true, d1) =>
            let cache := match bm with
              | some o => (key o :: u.cache.filter fun a => decide (a ≠ key o)).take (262144 / size)
              | none => u.cache
            d1.setMask i { u with masks := u.masks ++ [g.row], cache := cache }

/-- MASK_FETCH. -/
def execMaskFetch (i : IsleId) (slot : Reads (Fin 4)) (s : State) : Host.Outcome State Fault Refusal :=
  act s fun t d => d.maskFetch t i.val slot.val.val slot.errs

/-! ### The sampler (R386) -/

/-- Place of an FP32 number in descending order of value: the two zeros equal. -/
def rank32 (x : W32) : Nat :=
  let m := x.toNat % 2 ^ 31
  if x.msb then 2 ^ 31 - m else 2 ^ 31 + m

/-- The first of those of highest place. -/
def argBest {α : Type} (place : α → Nat) : List α → Option α
  | [] => none
  | x :: l => some (l.foldl (fun b y => if place b < place y then y else b) x)

/-- Descending s, ties to the lower id. -/
def inRank (l : List (Nat × W32)) : List (Nat × W32) :=
  l.foldl (fun a x => insertBy (fun p q => decide (rank32 q.2 < rank32 p.2) || (decide (rank32 q.2 = rank32 p.2) && decide (p.1 < q.1))) x a) []

/-- The draw of an id at a position (Table 12-11). -/
def drawAt (seed pos id : Nat) : Nat :=
  (philox (pos % 2 ^ 32) (id / 4 % 2 ^ 16) 0 0x20000000 (seed % 2 ^ 32) (seed / 2 ^ 32 % 2 ^ 32)).getD (id % 4) 0

/-- The ids of C in rank order until the sum of their weights reaches the target, that id included. -/
def nucleus (tgt : W32) (e : Nat → W32) : W256 → List (Nat × W32) → List (Nat × W32)
  | _, [] => []
  | cum, x :: l =>
    let c := aaAddAll cum [e x.1]
    let s := aaFp32 c
    if ¬ isNan s ∧ ¬ isNan tgt ∧ ¬ fpLt (ofFp32 s) (ofFp32 tgt) then [x] else x :: nucleus tgt e c l

/-- A score of an id: s plus Gumbel noise of its draw. -/
def score (seed pos : Nat) (x : Nat × W32) : W32 :=
  let u0 := toFp32 (.fin false (2 * drawAt seed pos x.1 + 1) (-33))
  let u : W32 := if 0x3F7FFFFF < u0.toNat then 0x3F7FFFFF else u0
  let neg (w : W32) : W32 := w ^^^ 0x80000000
  laneAdd x.2 (neg (laneTr 1 (neg (laneTr 1 u))))

/-- `sample_row`: the token of position pos from logits, mask and parameters; none: no id is allowed. -/
def sampleToken (z : List W16) (mask : List Bool) (p : List Byte) (pos : Nat) : Option Nat :=
  let invT : W32 := BitVec.ofNat 32 (fieldAt p 8 4)
  let topk := fieldAt p 12 2
  let topp : W32 := BitVec.ofNat 32 (fieldAt p 16 4)
  let a := ((z.zip mask).zipIdx.filter fun ((x, m), _) => m && decide (x.toNat % 2 ^ 15 ≤ 0x7F80) && decide (x ≠ 0xFF80)).map
    fun ((x, _), id) => (id, x)
  if a.isEmpty then none
  else if invT = 0 then (argBest (fun x => rankOf x.2) a).map (·.1)
  else
    let s := a.map fun (id, x) => (id, laneMul (widen16 x) invT)
    let nuc : Bool := decide (topp.toNat < 0x3F800000)
    let c := if topk ≠ 0 ∨ nuc then (inRank s).take (if topk ≠ 0 then topk else 256) else s
    let c1 := if nuc then
        let m := (c.head?.map (·.2)).getD 0
        let e := s.map fun (id, x) => (id, laneTr 0 (laneSub x m))
        let ell := aaAddAll aaZero (e.map (·.2))
        nucleus (laneMul topp (aaFp32 ell)) (fun id => ((e.find? fun x => decide (x.1 = id)).map (·.2)).getD 0) aaZero c
      else c
    let best := argBest (fun (x : Nat × W32) => rank32 x.2)
      ((c1.foldl (fun l x => insertBy (fun p q => decide (p.1 < q.1)) x l) []).map fun x => (x.1, score (fieldAt p 0 8) pos x))
    best.map (·.1)

/-- A result entry (Table 12-12). -/
def ResultEntry.bytes (e : ResultEntry) : List Byte :=
  le 4 e.req ++ le 1 e.toks.length ++ le 1 e.accept ++ le 1 e.fin ++ [0] ++ le 4 e.state ++ [0, 0, 0, 0] ++
    (List.range 9).flatMap (fun i => le 4 (e.toks.getD i 0).toNat) ++ List.replicate 12 0

/-- A row is processed in its request's entry (R389): the token is sampled, the next draft is compared with it, a stop token or a
`STOP` state ends the list. -/
def Dev.verifyRow (d : Dev) (j : Nat) (r : SrvRec) (q : Request) (e : ResultEntry) (row : BatchRow) (next : Option BatchRow)
    (z : List W16) : ResultEntry :=
  if e.closed then e
  else match sampleToken z (d.maskOf j r q e.state) q.params (row.pos + 1) with
    | none => { e with fin := 7, closed := true }
    | some tok =>
      let m := r.masks.getD (fieldAt q.params 21 1) (0, 0, 0)
      let auto : Bool := decide (bits (fieldAt q.params 20 1) 1 0 = 2)
      let st := if auto then (d.autoNext j m.1 e.state tok).getD e.state else e.state
      let stopTok : Bool := (List.range 4).any fun i => decide (fieldAt q.params (28 + 4 * i) 4 = tok)
      let fin := if stopTok then 1 else if auto && (d.autoState j m.1 st).stop then 2 else 0
      let hit : Bool := next.any fun x => x.draft && decide (x.req = row.req) && decide (x.token.toNat = tok)
      { e with toks := e.toks ++ [BitVec.ofNat 32 tok], accept := e.accept + b2n hit, state := st, fin := fin,
               closed := decide (fin ≠ 0) || !hit }

/-- SAMPLE_ROW: the next sample row of the engine, staged whole and with its mask. The last row of a request writes its result. -/
def Dev.sampleRow (d : Dev) (t : TimeBase) (i k : Nat) : Dev :=
  let u := d.mask i
  let g := mget ({} : Staging) u.slots k
  match u.job with
  | none => d
  | some j => match d.engineAt j i with
    | none => d
    | some (e, _, r) =>
      let b := d.job j
      match b.srv.sampleRow e g.row with
      | none => d
      | some (n, x) =>
        let st := b.srv.steps.getD n {}
        let row := st.rows.getD x {}
        let q := b.srv.req row.req
        let earlier : Bool := g.row ≠ 0 && (b.srv.sampleRow e (g.row - 1)).isSome
        if g.role = 0 ∨ g.got < r.v / 16 ∨ earlier ∨ ¬ (u.masks.contains g.row) ∨ d.jobStopped j then d
        else
          let at_ := st.results.findIdx fun y => decide (y.req = row.req)
          let y := d.verifyRow j r q (st.results.getD at_ {}) row st.rows[x + 1]? (g.row16 r.v)
          let rows := listSet st.rows x { row with done := true }
          let last : Bool := rows.all fun z => z.done || !z.sample || decide (z.req ≠ row.req)
          let st1 := { st with rows := rows, results := listSet st.results at_ y, sampled := st.sampled + 1, lastAt := t.ns }
          let d1 := (d.setServing j { b.srv with steps := listSet b.srv.steps n st1 }).setMask i { u with
            slots := mput {} u.slots k {}, masks := u.masks.filter fun m => decide (m ≠ g.row) }
          if last then d1.jobWrite t j (r.addr 4) ((st.step % max 1 r.inflight * r.budget + at_) * 64) y.bytes else d1

/-- SAMPLE_ROW. -/
def execSampleRow (i : IsleId) (slot : Fin 4) (s : State) : Host.Outcome State Fault Refusal :=
  act s fun t d => d.sampleRow t i.val slot.val

/-! ### Boundaries (R375, R377, R382, R390 to R397) -/

/-- What a step gave a request: tokens emitted, drafts accepted, finish reason (R394). -/
def emittedOf (r : SrvRec) (q : Request) (e : ResultEntry) : List W32 × Nat :=
  let n := q.tokens.length
  let byNew := q.maxNew - (n - q.plen)
  let byCtx := r.maxCtx - n
  let room := min byNew byCtx
  let l := e.toks.length
  let fin := if room < l ∨ (room = l ∧ (e.fin = 0 ∨ e.fin = 7)) then (if byNew ≤ byCtx then 3 else 4) else e.fin
  (e.toks.take room, fin)

/-- Provisional sets of a request below its KV length are private, the others are free (R390). -/
def Serving.settle (v : Serving) (n : Nat) : Serving :=
  let q := v.req n
  q.pages.foldl (fun v (b, s) => match mget PageState.free v.sets (s - 1) with
    | .provisional _ _ =>
      if 16 * b < q.kv then { v with sets := mput .free v.sets (s - 1) (.priv n) }
      else let x := v.req n
           { v with sets := mput .free v.sets (s - 1) .free }.setReq n { x with pages := mput 0 x.pages b 0 }
    | _ => v) v

/-- Results of a step are applied to one of its requests: what remains to be recorded comes with it. -/
def Serving.applyResult (v : Serving) (r : SrvRec) (st : BatchStep) (stamp : Nat) (e : ResultEntry) : Serving × (Nat × List W32 × Nat × Nat) :=
  let q := v.req e.req
  let rows := st.rows.filter fun x => decide (x.req = e.req)
  if rows.any (·.sample) then
    let (toks, fin) := emittedOf r q e
    let n := q.tokens.length
    let q1 := { q with
      inFlight := false, state := .decode, tokens := q.tokens ++ toks, kv := n - 1 + e.toks.length, auto := e.state,
      tFirst := if q.tFirst = 0 ∧ !toks.isEmpty then stamp else q.tFirst }
    (((v.setReq e.req q1).settle e.req), (e.req, toks, e.accept, fin))
  else (v.setReq e.req { q with inFlight := false, kv := q.kv + rows.length }, (e.req, [], 0, 0))

/-- Requests that wait, in no step, turn late when their deadline has passed (R395). -/
def Dev.turnLate (d : Dev) (j stamp : Nat) : Dev :=
  let v := (d.job j).srv
  let due (q : Request) : Bool := decide (q.state = .queued ∨ q.state = .prefill ∨ q.state = .decode) && !q.inFlight &&
    decide (q.deadline ≠ 0 ∧ q.deadline ≤ stamp) && !q.late
  (d.setServing j { v with reqs := mmap {} (fun _ q => if due q then { q with late := true } else q) v.reqs }).bump 0x2900 0x15
    (v.reqs.filter fun e => due e.2).length

/-- Refusals, cancellations and missed deadlines of requests outside the step, in the order of their times (R391, R395, R396). -/
def Dev.operations (d : Dev) (t : TimeBase) (j : Nat) (members : List Nat) (step : Nat) (stamp : Nat) : Dev :=
  let v := (d.job j).srv
  let free_ (n : Nat) : Bool := !(v.req n).inFlight && !members.contains n
  let late : List Owed := v.reqs.filterMap fun (n, q) =>
    if q.late ∧ q.policyLate ∧ !q.cancel ∧ free_ n ∧ (q.state = .queued ∨ q.state = .prefill ∨ q.state = .decode) then
      some { stamp := q.deadline, session := q.session, req := n, code := 0x6001 }
    else none
  let now := v.owed.filter fun o => decide (o.code ≠ 0) || free_ o.req
  let later := v.owed.filter fun o => decide (o.code = 0) && (v.req o.req).inFlight
  let d1 := d.setServing j { v with owed := later }
  (late.foldl (fun l o => insertBy (fun a b => decide (a.stamp < b.stamp)) o l) now).foldl (fun d o =>
    let q := (d.job j).srv.req o.req
    if o.code ≠ 0 ∧ o.code ≠ 0x6001 then d.refusalRecord t j o step stamp
    else if q.state = .free ∨ q.state = .closing then d
    else if o.code = 0 then d.finalRecord t j o.req 5 (statusOf 5 q.late) step stamp
    else d.finalRecord t j o.req 6 0x6001 step stamp) d1

/-- The record of a request of the step, where it produced tokens, ended or turned late (R391); it ends where it has a finish
reason. Whether a record was written comes with it. -/
def Dev.stepResult (d : Dev) (t : TimeBase) (j : Nat) (st : BatchStep) (wasLate : List Nat) (stamp : Nat) (x : Nat × List W32 × Nat × Nat) : Bool × Dev :=
  let (n, toks, acc, fin0) := x
  let q := (d.job j).srv.req n
  let fin := if fin0 ≠ 0 then fin0 else if q.cancel then 5 else if q.late ∧ q.policyLate then 6 else 0
  let turned : Bool := q.late && !wasLate.contains n
  let status := statusOf fin q.late
  if toks.isEmpty ∧ fin = 0 ∧ !turned then (false, d)
  else if toks.isEmpty ∧ fin ≠ 0 then (true, d.finalRecord t j n fin status st.step stamp)
  else
    let h := stepHead 1 toks.length status (reqField n acc fin q.late) q.session st.step stamp
    let d1 := d.putStep t j q.session n h (stepPayload toks (q.tokens.length - toks.length))
    (true, if fin = 0 then d1 else d1.closeRequest t j n fin status stamp)

/-- The node of a block's page set, if it is indexed. -/
def Serving.blockNode (v : Serving) (q : Request) (b : Nat) : Option Nat :=
  match mget 0 q.pages b with
  | 0 => none
  | s + 1 => match mget PageState.free v.sets s with
    | .indexed n => some n
    | _ => none

/-- A full private page set enters the index on a miss, where a node and a bucket are free (R382). -/
def Dev.insertBlock (d : Dev) (r : SrvRec) (j n b : Nat) : Dev :=
  let v := (d.job j).srv
  let q := v.req n
  let parent : Option Nat := if b = 0 then some 0 else v.blockNode q (b - 1)
  let s := mget 0 q.pages b - 1
  let toks := (q.tokens.drop (16 * b)).take 16
  let full : Bool := decide (mget 0 q.pages b ≠ 0) && decide (mget PageState.free v.sets s = .priv n) && decide (16 * (b + 1) ≤ q.kv)
  match parent with
  | none => d
  | some p =>
    if ¬ full ∨ (v.findChild r p toks).isSome then d
    else
      let h := fingerprint p toks
      let place := (r.probes h).find? fun i => let k := mget ({} : IndexBucket) v.buckets i
                                              decide (k.fp = 0) || decide (k.child = none32)
      let node := (List.range v.nodes.length.succ).map (· + 1) |>.find? fun m => (v.node m).isNone
      match place, node with
      | some i, some m =>
        if r.nnodes ≤ m then d
        else
          let (lu, d1) := d.fresh 64
          let nodes := match mget none v.nodes p with
            | some y => mput none v.nodes p (some { y with nchild := y.nchild + 1 })
            | none => v.nodes
          d1.setServing j ({ v with
            nodes := mput none nodes m (some { toks := toks, set := s, parent := p, refs := 1, lastUse := lu.toNat }),
            buckets := mput {} v.buckets i { fp := h, child := m, parent := p },
            sets := mput .free v.sets s (.indexed m) }.setReq n { q with nodes := q.nodes ++ [m] })
      | _, _ => d

/-- Newly full page sets enter the index, in ascending `REQ` and then block. -/
def Dev.insertFull (d : Dev) (r : SrvRec) (j : Nat) : Dev :=
  (d.job j).srv.reqs.foldl (fun d (n, q) =>
    if q.state = .prefill ∨ q.state = .decode then (List.range (q.kv / 16)).foldl (fun d b => d.insertBlock r j n b) d else d) d

/-- Provisional sets of another speculation epoch are freed, and paused requests are tried again (R378, R390). -/
def Serving.sweep (v : Serving) : Serving :=
  let stale : List Nat := v.sets.filterMap fun (s, x) => match x with
    | .provisional n e => if e ≠ (v.req n).spec then some s else none
    | _ => none
  { v with
    sets := stale.foldl (fun m s => mput .free m s .free) v.sets,
    reqs := mmap {} (fun _ q => { q with
      paused := false, pages := if stale.isEmpty then q.pages else q.pages.filter fun e => !stale.contains (e.2 - 1) }) v.reqs }

/-- The oldest step of a job is complete: its tide point has come and all its results are written (R375). -/
def BatchStep.complete (s : BatchStep) : Bool := s.tideAt.isSome && decide (s.sampled = (s.rows.filter (·.sample)).length)

/-- STEP_COMPLETE (R375): results; deadlines and cancellations; records; the index; further steps. -/
def Dev.stepComplete (d : Dev) (t : TimeBase) (j : Nat) : Dev :=
  let b := d.job j
  match b.srv.steps, d.srvOf j with
  | st :: rest, some r =>
    if ¬ st.complete ∨ b.stopping ∨ ¬ (2 ≤ b.state ∧ b.state ≤ 5) then d
    else
      let stamp := max (st.tideAt.getD 0) st.lastAt
      let d1 := d.serve j fun d =>
        let wasLate := (b.srv.reqs.filter fun e => e.2.late).map (·.1)
        let (v, out) := st.results.foldl (fun (a : Serving × List (Nat × List W32 × Nat × Nat)) e =>
          let (v, o) := a.1.applyResult r st stamp e
          (v, a.2 ++ [o])) (({ b.srv with steps := rest } : Serving).sweep, [])
        let d1 := (d.setServing j v).turnLate j stamp
        let members := st.results.map (·.req)
        let ring (d : Dev) (n : Nat) : Option Nat := let v := (d.job j).srv
                                                    v.ringOf (v.req n).session
        let rings := members.map (ring d1)
        let d2 := d1.operations t j members st.step stamp
        let (d3, wrote) := out.foldl (fun (a : Dev × List Nat) x =>
          let (w, d) := a.1.stepResult t j st wasLate stamp x
          (d, if w then a.2 ++ [x.1] else a.2)) (d2, [])
        let d4 := (rings.foldl (fun l x => if l.contains x then l else l ++ [x]) []).foldl (fun d x =>
          let n := (wrote.filter fun m => decide (ring d1 m = x)).length
          let (ss, d1) := d.fresh 8
          d1.toStepRing t x (stepHead 2 0 0 n ss.toNat st.step stamp ++ List.replicate 40 0)) d3
        let d5 := ((d4.setCtr (0x4000 + j) 0x44 st.step).bump 0x2900 0x11 (sumNat (out.map (·.2.1.length)))).bump 0x2900 0x14
          (sumNat (out.map (·.2.2.1)))
        d5.insertFull r j
      d1.formSteps j
  | _, _ => d

/-- STEP_COMPLETE. -/
def execStepComplete (j : JobId) (s : State) : Host.Outcome State Fault Refusal := act s fun t d => d.stepComplete t j.val

/-- BOUNDARY (R375, R379): with no step in flight, the operations that arrived are processed, the index and the steps follow;
where no step forms while a request is paused, the lowest-ranked request that holds private page sets ends. A job that does not run
has refusals to record. No step ends at a boundary, so it writes no step-end record (assumption 145); `STEP` of its records is a
free value (assumption 3). -/
def Dev.boundary (d : Dev) (t : TimeBase) (j : Nat) : Dev :=
  let b := d.job j
  if ¬ b.srv.steps.isEmpty ∨ b.stopping then d
  else
    let (sn, d0) := d.fresh 32
    let d1 := d0.serve j fun d =>
      let d1 := ((d.setServing j b.srv.sweep).turnLate j t.ns).operations t j [] sn.toNat t.ns
      (d1.srvOf j).elim d1 fun r => d1.insertFull r j
    let d2 := d1.formSteps j
    let v := (d2.job j).srv
    let could : Bool := d1.mayDispatch j && !d1.nv.backlog && ((d1.job j).plan.any fun p => d1.guardsReady p)
    if could ∧ v.steps.isEmpty ∧ v.reqs.any (fun e => e.2.paused) then
      let holds (n : Nat) : Bool := v.sets.any fun e => decide (e.2 = .priv n)
      match ((v.ranked fun q => decide (q.state = .prefill ∨ q.state = .decode)).filter holds).getLast? with
      | some n => d2.serve j fun d => d.finalRecord t j n 8 0x6014 sn.toNat t.ns
      | none => d2
    else d2

/-- BOUNDARY. -/
def execBoundary (j : JobId) (s : State) : Host.Outcome State Fault Refusal := act s fun t d => d.boundary t j.val

end Sys2Proof.Machine
end

