-- ==== Sys2Proof/Machine/JobCmd.lean ====
section
/-! DEFINITION. Job commands (R515, R516, R585, R596) and the paths between SAFEOP and OP (R488). -/
namespace Sys2Proof.Machine

/-! ### Releasing a job's partition, regions and queues (R515, R596) -/

/-- The open serving sessions of a job end with it (R367), each with a key-event record. -/
def Dev.endSessions (d : Dev) (t : TimeBase) (j : Nat) : Dev :=
  let d1 := (d.job j).srv.sessions.foldl (fun d e => if e.2.isSome then d.keyRecord t (d.slotOf j) j 8 e.1 true false [] else d) d
  let b := d1.job j
  d1.setJob j { b with srv := { b.srv with sessions := [] } }

/-- The reefs of a job's partition on which it is the job loaded. -/
def Dev.loadedReefs (d : Dev) (j : Nat) : List Nat := (d.job j).reefs.filter fun r => decide (d.jobAt r = some j)

/-- What remains of a job whose partition is released: its accounting, its epoch, the membership record stored. -/
def Job.cleared (b : Job) : Job :=
  { ({} : Job) with
    state := b.state, fromState := b.fromState, dmaDone := b.dmaDone, ingress := b.ingress, admSt := b.admSt, admitAt := b.admitAt, units := b.units,
    lateLogged := b.lateLogged, window := { b.window with partialW := true }, begun := b.begun, memBytes := b.memBytes, model := b.model }

/-- The partition, the regions and the U0 queues of a job are released: its admission is revoked (R445), its requests and sessions
end (R367, R397), its sites stop, what its engines and windows hold goes, and its group starts the next job. -/
def Dev.releaseJob (d : Dev) (t : TimeBase) (j : Nat) : Dev :=
  let d1 := ((d.revoke t j true).endServing t j 0).endSessions t j
  let on := d1.loadedReefs j
  let d2 := d1.setJob j { d1.job j with reefs := on }
  let d3 := (on.flatMap reefSites).foldl (fun d s => d.setSite s (d.site s).ctlStop) d2
  let d4 := ((d3.dropWaits j).dropStreams t j).dropWindows j
  let d5 : Dev := { d4 with
    cause := d4.cause.filter fun e => decide (e.2.job ≠ some j), masks := d4.masks.filter fun e => decide (e.2.job ≠ some j) }
  let d6 := d5.dropRegions j
  let d6 := d6.setJob j { d6.job j with window := d2.markClock j }
  let d7 := ((((d6.setJob j (d6.job j).cleared).setCtr (0x4000 + j) 0x44 0).setCtr (0x4000 + j) 0x51 0).setCtr (0x4000 + j) 0x52 0xFFFF).setCtr (0x4000 + j) 0x53 0
  match d.groupOf j with
  | some g => (d7.leaveGroup j g).groupStart t g
  | none => d7

/-! ### The commands of Table 17-12 -/

/-- The region in which the image is staged (R516): in the first stack with room, within `SLOT_MAX_HBM`. -/
def Dev.stageRegion (d : Dev) (j len : Nat) : Option Dev :=
  let n := d.slotOf j
  let size := ceilDiv len 2097152
  if d.objN (0x3000 + 0x10 * n) 4 < d.slotHbm n + 2 * size then none
  else ((List.range 16).findSome? fun k => d.allocRegion j 256 k size 3).map fun d => d.zeroRegions j

/-- LOAD (R515, R516, R541, R546, R596): state 1, and the fetch of the image begins; or the load is rejected. -/
def Dev.cmdLoad (d : Dev) (t : TimeBase) (j : Nat) : Dev :=
  let from_ := (d.job j).state
  let d1 := if from_ = 6 then d.releaseJob t j else d
  let d2 := (d1.setJob j { d1.job j with fromState := from_, staged := 0, trans := 0, cyclesAt := d1.ticksTo t.elapsed, window := { (d1.job j).window with partialW := true } }).jobTo t j 1 0
  let len := d2.objN (0x4000 + j) 0x19
  let prot := d2.obj (0x4000 + j) 0x1A
  let sl := d2.slot (d2.slotOf j)
  if sl.hbmKey.isNone then d2.rejectLoad t j 0x5008 (0, 0)
  else if len = 0 then d2.rejectLoad t j 0x1002 (0, 0)
  else if fieldAt prot 0 1 = 1 ∧ (fieldAt prot 4 4 = 0xFFFFFFFF ∨ (mget none sl.keys (fieldAt prot 1 1)).isNone) then
    d2.rejectLoad t j 0x5005 (0, 0)
  else match d2.stageRegion j len with
    | none => d2.rejectLoad t j 0x1010 (0, 0)
    | some d3 => d3.setJob j { d3.job j with staged := len }

/-- DRAIN (R309, R515): the drain begins at the job's next tide point. A switch-out waits for it no longer. -/
def Dev.cmdDrain (d : Dev) (j : Nat) : Dev :=
  let b := d.job j
  d.setJob j { b with atTide := if b.atTide = 0 ∨ b.atTide = 3 then 1 else b.atTide }

/-- RESUME (R515): the job runs on in its epoch: its sites may report drained again, under drained flags that clear only when the
next epoch begins (R145, assumption 30). -/
def Dev.cmdResume (d : Dev) (t : TimeBase) (j : Nat) : Dev :=
  let d1 := ((d.job j).reefs.flatMap reefSites).foldl (fun d s => d.setSite s { d.site s with drainedReported := false }) d
  let d2 := d1.setJob j { d1.job j with drained := [], drainLeft := 0, atTide := 0, unitStart := t.elapsed, cyclesAt := d1.ticksTo t.elapsed }
  let d3 : Dev := { d2 with pu := { d2.pu with held := d2.pu.held.filter fun i => decide (i ≠ j) } }
  (d3.jobTo t j 2 0).groupWake t j

/-- STOP (R515, R585): a load is abandoned; a job switched in and not drained drains first. -/
def Dev.cmdStop (d : Dev) (t : TimeBase) (j : Nat) : Dev :=
  let b := d.job j
  if b.stopping then d
  else if b.state = 1 then d.abandonLoad t j 0x1004 0
  else if b.switching ∨ b.state = 4 ∨ b.state = 5 then
    ((d.setCtr (0x4000 + j) 0x1C 0).endStop t j).startGroupOf t j
  else if b.state = 2 ∨ b.state = 3 then
    if b.stopWait.isSome then d
    else (d.setCtr (0x4000 + j) 0x1C 0).setJob j { b with stopWait := some 0, atTide := if b.state = 2 then 2 else b.atTide }
  else d

/-- UNLOAD (R515): released, with a job record; `JOB_SLOT` is kept. -/
def Dev.cmdUnload (d : Dev) (t : TimeBase) (j : Nat) : Dev :=
  ((d.jobRecord t j 3 (d.ctrN (0x4000 + j) 0x1C)).releaseJob t j).jobTo t j 0 0

/-- The command may be performed now (Table 17-12, Table 16-6). -/
def Dev.cmdAllowed (d : Dev) (j val : Nat) : Bool :=
  let s := (d.job j).state
  let op := decide (d.pu.state = .op)
  match val with
  | 1 => (decide (s = 0) && decide (d.slotOf j < 64) || decide (s = 6)) && (decide (d.pu.state = .safeop) || op)
  | 2 => decide (s = 2) && op
  | 3 => decide (s = 4) && op
  | 4 => decide (1 ≤ s) && decide (s ≤ 5)
  | 5 => decide (4 ≤ s) && decide (s ≤ 6) && op
  | _ => false

/-- `JOB_COMMAND` takes effect (R515). -/
def Dev.jobCommand (d : Dev) (t : TimeBase) (j val : Nat) : Dev :=
  match val with
  | 1 => d.cmdLoad t j
  | 2 => d.cmdDrain j
  | 3 => d.cmdResume t j
  | 4 => d.cmdStop t j
  | 5 => d.cmdUnload t j
  | _ => d

/-! ### SAFEOP and OP (R488) -/

/-- OP to SAFEOP has been asked: each running job drains at its next tide point and is held. -/
def Dev.toSafeOp (d : Dev) : Dev :=
  let d1 : Dev := { d with pu := { d.pu with toSafeop := true, held := [] } }
  (d1.jobs.filter fun e => decide (e.2.state = 2)).foldl (fun d e =>
    let b := d.job e.1
    d.setJob e.1 { b with atTide := if b.atTide = 0 ∨ b.atTide = 3 then 4 else b.atTide }) d1

/-- The first entry to OP (R531, R579): `SEC_FW_SVN` rises where the image asks for it, and the power-up record is queued. -/
def Dev.firstOpDone (d : Dev) (t : TimeBase) : Dev :=
  if d.pu.firstOp then d
  else
    let d1 := if d.fw.raiseSvn then (d.setCtr 0x2500 5 d.fw.svn).nvOwn 0x2500 5 (le 4 d.fw.svn) else d
    { d1 with pu := { d1.pu with firstOp := true } }.journal t
      { rtype := 4, b4 := [0, 0, 0, 0] ++ le 4 (d1.ctrN 0x2000 7) ++ [0, 0, 0, 0], b28 := le 4 0 ++ le 8 t.ns ++ List.replicate 24 0,
        b160 := padTo 240 d1.fw.measurement ++ le 4 (d1.ctrN 0x2500 5) ++ List.replicate 12 0 }

/-- OP is entered (R488, R579): the held jobs resume, and each group starts the job it is to run. -/
def Dev.toOp (d : Dev) (t : TimeBase) : Dev :=
  let d1 := ({ d with pu := { d.pu with state := .op, toSafeop := false, held := [] } } : Dev).firstOpDone t
  let d2 := d.pu.held.foldl (fun d j => if (d.job j).state = 4 then d.cmdResume t j else d) d1
  (List.range 64).foldl (fun d g => if d.members g = [] then d else d.groupStart t g) d2

/-- The AL state follows the device state down (R477). -/
def Dev.clampAl (d : Dev) : Dev :=
  if d.net.al = .op ∧ d.pu.state = .safeop then { d with net := { d.net with al := .safeop } } else d

/-- HOLD_JOBS_DRAINED (R488): SAFEOP once no job runs or drains. -/
def holdJobsDrained (d : Dev) : Dev :=
  if d.pu.state = .op ∧ d.pu.toSafeop ∧ ¬ d.jobs.any (fun e => decide (e.2.state = 2) || decide (e.2.state = 3)) then
    ({ d with pu := { d.pu with state := .safeop, toSafeop := false } } : Dev).clampAl
  else d

/-- HOLD_JOBS_DRAINED -/
def execHoldJobsDrained (s : State) : Host.Outcome State Fault Refusal := act s fun _ d => holdJobsDrained d

end Sys2Proof.Machine
end

