-- ==== Sys2Proof/Machine/Dict.lean ====
section
/-! DEFINITION. The object dictionary as it is read and as it is guarded (R5, R9, R498 to R503): the value of every object, the
requester and its role, and the checks of Table 17-2. -/
namespace Sys2Proof.Machine

/-! ### Values (R500, and the tables of Table 17-3) -/

/-- A string's bytes. -/
def strBytes (s : String) : List Byte := s.toList.map fun c => BitVec.ofNat 8 c.toNat

/-- Code of a device state (Table 16-6). -/
def DevState.code : DevState → Nat
  | .init => 1 | .preop => 2 | .boot => 3 | .safeop => 4 | .op => 8 | .fault => 14

/-- `CP_HEARTBEAT` (Table 16-12): milliseconds since the control cores were released (R576). -/
def Dev.heartbeat (d : Dev) (t : TimeBase) : Nat :=
  match d.pu.coresAt with
  | some e => (t.elapsed - e) / 1000000 % 2 ^ 32
  | none => d.ctrN 0x2000 0x12

/-- Logical sites of the good reefs of an isle (R518). -/
def Dev.goodSites (d : Dev) (i : Nat) : Nat :=
  256 * ((List.range 36).filter fun r => !d.health.degraded.contains (i * 36 + r)).length

/-- A peak figure in PFLOPS (R12, R518), for the operations of a site and clock. It is rounded to the nearest REAL32: the
spec does not say how (DESIGN CHOICE, assumption 120). -/
def Dev.peak (d : Dev) (ops : Nat) : W32 :=
  let f := sumNat ((List.range 4).map fun i => d.goodSites i * ops * 2 * (d.isle i).clock)
  if f = 0 then 0 else toFp32 (fpRatio false f 1000000000 0)

/-- `JOB_SWITCH_US` (R444): 0 without a plan; rounded to the nearest REAL32 (assumption 120). -/
def Dev.switchUsBits (d : Dev) (j : Nat) : Nat :=
  if (d.job j).plan.isNone then 0
  else let (n, q) := d.switchUs j
       (toFp32 (fpRatio false n q 0)).toNat

/-- `CW_RING_KEYS_n` (R364): keys that a matcher's ring holds. -/
def Causeway.ringKeys (u : Causeway) : Nat := if bit (fieldAt u.record 1 1) 1 then u.nR - u.nM else 0

/-- Busy requests of a job (Table 12-4). -/
def Job.busyReqs (b : Job) : Nat := (b.srv.reqs.filter fun e => decide (e.2.state ≠ .free)).length

/-- Free page sets of a serving job (Table 12-16). -/
def Dev.freePages (d : Dev) (j : Nat) : Nat :=
  match d.srvOf j with
  | some r => r.nsets - (d.job j).srv.sets.length
  | none => 0

/-- 1: an owner key exists (R514). -/
def Dev.commissioned (d : Dev) : Bool := (List.range 16).any fun k => !emptyKey (d.obj 0x2500 (0x10 + k))

/-- Numeric objects of a job that other state holds. -/
def Dev.jobValue (d : Dev) (j sub : Nat) : Option Nat :=
  let b := d.job j
  match sub with
  | 0xA => some b.admSt.val
  | 0xF => some (d.switchUsBits j)
  | 0x10 => some b.state
  | 0x40 => some b.busyReqs
  | 0x41 => some (d.freePages j)
  | 0x42 => some (b.srv.nodes.length + 1)
  | 0x43 => some (b.srv.reqs.filter fun e => e.2.paused).length
  | _ => none

/-- Numeric objects of a slot that other state holds. -/
def Dev.slotValue (d : Dev) (idx sub : Nat) : Option Nat :=
  let n := (idx - 0x3000) / 16
  match idx % 16, sub with
  | 0, 1 => some (d.slotState n)
  | 0, 6 => some (d.slotReefs n)
  | 0, 7 => some (d.slotHbm n)
  | 3, 1 => some (b2n (d.slot n).hbmKey.isSome)
  | 3, 2 => some (sumNat ((d.jobsOf n).map fun j => (d.job j).srv.sessions.length))
  | 3, 3 => some (mget 0 d.nv.copy1.seqs n)
  | _, _ => none

/-- Numeric time-base objects (Table 15-5). -/
def TimeBase.value (t : TimeBase) (sub : Nat) : Option Nat :=
  let (rs, md, sl, pc, tol) := t.want
  match sub with
  | 1 => some (t.ns % 2 ^ 64)
  | 2 => some (t.frac / 2 ^ 32)
  | 3 => some rs
  | 4 => some md
  | 6 => some t.stateWord
  | 7 => some (toTwos 64 t.offset)
  | 8 => some (toTwos 32 t.rateAdj)
  | 9 => some sl
  | 0xA => some t.stepCount
  | 0xB => some (toTwos 16 pc)
  | 0xC => some tol
  | 0xD => some t.rejected
  | 0xE => some ((t.elapsed - t.lastEdge.getD 0) / 1000000000 % 2 ^ 32)
  | 0x11 => some (t.elapsed % 2 ^ 64)
  | _ => none

/-- Numeric HBM objects that other state holds (Tables 7-7 and 17-14). -/
def Dev.hbmValue (d : Dev) (idx sub : Nat) : Option Nat :=
  if idx = 0x2C00 then
    let k := d.stk (sub % 16)
    match sub / 16 with
    | 0 => if sub = 1 then some (sumNat ((List.range 16).map fun i => (d.stk i).sectors * 32)) else none
    | 2 => some (k.sectors / 32768)
    | 3 => some k.refresh
    | 4 => some k.active.toNat
    | 7 => some k.poison.length
    | _ => none
  else
    let k := d.stk (idx - 0x2C10)
    let c := (sub - 1) % 16
    match (sub - 1) / 16 with
    | 0 => some (k.chan c).two
    | 1 => some (k.chan c).ue
    | 2 => some (k.poisonOf c)
    | 3 => some (k.chState c)
    | _ => none

/-- Numeric health objects that other state holds (Tables 17-15 and 17-16). -/
def Dev.healthValue (d : Dev) (idx sub : Nat) : Option Nat :=
  if idx = 0x2D00 then
    match sub with
    | 1 => some (sumNat ((List.range 4).map d.goodSites))
    | 2 => some d.health.degraded.length
    | 3 => some d.health.fail.length
    | 6 => some (d.peak 64).toNat
    | 7 => some (d.peak 128).toNat
    | 8 => some (d.peak 256).toNat
    | 9 => some (d.peak 16).toNat
    | 0xA => some (sumNat ((List.range 16).map fun l => if (d.lnk l).spared < 9 then 2 ^ l else 0))
    | _ => none
  else
    let i := (idx - 0x2D10) * 36
    if 0x81 ≤ sub then some (mget 0 d.health.wear (i + (sub - 0x81)))
    else if 0x41 ≤ sub then some (b2n (d.health.degraded.contains (i + (sub - 0x41))))
    else none

/-- Numeric objects of the device that other state holds. -/
def Dev.devValue (d : Dev) (t : TimeBase) (idx sub : Nat) : Option Nat :=
  if idx = 0x1018 then
    (if sub = 3 then some (Config.revision.toNat * 65536 + 1) else if sub = 4 then some (leNat (Config.serial.take 4)) else none)
  else if idx = 0x2000 then
    match sub with
    | 3 => some Config.revision.toNat
    | 4 => some Config.romVersion.toNat
    | 5 => some d.fw.version.toNat
    | 0x10 => some d.pu.state.code
    | 0x12 => some (d.heartbeat t)
    | _ => none
  else if idx = 0x2100 then (if 0x14 ≤ sub ∧ sub < 0x18 then some (d.isle (sub - 0x14)).clock else none)
  else if idx = 0x2200 then t.value sub
  else if idx = 0x2300 then
    match sub with
    | 0x11 => some d.nv.copy1.held
    | 0x12 => some (d.nv.copy1.counter - d.nv.copy1.held)
    | 0x13 => some (d.nv.copy1.counter - 1)
    | 0x16 => some (d.nv.queue.length + (d.nv.copy0.counter - d.nv.copy1.counter))
    | _ => none
  else if idx = 0x2400 then (if sub = 2 then some d.fw.status.toNat else if sub = 4 then some d.fw.source else none)
  else if idx = 0x2500 then (if sub = 7 then some (b2n d.commissioned) else none)
  else if idx = 0x2600 then (if sub = 4 then some d.admitted.length else none)
  else if idx = 0x2700 then
    (if sub = 2 then some ((List.range 256).filter fun j => decide (d.slotOf j ≠ 0xFF)).length
     else if sub = 3 then some d.reefsFree else none)
  else if 0x2710 ≤ idx ∧ idx < 0x2730 then (if sub = 7 then some (d.rng (idx - 0x2710)).backlog.length else none)
  else if idx = 0x2A00 then (if 0x20 ≤ sub ∧ sub < 0x24 then some (d.cw (sub - 0x20)).ringKeys else none)
  else if idx = 0x2900 then (if sub = 2 then some (sumNat (d.jobs.map fun e => e.2.busyReqs)) else none)
  else if idx = 0x2B00 then
    (if sub = 4 then some (d.colls.filter fun e => e.2.any fun x => !x.done).length
     else if 0x10 ≤ sub ∧ sub < 0x20 then some (d.lnk (sub - 0x10)).word else none)
  else if 0x2C00 ≤ idx ∧ idx < 0x2C20 then d.hbmValue idx sub
  else if 0x2D00 ≤ idx ∧ idx < 0x2D14 then d.healthValue idx sub
  else if idx = 0x2E00 then
    (if sub = 2 then some (if d.log.count = 0 then 0xFFFFFFFF else (d.log.count - 1) % 2 ^ 32) else none)
  else if idx = 0x2F00 then
    (if sub = 1 then some (sumNat ((List.range 4).map fun i => if d.pu.bist.contains i then 2 ^ i else 0))
     else if sub = 6 then
       some (match (List.range 16).find? fun l => (d.lnk l).prbs with | some l => (d.lnk l).prbsErrors | none => 0)
     else none)
  else if 0x3000 ≤ idx ∧ idx < 0x3400 then d.slotValue idx sub
  else if 0x4000 ≤ idx ∧ idx < 0x4100 then d.jobValue (idx - 0x4000) sub
  else none

/-- Byte strings that other state holds. -/
def Dev.strValue (d : Dev) (idx sub : Nat) : Option (List Byte) :=
  if idx = 0x1008 then some (strBytes "Virzan VZ-4832")
  else if idx = 0x1009 then some Config.hwVersion
  else if idx = 0x100A then some (if d.fw.version = 0 then Config.romText else d.fw.verStr)
  else if idx = 0x2000 then
    (if sub = 1 then some (strBytes "VZ-4832") else if sub = 2 then some Config.serial
     else if sub = 6 then some d.fw.measurement else none)
  else if idx = 0x2500 then
    (if sub = 2 then some Config.rootHash else if sub = 3 then some Config.deviceId else if sub = 4 then some Config.certChain else none)
  else if idx = 0x2B00 then (if 0x20 ≤ sub ∧ sub < 0x30 then some (d.lnk (sub - 0x20)).peer else none)
  else if 0x2D10 ≤ idx ∧ idx < 0x2D14 then some (d.reefMap ((idx - 0x2D10) * 36 + (sub - 1)))
  else if 0x4000 ≤ idx ∧ idx < 0x4100 then
    let b := d.job (idx - 0x4000)
    match sub with
    | 0xB => some (le 18 (sumNat (b.reefs.map fun r => 2 ^ r)))
    | 0x14 => some (b.plan.elim (List.replicate 48 0) (·.meas))
    | 0x50 => some b.memBytes
    | _ => none
  else none

/-- The value of an object as its bytes. The objects whose read acts (`CP_AUTH_NONCE`, `JOURNAL_RECORD`, `ERRLOG_ENTRY`) and
`CP_AUTH_ROLE` are apart. -/
def Dev.value (d : Dev) (t : TimeBase) (idx sub : Nat) : List Byte :=
  match findObj idx sub with
  | none => []
  | some r =>
    match r.ty with
    | .oct n | .vstr n => padTo n ((d.strValue idx sub).getD (d.obj idx sub))
    | .dom _ => (d.strValue idx sub).getD (d.obj idx sub)
    | ty =>
      match d.devValue t idx sub with
      | some n => le (ty.width / 8) n
      | none =>
        match r.acc with
        | .ro => le (ty.width / 8) (d.ctrN idx sub)
        | _ => d.obj idx sub

/-! ### The requester (R474, R482, R485) -/

/-- An SPDM session, when it is open. -/
def Dev.sess (d : Dev) (h k : Nat) : Option SpdmSession := mget none (d.die h).sessions k
def Dev.setSess (d : Dev) (h k : Nat) (x : Option SpdmSession) : Dev :=
  d.setDie h { d.die h with sessions := mput none (d.die h).sessions k x }

/-- The requester's own values. -/
def Dev.client (d : Dev) : Via → Endpoint
  | .endpoint e => d.ep e.val
  | .session h k => ((d.sess h.val k.val).map (·.ep)).getD {}

def Dev.setClient (d : Dev) (v : Via) (x : Endpoint) : Dev :=
  match v with
  | .endpoint e => d.setEp e.val x
  | .session h k => match d.sess h.val k.val with
    | some s => d.setSess h.val k.val (some { s with ep := x })
    | none => d

/-- Slot of a requester; none for the endpoints. -/
def Dev.clientSlot (d : Dev) : Via → Option Nat
  | .endpoint _ => none
  | .session h k => match d.sess h.val k.val with
    | some s => (match s.binding with | .slot n => some n | _ => none)
    | none => none

/-- Role of a requester (Table 16-12). -/
def Dev.roleOf (d : Dev) (v : Via) : Nat :=
  match v with
  | .endpoint e => (d.ep e.val).role
  | .session _ _ => if (d.clientSlot v).isSome then 3 else 0

/-- The transport carries requests now: the EtherCAT mailbox from PREOP onward, and in BOOT (R475, R477); a host mailbox while its
link is up; a session while it is bound to a slot (R485) and its host's link is up. -/
def Dev.carries (d : Dev) (v : Via) : Bool :=
  decide (d.pu.state ≠ .init) && (match v with
    | .endpoint e => if e.val = 0 then decide (d.net.al ≠ .init) else d.pcie (e.val - 1)
    | .session h _ => d.pcie h.val && (d.clientSlot v).isSome)

/-- Number under which a requester is recorded: the endpoint's; a session's is that of its host die's mailbox. -/
def viaNo : Via → Nat
  | .endpoint e => e.val
  | .session h _ => h.val + 1

/-- AUTH_FAILED (R486). -/
def Dev.authFailed (d : Dev) (t : TimeBase) (v : Via) : Dev :=
  d.logErr t 0x01A2 (die := match v with | .endpoint e => (if e.val = 0 then Config.logDie 0x01A2 else 27 + e.val) | .session h _ => 28 + h.val)
    (unit := 10) (wh := viaNo v)

/-! ### Checks (Table 17-2) -/

/-- Abort codes (R5, R499, R502 to R508, R512). -/
def abAccess : W32 := 0x06010000
def abWriteOnly : W32 := 0x06010001
def abNoObject : W32 := 0x06020000
def abNoSub : W32 := 0x06090011
def abLength : W32 := 0x06070010
def abRange : W32 := 0x06090030
def abState : W32 := 0x08000022
def abStore : W32 := 0x08000020
def abNoData : W32 := 0x08000024

/-- Slot to which an object belongs, or 0xFF. -/
def Dev.objSlot (d : Dev) (idx : Nat) : Nat :=
  if 0x3000 ≤ idx ∧ idx < 0x3400 then (idx - 0x3000) / 16
  else if 0x4000 ≤ idx ∧ idx < 0x4100 then d.slotOf (idx - 0x4000) else 0xFF

/-- The device state serves the object (Table 16-6). -/
def Dev.serves (d : Dev) (r : ObjRow) (idx sub : Nat) (write : Bool) : Bool :=
  match d.pu.state with
  | .init => false
  | .boot => decide (0x1000 ≤ idx ∧ idx ≤ 0x1FFF) || decide (idx = 0x2000) || decide (idx = 0x2400) ||
      decide (idx = 0x2500 ∧ 0x40 ≤ sub ∧ sub ≤ 0x45)
  | .fault => decide (idx = 0x2E00) || (!write && (decide (r.acc = .ro) || decide (r.acc = .const)))
  | _ => true

/-- Read access (Table 0-2). -/
def Dev.readAbort (d : Dev) (v : Via) (r : ObjRow) (idx : Nat) : Option W32 :=
  let role := d.roleOf v
  match r.acc with
  | .const | .ro => none
  | .owner | .operator => if role = 3 then some abAccess else none
  | .tenant => if role = 1 ∨ role = 2 ∨ d.clientSlot v = some (d.objSlot idx) then none else some abAccess
  | _ => some abWriteOnly

/-- The exceptions of an uncommissioned device (R533): no login, no ticket. -/
def Dev.openWrite (d : Dev) (idx sub : Nat) (val : List Byte) : Bool :=
  !d.commissioned && (decide (d.pu.state = .preop) || decide (d.pu.state = .safeop) || decide (d.pu.state = .op)) &&
    (decide (idx = 0x2300 ∧ (sub = 1 ∨ sub = 2)) || (decide (idx = 0x2500 ∧ sub = 0x10) && !emptyKey val))

/-- A key object (R514, R523). -/
def isKeyObj (idx sub : Nat) : Bool :=
  decide (idx = 0x2500 ∧ 0x10 ≤ sub ∧ sub < 0x30) || decide (0x3000 ≤ idx ∧ idx < 0x3400 ∧ idx % 16 = 1 ∧ sub = 1) ||
    decide (0x3000 ≤ idx ∧ idx < 0x3400 ∧ idx % 16 = 2 ∧ sub ≠ 0)

/-- Write access (R5, R515): the role may write the object, and the value. -/
def Dev.writeOk (d : Dev) (v : Via) (r : ObjRow) (idx sub : Nat) (val : List Byte) : Bool :=
  let role := d.roleOf v
  let mine := decide (d.clientSlot v = some (d.objSlot idx))
  match r.acc with
  | .const | .ro => false
  | .owner | .woOwner => decide (role = 1) || d.openWrite idx sub val
  | .operator => decide (role = 1) || decide (role = 2)
  | .tenant | .woTenant => mine
  | .woAny => true
  | .woOperator => decide (role = 2)
  | .woOwnerOperator => decide (role = 1) || decide (role = 2)
  | .woTenantOperator => mine || (decide (role = 2) && decide (val ≠ [1]))

/-- A ticket is required (R483): an owner or operator writes an object that requires that role. -/
def Dev.needsTicket (d : Dev) (v : Via) (r : ObjRow) (idx sub : Nat) (val : List Byte) : Bool :=
  (decide (d.roleOf v = 1) || decide (d.roleOf v = 2)) && !decide (r.acc = .woAny) && !decide (idx = 0x2500 ∧ sub = 0x44) &&
    !d.openWrite idx sub val

/-- The ticket at hand names the write (R483). -/
def ticketFits (tk : Option (Nat × Nat × List Byte)) (idx sub : Nat) (val : List Byte) : Bool :=
  decide (tk = some (idx, sub, Config.sha384 val))

/-- The length fits (R499). -/
def lengthOk (ty : ObjTy) (n : Nat) : Bool :=
  match ty with
  | .oct k => decide (n = k)
  | .vstr k | .dom k => decide (n ≤ k)
  | t => decide (n * 8 = t.width)

/-- A visible string: bytes 0x20 to 0x7E, then padding (R499). -/
def visible (b : List Byte) : Bool :=
  let s := (b.reverse.dropWhile (· = 0)).reverse
  s.all fun c => decide (0x20 ≤ c.toNat) && decide (c.toNat ≤ 0x7E)

/-- The order of the field of curve P-384 and its coefficient b (R514, FIPS 186-5; assumption 31). -/
def p384 : Nat := 2 ^ 384 - 2 ^ 128 - 2 ^ 96 + 2 ^ 32 - 1
def p384b : Nat := 0xB3312FA7E23EE7E4988E056BE3F82D19181D9C6EFE8141120314088F5013875AC656398D8A2ED19D2A85C8EDD3EC2AEF

/-- The number that bytes spell, most significant first. -/
def beNat (b : List Byte) : Nat := b.foldl (fun n x => n * 256 + x.toNat) 0

/-- A public key: empty, or an uncompressed point of the curve (R514). -/
def keyOk (b : List Byte) : Bool :=
  let x := beNat (bytesAt b 1 48)
  let y := beNat (bytesAt b 49 48)
  emptyKey b || (decide (b.head? = some 4) && decide (x < p384) && decide (y < p384) &&
    decide (y * y % p384 = (x * x % p384 * x + (p384 - 3) * x + p384b) % p384))

/-- Protection fields (Table 18-7). -/
def protOk (b : List Byte) : Bool :=
  let m := fieldAt b 0 1
  decide (m ≤ 1) && decide (fieldAt b 1 1 ≤ 7) && (decide (m = 1) || decide (fieldAt b 1 1 = 0)) && decide (fieldAt b 2 2 = 0)

/-- The value lies in the range of a numeric row. -/
def ObjRow.inRange (r : ObjRow) (val : List Byte) : Bool :=
  let n := leNat val
  let i : Int := if r.ty.signed then ofTwos r.ty.width n else (n : Int)
  let hi : Int := r.hi.getD (if r.ty.signed then 2 ^ (r.ty.width - 1) - 1 else 2 ^ r.ty.width - 1)
  decide (r.lo ≤ i) && decide (i ≤ hi)

/-- No reserved bit is 1 and the value lies in its range (R9, check 7), beyond the bounds of its row. -/
def rangeMore (idx sub : Nat) (val : List Byte) : Bool :=
  let n := leNat val
  if idx = 0x2100 then !decide (0x18 ≤ sub ∧ sub < 0x1C) || decide (n % 25 = 0)
  else if idx = 0x2200 then !decide (sub = 5) || decide (n % 1000000000 = 0)
  else if 0x2710 ≤ idx ∧ idx < 0x2730 then !decide (sub = 2) || decide (n % 4096 = 0)
  else if idx = 0x2E00 then !decide (sub = 5) || decide (bits n 14 8 = 0)
  else if isKeyObj idx sub then keyOk val
  else if idx = 0x2500 then
    (if sub = 0x41 then
      (decide (fieldAt val 0 1 = 1) || decide (fieldAt val 0 1 = 2)) && decide (fieldAt val 1 1 < 16) && decide (fieldAt val 2 2 = 0)
     else if sub = 0x44 then decide (fieldAt val 3 5 = 0)
     else true)
  else if 0x4000 ≤ idx ∧ idx < 0x4100 then
    match sub with
    | 1 | 0xC => decide (n < 64) || decide (n = 0xFF)
    | 0x18 => decide (n % 256 = 0)
    | 0x19 => decide (n % 256 = 0)
    | 0x1A => protOk val
    | _ => true
  else true

/-- Check 7. -/
def ObjRow.rangeOk (r : ObjRow) (idx sub : Nat) (val : List Byte) : Bool :=
  (match r.ty with
   | .vstr _ => visible val
   | .oct _ | .dom _ => true
   | _ => r.inRange val) && rangeMore idx sub val

/-- A write of an uncommissioned device's key objects, other than that of the first owner key, is refused before its access is
checked (R533). -/
def Dev.keyLocked (d : Dev) (idx sub : Nat) (val : List Byte) : Bool :=
  isKeyObj idx sub && !d.commissioned && !d.openWrite idx sub val

/-- Outcome of checks 1 to 7 on a write; `auth` tells that check 4 or 5 failed. -/
structure Refused where
  code : W32
  auth : Bool := false
  deriving DecidableEq, Repr

/-- Checks 1 to 7 on a write of one sub-index; the ticket is checked when `tk` is given (complete access carries one for the whole). -/
def Dev.checkWrite (d : Dev) (v : Via) (tk : Option (Option (Nat × Nat × List Byte))) (idx sub : Nat) (val : List Byte) : Option Refused :=
  if ¬ idxExists idx then some { code := abNoObject }
  else match findObj idx sub with
    | none => some { code := abNoSub }
    | some r =>
      if ¬ d.serves r idx sub true then some { code := abState }
      else if d.keyLocked idx sub val then some { code := abState }
      else if ¬ d.writeOk v r idx sub val then some { code := abAccess, auth := true }
      else if d.needsTicket v r idx sub val ∧ (tk.any fun t => !ticketFits t idx sub val) then some { code := abAccess, auth := true }
      else if ¬ lengthOk r.ty val.length then some { code := abLength }
      else if ¬ r.rangeOk idx sub val then some { code := abRange }
      else none

/-- Checks 1 to 4 on a read of one sub-index. -/
def Dev.checkRead (d : Dev) (v : Via) (idx sub : Nat) : Option Refused :=
  if ¬ idxExists idx then some { code := abNoObject }
  else match findObj idx sub with
    | none => some { code := abNoSub }
    | some r =>
      if ¬ d.serves r idx sub false then some { code := abState }
      else match d.readAbort v r idx with
        | some c => some { code := c, auth := true }
        | none => none

end Sys2Proof.Machine
end

