-- ==== Sys2Proof/Machine/DictWrite.lean ====
section
/-! DEFINITION. Writes of the object dictionary (R489, R502 to R505): check 8 of Table 17-2 and what the write of each object does. -/
namespace Sys2Proof.Machine

/-- What a write does: it is refused, or stored, or it waits for its commit (R505). -/
abbrev Written := Except W32 (SdoAnswer × TimeBase × Dev)

/-- A write stored with success. -/
def stored (t : TimeBase) (d : Dev) : Written := .ok (.ok, t, d)

/-- A write refused for the state of its object. -/
def refusedState : Written := .error abState

/-! ### Roles (R482 to R486) -/

/-- A failed login or an invalid ticket is recorded; no rule gives its abort code (assumption 3). -/
def Dev.authBad (d : Dev) (t : TimeBase) (v : Via) : SdoAnswer × Dev :=
  let (c, d1) := (d.authFailed t v).fresh 32
  (.abort c, d1)

/-- Key table entry of a role: 1 owner, 2 operator. -/
def Dev.roleKey (d : Dev) (role k : Nat) : List Byte := d.obj 0x2500 ((if role = 1 then 0x10 else 0x20) + k)

/-- A login (R482): the nonce is the endpoint's current one and the signature verifies under the key named. After eight failures
within 60 s the endpoint refuses logins for 60 s (R486). A session cannot log in: its role is that of its binding. -/
def Dev.login (d : Dev) (t : TimeBase) (v : Via) (resp : List Byte) (sigOk : Bool) : SdoAnswer × Dev :=
  let x := d.client v
  let role := fieldAt resp 0 1
  let k := fieldAt resp 1 1
  let locked : Bool := x.lockout.any fun e => decide (t.elapsed < e)
  let ok : Bool := sigOk && decide (x.nonce = some (bytesAt resp 4 32)) && !emptyKey (d.roleKey role k) &&
    (match v with | .endpoint _ => true | .session _ _ => false)
  if locked then d.authBad t v
  else if ok then
    (.ok, d.setClient v { x with
      role := role, key := k, sessionNonce := bytesAt resp 4 32, nonce := none, ticketCtr := 0, ticket := none, lockout := none })
  else
    let fs := (x.failed.filter fun e => decide (t.elapsed < e + 60000000000)) ++ [t.elapsed]
    let full := decide (8 ≤ fs.length)
    (d.setClient v { x with failed := if full then [] else fs, lockout := if full then some (t.elapsed + 60000000000) else none }).authBad t v

/-- A write ticket (R483): its counter exceeds the last one accepted, and the signature verifies. -/
def Dev.takeTicket (d : Dev) (t : TimeBase) (v : Via) (b : List Byte) (sigOk : Bool) : SdoAnswer × Dev :=
  let x := d.client v
  if sigOk ∧ x.ticketCtr < fieldAt b 8 8 then
    (.ok, d.setClient v { x with ticketCtr := fieldAt b 8 8, ticket := some (fieldAt b 0 2, fieldAt b 2 1, bytesAt b 16 48) })
  else d.authBad t v

/-- CP_LOGOUT (R484). -/
def Dev.logout (d : Dev) (v : Via) : Dev := d.setClient v (d.client v).logout

/-! ### Rings (R490, R494) -/

/-- A step ring that an open serving session names. -/
def Dev.ringNamed (d : Dev) (r : Nat) : Bool :=
  d.jobs.any fun e => e.2.srv.sessions.any fun s => s.2.any fun x => decide (x.ring = r)

/-- Enabling is refused (R490). -/
def Dev.enableBad (d : Dev) (r : Nat) : Bool :=
  let o (n sub : Nat) := d.objN (0x2710 + n) sub
  let kind := o r 1
  decide (o r 2 % 4096 ≠ 0) || (decide (kind = 2 ∨ kind = 4 ∨ kind = 5 ∨ kind = 6) && decide (o r 5 = 0xFF)) ||
    (List.range 32).any fun n => decide (n ≠ r) && (d.rng n).enabled && decide (o n 1 = kind) && (decide (o n 5 = o r 5) || decide (kind = 3))

/-- A write of `RING_ENABLE` (R490, R494): both indices start at 0; a disabled ring's backlog goes to no ring. -/
def Dev.writeRingEnable (d : Dev) (r val : Nat) : Except W32 Dev :=
  let g := d.rng r
  let store (d : Dev) : Dev := d.setObj (0x2710 + r) 6 (le 1 val)
  if val = 1 then
    if g.enabled then .ok d
    else if d.enableBad r then .error abRange
    else
      let d1 := ((store d).setRng r { enabled := true }).setCtr (0x2710 + r) 8 0
      let j := d.objN (0x2710 + r) 5
      .ok (if d.objN (0x2710 + r) 1 = 5 ∧ j < 256 then d1.setJob j { d1.job j with dmaDone := 0 } else d1)
  else if d.objN (0x2710 + r) 1 = 2 ∧ d.ringNamed r then .error abState
  else
    let d1 := ((store d).setRng r { g with enabled := false, backlog := [], stalled := false }).bump 0x2700 4 g.backlog.length
    let j := d.objN (0x2710 + r) 5
    let b := d1.job j
    .ok (if d.objN (0x2710 + r) 1 = 5 ∧ g.enabled ∧ j < 256 then
      d1.setJob j { b with ingress := b.ingress.map fun i => { i with fence := b.dmaDone } } else d1)

/-! ### Process data (R478, R508) -/

/-- Index, sub-index and bits of a mapping entry. -/
def mapEntry (w : Nat) : Nat × Nat × Nat := (w / 65536, bits w 15 8, bits w 7 0)

/-- A TxPDO entry may map its object, at its size (R478, R508). -/
def mapOkEntry (w : Nat) : Bool :=
  let (idx, sub, n) := mapEntry w
  match findObj idx sub with
  | some r => (decide (r.acc = .ro) || decide (r.acc = .const)) && decide (r.ty.width ≠ 0) && decide (r.ty.width = n) &&
      !(decide (0x3000 ≤ idx) && decide (idx ≤ 0x40FF))
  | none => false

/-- Entries 1 to m of 0x1A00. -/
def Dev.mapEntries (d : Dev) (m : Nat) : List Nat := (List.range m).map fun i => d.objN 0x1A00 (i + 1)

/-- A write of 0x1A00 (R508). -/
def Dev.writeMap (d : Dev) (sub : Nat) (val : List Byte) : Except W32 Dev :=
  if d.net.al ≠ .init ∧ d.net.al ≠ .preop then .error abState
  else if sub ≠ 0 then (if d.objN 0x1A00 0 = 0 then .ok (d.setObj 0x1A00 sub val) else .error abState)
  else
    let es := d.mapEntries (leNat val)
    if es.any fun w => !mapOkEntry w then .error 0x06040041
    else if 136 * 8 < sumNat (es.map fun w => (mapEntry w).2.2) then .error 0x06040042
    else .ok (d.setObj 0x1A00 0 val)

/-! ### Device state and diagnostics (R488, R522) -/

/-- A write of `DEVICE_STATE_REQ` (R488). -/
def Dev.writeStateReq (d : Dev) (t : TimeBase) (val : Nat) : Except W32 Dev :=
  if val = 4 ∧ d.pu.state = .op then .ok (if d.pu.toSafeop then d else d.toSafeOp)
  else if val = 8 ∧ d.pu.state = .safeop then .ok (d.toOp t)
  else .error abState

/-- A PRBS test of a link ends; the link then trains as at power-up. -/
def Dev.endPrbs (d : Dev) : Dev :=
  ((List.range 16).foldl (fun d l => if (d.lnk l).prbs then d.setLnk l { d.lnk l with prbs := false, state := .training } else d) d).setRails

/-- A write of `DIAG_PRBS_LINK` (R522). -/
def Dev.writePrbs (d : Dev) (val : Nat) : Except W32 Dev :=
  if val = 0 then .ok ((d.endPrbs).setObj 0x2F00 5 [0])
  else
    let l := val - 1
    if (d.lnk l).state ≠ .down then .error abState
    else
      let d1 := if (d.lnk l).prbs then d else d.endPrbs
      .ok ((d1.setLnk l { d1.lnk l with prbs := true, prbsErrors := 0 }).setObj 0x2F00 5 (le 1 val))

/-! ### Objects of jobs (R434, R443, R515, R516) -/

/-- A write to an object of a job other than its membership record. -/
def Dev.writeJob (d : Dev) (t : TimeBase) (j sub : Nat) (val : List Byte) : Except W32 Dev :=
  let b := d.job j
  let n := leNat val
  let idx := 0x4000 + j
  let when_ (ok : Bool) (x : Dev) : Except W32 Dev := if ok then .ok x else .error abState
  match sub with
  | 1 => match d.writeJobSlot j n with
    | (some _, _) => .error abState
    | (none, x) => .ok x
  | 2 => when_ (d.cmdAllowed j n) (d.jobCommand t j n)
  | 3 | 0xC => when_ (decide (b.state = 0)) (d.setObj idx sub val)
  | 5 => when_ (decide (b.admSt ≠ 1)) (let x := d.setParam idx sub val
                                        if b.suspended.isSome then x.groupWake t j else x)
  | 6 | 7 | 8 => when_ (decide (b.admSt ≠ 1)) (d.setParam idx sub val)
  | 9 => .ok (d.writeAdmitReq t j n)
  | 0x18 | 0x19 | 0x1A | 0x1B => when_ (decide (b.state = 0) || decide (b.state = 6)) (d.setObj idx sub val)
  | _ => .ok (d.setParam idx sub val)

/-! ### Key objects and other NV values (R505, R514, R517, R523, R533, R534) -/

/-- Check 8 on an NV value. -/
def Dev.nvAllowed (d : Dev) (v : Via) (idx sub : Nat) (val : List Byte) : Bool :=
  let x := d.client v
  if idx = 0x2500 ∧ 0x10 ≤ sub ∧ sub < 0x20 then !(emptyKey val && decide (x.role = 1) && decide (sub = 0x10 + x.key))
  else if 0x3000 ≤ idx ∧ idx < 0x3400 ∧ idx % 16 = 1 ∧ sub = 1 then
    let n := (idx - 0x3001) / 16
    let st := d.slotState n
    decide (st ≠ 2) && decide (st ≠ 3) &&
      (emptyKey val || !(List.range 64).any fun m => decide (m ≠ n) && decide (d.obj (0x3001 + 0x10 * m) 1 = val))
  else if idx = 0x2C00 ∧ sub = 0x90 then decide ((d.stk (leNat val / 16)).chState (leNat val % 16) = 2)
  else true

/-- An NV value is queued for its commit; the request waits (R505). `HBM_CH_RETURN` is kept as the state of its channel (R517). -/
def Dev.queueNv (d : Dev) (t : TimeBase) (v : Via) (idx sub : Nat) (val : List Byte) : Dev :=
  let n := leNat val
  let (key, w) := if idx = 0x2C00 ∧ sub = 0x90 then (objKey (0x2C10 + n / 16) (0x31 + n % 16), [3]) else (objKey idx sub, val)
  { d with nv := { d.nv with writes := d.nv.writes ++ [{ key := key, val := w, via := some v, at_ := t.elapsed }] } }

/-! ### Every object -/

/-- A value as it is stored: a visible string is padded (Table 17-1). -/
def ObjRow.keep (r : ObjRow) (val : List Byte) : List Byte := match r.ty with | .vstr n => padTo n val | _ => val

/-- A write that has passed checks 1 to 7. `sig` tells whether a signature that the value carries verifies. -/
def Dev.applyWrite (d : Dev) (t : TimeBase) (v : Via) (r : ObjRow) (idx sub : Nat) (val0 : List Byte) (sig : Bool) : Written :=
  let val := r.keep val0
  let n := leNat val
  let x := d.client v
  let plain (e : Except W32 Dev) : Written := match e with | .error c => .error c | .ok y => stored t y
  if r.nv then (if d.nvAllowed v idx sub val then .ok (.waiting, t, d.queueNv t v idx sub val) else refusedState)
  else if 0x4000 ≤ idx ∧ idx < 0x4100 then
    if sub = 0x50 then
      match d.writeMembership t (idx - 0x4000) val sig with
      | (some c, y) => .ok (.abort (BitVec.ofNat 32 c), t, y)
      | (none, y) => stored t y
    else plain (d.writeJob t (idx - 0x4000) sub val)
  else if idx = 0x2200 then
    stored (t.write sub (if r.ty.signed then ofTwos r.ty.width n else (n : Int))) d
  else if idx = 0x1A00 then plain (d.writeMap sub val)
  else if idx = 0x2000 then plain (d.writeStateReq t n)
  else if idx = 0x2100 ∧ 0x18 ≤ sub ∧ sub < 0x1C then
    (let y := d.setObj idx sub val
     if y.admittedOk then stored t y else refusedState)
  else if idx = 0x2300 ∧ sub = 0x14 then stored t (d.setClient v { x with journalCursor := some n })
  else if idx = 0x2400 then
    (let y := fwImage v val true t d
     .ok ((y.client v).answer, t, y))
  else if idx = 0x2500 ∧ sub = 0x41 then (let (a, y) := d.login t v val sig
                                         .ok (a, t, y))
  else if idx = 0x2500 ∧ sub = 0x43 then stored t (d.logout v)
  else if idx = 0x2500 ∧ sub = 0x44 then (let (a, y) := d.takeTicket t v val sig
                                         .ok (a, t, y))
  else if idx = 0x2600 ∧ sub = 1 then stored t ((d.modeChange t n).setObj idx sub val)
  else if idx = 0x2600 ∧ sub = 2 then
    (let y := d.setObj idx sub val
     if y.admittedOk then stored t y else refusedState)
  else if 0x2710 ≤ idx ∧ idx < 0x2730 then
    if sub = 6 then plain (d.writeRingEnable (idx - 0x2710) n)
    else if (d.rng (idx - 0x2710)).enabled then refusedState
    else stored t (d.setObj idx sub val)
  else if idx = 0x2E00 then
    (if sub = 4 then stored t (d.setClient v { x with errCursor := some n })
     else stored t (d.setClient v { x with errFilter := BitVec.ofNat 16 n }))
  else if idx = 0x2F00 then plain (d.writePrbs n)
  else stored t (d.setParam idx sub val)

end Sys2Proof.Machine
end

