-- ==== Sys2Proof/Machine/Control.lean ====
section
/-! DEFINITION. The dictionary server and its transports (chapters 16 and 17): SDO requests, the commands that write one object, the
EtherCAT interface, the host mailbox, roles and their ends. -/
namespace Sys2Proof.Machine

/-! ### Reads that act (R482, R512, R521) -/

/-- A fresh nonce of the requester (R482). -/
def Dev.newNonce (d : Dev) (v : Via) : SdoAnswer × Dev :=
  let b := padTo 32 (Config.random 32 d.free)
  let d1 : Dev := { d with free := d.free + 1 }
  (.data b, d1.setClient v { d1.client v with nonce := some b })

/-- `JOURNAL_RECORD` (R512): the record at the cursor, for a tenant the next one of its slot. -/
def Dev.readJournal (d : Dev) (v : Via) : SdoAnswer × Dev :=
  let m := d.nv.copy1
  let first := m.counter - m.held
  let x := d.client v
  let from_ := max first (x.journalCursor.getD first)
  let rec_ (k : Nat) : List Byte := mget [] m.recs (k % 32768)
  let mine (k : Nat) : Bool := match d.clientSlot v with | some n => decide (fieldAt (rec_ k) 2 1 = n) | none => true
  match ((List.range (m.counter - from_)).map (from_ + ·)).find? mine with
  | some k => (.data (padTo 512 (rec_ k)), d.setClient v { x with journalCursor := some (k + 1) })
  | none => (.abort abNoData, d)

/-- An error-log entry (Table 17-18). -/
def ErrEntry.bytes (e : ErrEntry) : List Byte :=
  le 8 e.stamp ++ le 4 e.seq ++ le 2 e.code.toNat ++ le 1 e.job ++ le 1 e.slot ++ le 1 e.die ++ le 1 e.unit ++ le 2 e.wh ++ le 4 e.tag ++
    le 8 e.detail

/-- `ERRLOG_ENTRY` (R521): the entry at the cursor or the oldest one; with the job filter the next of that job, for a tenant the next
of its slot. -/
def Dev.readErrLog (d : Dev) (v : Via) : SdoAnswer × Dev :=
  let es := d.log.entries
  let x := d.client v
  let oldest := (es.head?.map (·.seq)).getD 0
  let p := match x.errCursor with
    | some c => (let k := (c + 2 ^ 32 - oldest) % 2 ^ 32
                 if 2 ^ 31 ≤ k then 0 else k)
    | none => 0
  let mine (e : ErrEntry) : Bool :=
    (!x.errFilter.getLsbD 15 || decide (e.job = bits x.errFilter.toNat 7 0)) &&
      (match d.clientSlot v with | some n => decide (e.slot = n) | none => true)
  match (es.drop p).find? mine with
  | some e => (.data e.bytes, d.setClient v { x with errCursor := some ((e.seq + 1) % 2 ^ 32) })
  | none => (.abort abNoData, d)

/-- A refused access is recorded when check 4 or 5 refuses it (R502). -/
def Dev.refuse (d : Dev) (t : TimeBase) (v : Via) (r : Refused) : SdoAnswer × Dev :=
  (.abort r.code, if r.auth then d.authFailed t v else d)

/-- A read of one sub-index. -/
def Dev.doRead (d : Dev) (t : TimeBase) (v : Via) (idx sub : Nat) : SdoAnswer × Dev :=
  match d.checkRead v idx sub with
  | some r => d.refuse t v r
  | none =>
    if idx = 0x2500 ∧ sub = 0x40 then d.newNonce v
    else if idx = 0x2500 ∧ sub = 0x42 then (.data (le 1 (d.roleOf v)), d)
    else if idx = 0x2300 ∧ sub = 0x15 then d.readJournal v
    else if idx = 0x2E00 ∧ sub = 6 then d.readErrLog v
    else (.data (d.value t idx sub), d)

/-- Existing sub-indices of an index from `from_`, ascending (R503). -/
def subsFrom (idx from_ : Nat) : List Nat :=
  (List.range (maxSub idx + 1)).filter fun s => decide (from_ ≤ s) && (findObj idx s).isSome

/-- A complete-access read (R503): every value of one pass, or the abort of the first sub-index that fails. -/
def Dev.readAll_ (d : Dev) (t : TimeBase) (v : Via) (idx from_ : Nat) : SdoAnswer × Dev :=
  if ¬ idxExists idx then (.abort abNoObject, d)
  else match (subsFrom idx from_).findSome? fun s => d.checkRead v idx s with
    | some r => d.refuse t v r
    | none => (.data ((subsFrom idx from_).flatMap fun s => d.value t idx s), d)

/-! ### Writes -/

/-- Whether the signature carried by the value of an object verifies (R415, R482, R483). -/
def Dev.sigFor (d : Dev) (v : Via) (idx sub : Nat) (val : List Byte) : Bool :=
  let x := d.client v
  let no : List Byte := le 1 (viaNo v)
  if idx = 0x2500 ∧ sub = 0x41 then
    Config.ecdsaOk (d.roleKey (fieldAt val 0 1) (fieldAt val 1 1)) (val.take 36 ++ no) (bytesAt val 36 96)
  else if idx = 0x2500 ∧ sub = 0x44 then Config.ecdsaOk (d.roleKey x.role x.key) (val.take 64 ++ x.sessionNonce ++ no) (bytesAt val 64 96)
  else if 0x4000 ≤ idx ∧ idx < 0x4100 ∧ sub = 0x50 then
    let n := val.length - 96
    (List.range 8).any fun k =>
      let key := d.obj (0x3002 + 0x10 * d.slotOf (idx - 0x4000)) (k + 1)
      !emptyKey key && Config.ecdsaOk key (val.take n) (val.drop n)
  else true

/-- A write of one sub-index, with the ticket at hand. -/
def Dev.doWrite (d : Dev) (t : TimeBase) (v : Via) (tk : Option (Nat × Nat × List Byte)) (idx sub : Nat) (val : List Byte) (sig : Bool) :
    SdoAnswer × TimeBase × Dev :=
  match d.checkWrite v (some tk) idx sub val, findObj idx sub with
  | some r, _ => (let (a, d1) := d.refuse t v r
                  (a, t, d1))
  | none, none => (.abort abNoSub, t, d)
  | none, some r => match d.applyWrite t v r idx sub val sig with
    | .error c => (.abort c, t, d)
    | .ok x => x

/-- Bytes of an object in a complete-access write: its size, or all that is left of a domain. -/
def ObjTy.bytesIn (ty : ObjTy) (left : Nat) : Nat :=
  match ty with
  | .oct n | .vstr n => n
  | .dom n => min n left
  | t => t.width / 8

/-- Complete access, sub-index by sub-index on a trial copy: the first failure ends it (R503). -/
def Dev.writeSubs (d : Dev) (t : TimeBase) (v : Via) (idx : Nat) :
    List Nat → List Byte → SdoAnswer → Except Refused (SdoAnswer × TimeBase × Dev)
  | [], b, a => if b = [] then .ok (a, t, d) else .error { code := abLength }
  | s :: l, b, a =>
    match findObj idx s with
    | none => .error { code := abNoSub }
    | some r =>
      let n := r.ty.bytesIn b.length
      match d.checkWrite v none idx s (b.take n) with
      | some x => .error x
      | none => match d.applyWrite t v r idx s (b.take n) (d.sigFor v idx s (b.take n)) with
        | .error c => .error { code := c }
        | .ok (.abort c, _, _) => .error { code := c }
        | .ok (a1, t1, d1) => d1.writeSubs t1 v idx l (b.drop n) (if a = .waiting then a else a1)

/-- A complete-access write (R489, R503): one ticket, for its first sub-index, covers the whole data (R483); without it the write
fails at that sub-index, by its checks 1 to 4 or by check 5 (R502). -/
def Dev.writeAll_ (d : Dev) (t : TimeBase) (v : Via) (tk : Option (Nat × Nat × List Byte)) (idx from_ : Nat) (data : List Byte) :
    SdoAnswer × TimeBase × Dev :=
  let fail (r : Refused) : SdoAnswer × TimeBase × Dev := (let (a, d1) := d.refuse t v r
                                                        (a, t, d1))
  let subs := subsFrom idx from_
  let needs := subs.any fun s => (findObj idx s).any fun r => d.needsTicket v r idx s data
  let early (r : Refused) : Bool := decide (r.code = abNoSub) || decide (r.code = abState) || decide (r.code = abAccess)
  if ¬ idxExists idx then fail { code := abNoObject }
  else if needs ∧ ¬ ticketFits tk idx from_ data then
    match subs.head?.bind fun s => d.checkWrite v none idx s data with
    | some r => fail (if early r then r else { code := abAccess, auth := true })
    | none => fail { code := abAccess, auth := true }
  else match d.writeSubs t v idx subs data .ok with
    | .error r => fail r
    | .ok x => x

/-! ### Requests (R483, R484, R502) -/

/-- A session hears from its tenant (R536). -/
def Dev.touch (d : Dev) (t : TimeBase) (v : Via) : Dev :=
  match v with
  | .endpoint _ => d
  | .session h k => match d.sess h.val k.val with
    | some s => d.setSess h.val k.val (some { s with lastMsg := t.elapsed })
    | none => d

/-- A request: it consumes the pending ticket, ends the idle time, and is answered. One waits while an earlier request of the same
endpoint is being answered (R30); none is served that its transport does not carry. -/
def Dev.request (d : Dev) (t : TimeBase) (v : Via) (f : Option (Nat × Nat × List Byte) → Dev → SdoAnswer × TimeBase × Dev) :
    TimeBase × Dev :=
  let x := d.client v
  if ¬ d.carries v ∨ x.answer = .waiting then (t, d)
  else
    let (a, t1, d1) := f x.ticket ((d.setClient v { x with ticket := none, lastReq := t.elapsed }).touch t v)
    (t1, d1.answer v a)

/-- A segmented transfer of the requester ends. -/
def Dev.endSeg (d : Dev) (v : Via) : Dev := d.setClient v { d.client v with seg := none, segTicket := none }

/-- The requester writes the image of the load in progress (R571). -/
def Dev.loadsBy (d : Dev) (v : Via) : Bool :=
  d.fw.loading && decide (d.fw.source = 4) && decide (d.fw.via = some v) && !d.fw.verifying

/-- A segment of a segmented write (R489, R504, R571). -/
def Dev.segment (d : Dev) (t : TimeBase) (v : Via) (data : List Byte) (last : Bool) : SdoAnswer × TimeBase × Dev :=
  let x := d.client v
  match x.seg with
  | none => (let (c, d1) := d.fresh 32
             (.abort c, t, d1))
  | some (i, s, b, _) =>
    if i = 0x2400 ∧ s = 1 then
      let d1 := fwImage v data last t (if last then d.endSeg v else d.setClient v { x with seg := some (i, s, [], t.elapsed) })
      ((d1.client v).answer, t, d1)
    else if last then (d.endSeg v).doWrite t v x.segTicket i s (b ++ data) (d.sigFor v i s (b ++ data))
    else (.ok, t, d.setClient v { x with seg := some (i, s, b ++ data, t.elapsed) })

/-- One SDO service. A service other than a segment ends a segmented transfer in progress. -/
def Dev.sdo (d : Dev) (t : TimeBase) (v : Via) (req : SdoReq) (tk : Option (Nat × Nat × List Byte)) : SdoAnswer × TimeBase × Dev :=
  match req with
  | .read idx sub => (let (a, d1) := (d.endSeg v).doRead t v idx.toNat sub.toNat
                      (a, t, d1))
  | .write idx sub data => (d.endSeg v).doWrite t v tk idx.toNat sub.toNat data (d.sigFor v idx.toNat sub.toNat data)
  | .readAll idx zero => (let (a, d1) := (d.endSeg v).readAll_ t v idx.toNat (if zero then 0 else 1)
                          (a, t, d1))
  | .writeAll idx zero data => (d.endSeg v).writeAll_ t v tk idx.toNat (if zero then 0 else 1) data
  | .segStart idx sub =>
    (.ok, t, d.setClient v { d.client v with seg := some (idx.toNat, sub.toNat, [], t.elapsed), segTicket := tk })
  | .segData data last => d.segment t v data last
  | .abort => (.ok, t, (if d.loadsBy v then d.endLoad 0x5012 else d).endSeg v)

/-- SDO_REQUEST. -/
def execSdoRequest (v : Via) (req : SdoReq) (s : State) : Host.Outcome State Fault Refusal :=
  actTime s fun t d => d.request t v fun tk d => d.sdo t v req tk

/-- The DOE mailbox of a host die serves an object: it serves one at a time (R535). -/
def Dev.doeBusy (d : Dev) (h : Nat) : Bool :=
  (d.die h).object || (d.die h).sessions.any fun e => e.2.any fun s => decide (s.ep.answer = .waiting)

/-- TENANT_SDO (R485, R539). -/
def execTenantSdo (h : HostDie) (k : Fin 16) (req : SdoReq) (s : State) : Host.Outcome State Fault Refusal :=
  actTime s fun t d => if d.doeBusy h.val then (t, d) else d.request t (.session h k) fun tk d => d.sdo t (.session h k) req tk

/-- SEGMENT_TIMEOUT (R504, R571): 1 s without the next segment; a load of `FW_IMAGE` is abandoned. -/
def Dev.segTimeout (d : Dev) (t : TimeBase) (v : Via) : Dev :=
  let old (e : Nat) : Bool := decide (e + 1000000000 ≤ t.elapsed)
  let seg : Bool := (d.client v).seg.any fun x => old x.2.2.2
  if d.loadsBy v ∧ old d.fw.lastByte then ((d.endLoad 0x5011).endSeg v).answer v (.abort 0x05040000)
  else if seg then (d.endSeg v).answer v (.abort 0x05040000)
  else d

/-- SEGMENT_TIMEOUT. -/
def execSegmentTimeout (v : Via) (s : State) : Host.Outcome State Fault Refusal := act s fun t d => d.segTimeout t v

/-- MBX_GO (R480): accepted when the mailbox is idle and `LEN` is in range; else `REJECTED`. -/
def Dev.mbxGo (d : Dev) (t : TimeBase) (h : HostDie) (len : BitVec 12) (seq : Byte) (req : SdoReq) : TimeBase × Dev :=
  let e : EndpointId := ⟨h.val + 1, by omega⟩
  let x := { d.ep e.val with mbxLen := len, mbxSeq := seq }
  if ¬ d.pcie h.val then (t, d)
  else if (d.ep e.val).busy ∨ len.toNat < 6 ∨ 2048 < len.toNat then (t, d.setEp e.val { x with rejected := true })
  else (d.setEp e.val { x with busy := true, done := false, rejected := false }).request t (.endpoint e) fun tk d => d.sdo t (.endpoint e) req tk

/-- MBX_GO. -/
def execMbxGo (h : HostDie) (len : BitVec 12) (seq : Byte) (req : SdoReq) (s : State) : Host.Outcome State Fault Refusal :=
  actTime s fun t d => d.mbxGo t h len seq req

/-! ### Commands that read or write one object -/

/-- A write of one object. -/
def writeObj (v : Via) (idx sub : Nat) (val : List Byte) (sig : Bool) (s : State) : Host.Outcome State Fault Refusal :=
  actTime s fun t d => d.request t v fun tk d => d.doWrite t v tk idx sub val sig

/-- A read of one object. -/
def readObj (v : Via) (idx sub : Nat) (s : State) : Host.Outcome State Fault Refusal :=
  actTime s fun t d => d.request t v fun _ d => (let (a, d1) := d.doRead t v idx sub
                                                 (a, t, d1))

/-- CP_AUTH_NONCE (R482). -/
def execCpAuthNonce (v : Via) (s : State) : Host.Outcome State Fault Refusal := readObj v 0x2500 0x40 s
/-- CP_AUTH_RESPONSE (R482). -/
def execCpAuthResponse (v : Via) (resp : List Byte) (sigOk : Bool) (s : State) : Host.Outcome State Fault Refusal :=
  writeObj v 0x2500 0x41 resp sigOk s
/-- CP_WRITE_TICKET (R483). -/
def execCpWriteTicket (v : Via) (ticket : List Byte) (sigOk : Bool) (s : State) : Host.Outcome State Fault Refusal :=
  writeObj v 0x2500 0x44 ticket sigOk s
/-- CP_LOGOUT (R484). -/
def execCpLogout (v : Via) (s : State) : Host.Outcome State Fault Refusal := writeObj v 0x2500 0x43 [0] true s
/-- DEVICE_STATE_REQ (R488). -/
def execDeviceStateReq (v : Via) (val : Byte) (s : State) : Host.Outcome State Fault Refusal := writeObj v 0x2000 0x11 [val] true s
/-- RING_ENABLE (R490, R494). -/
def execRingEnable (v : Via) (r : RingId) (val : Byte) (s : State) : Host.Outcome State Fault Refusal :=
  writeObj v (0x2710 + r.val) 6 [val] true s
/-- JOURNAL_RECORD (R512). -/
def execJournalRecord (v : Via) (s : State) : Host.Outcome State Fault Refusal := readObj v 0x2300 0x15 s
/-- ERRLOG_ENTRY (R521). -/
def execErrlogEntry (v : Via) (s : State) : Host.Outcome State Fault Refusal := readObj v 0x2E00 6 s
/-- TXPDO_MAP (R508): sub-index 0 takes one byte. -/
def execTxpdoMap (v : Via) (sub : Fin 33) (val : W32) (s : State) : Host.Outcome State Fault Refusal :=
  writeObj v 0x1A00 sub.val (le (if sub.val = 0 then 1 else 4) val.toNat) true s
/-- HBM_CH_RETURN (R517). -/
def execHbmChReturn (v : Via) (val : W16) (s : State) : Host.Outcome State Fault Refusal := writeObj v 0x2C00 0x90 (le 2 val.toNat) true s
/-- DIAG_PRBS_LINK (R522). -/
def execDiagPrbsLink (v : Via) (val : Byte) (s : State) : Host.Outcome State Fault Refusal := writeObj v 0x2F00 5 [val] true s
/-- SLOT_TENANT_KEY (R523, R534). -/
def execSlotTenantKey (v : Via) (n : SlotId) (key : List Byte) (s : State) : Host.Outcome State Fault Refusal :=
  writeObj v (0x3001 + 0x10 * n.val) 1 key true s
/-- OWNER_KEY (R514, R533). -/
def execOwnerKey (v : Via) (k : Fin 16) (key : List Byte) (s : State) : Host.Outcome State Fault Refusal :=
  writeObj v 0x2500 (0x10 + k.val) key true s
/-- JOB_SLOT (R434). -/
def execJobSlot (v : Via) (j : JobId) (val : Byte) (s : State) : Host.Outcome State Fault Refusal := writeObj v (0x4000 + j.val) 1 [val] true s
/-- JOB_ADMIT_REQ (R443). -/
def execJobAdmitReq (v : Via) (j : JobId) (val : Byte) (s : State) : Host.Outcome State Fault Refusal :=
  writeObj v (0x4000 + j.val) 9 [val] true s
/-- JOB_MEMBERSHIP (R416). -/
def execJobMembership (v : Via) (j : JobId) (record : List Byte) (sigOk : Bool) (s : State) : Host.Outcome State Fault Refusal :=
  writeObj v (0x4000 + j.val) 0x50 record sigOk s
/-- LOAD (R515, R516). -/
def execLoad (v : Via) (j : JobId) (s : State) : Host.Outcome State Fault Refusal := writeObj v (0x4000 + j.val) 2 [1] true s
/-- DRAIN (R515). -/
def execDrain (v : Via) (j : JobId) (s : State) : Host.Outcome State Fault Refusal := writeObj v (0x4000 + j.val) 2 [2] true s
/-- RESUME (R515). -/
def execResume (v : Via) (j : JobId) (s : State) : Host.Outcome State Fault Refusal := writeObj v (0x4000 + j.val) 2 [3] true s
/-- STOP (R515). -/
def execStop (v : Via) (j : JobId) (s : State) : Host.Outcome State Fault Refusal := writeObj v (0x4000 + j.val) 2 [4] true s
/-- UNLOAD (R515). -/
def execUnload (v : Via) (j : JobId) (s : State) : Host.Outcome State Fault Refusal := writeObj v (0x4000 + j.val) 2 [5] true s

/-! ### Ends of a role (R484, R486) -/

/-- IDLE_TIMEOUT (R484): `CP_IDLE_TIMEOUT` seconds without a request. -/
def Dev.idleTimeout (d : Dev) (t : TimeBase) (e : Nat) : Dev :=
  let x := d.ep e
  if x.role ≠ 0 ∧ x.lastReq + d.objN 0x2500 0x45 * 1000000000 ≤ t.elapsed then d.setEp e x.logout else d

/-- IDLE_TIMEOUT. -/
def execIdleTimeout (e : EndpointId) (s : State) : Host.Outcome State Fault Refusal := act s fun t d => d.idleTimeout t e.val

/-- LOGIN_LOCKOUT_END (R486): 60 s after the eighth failure. -/
def Dev.lockoutEnd (d : Dev) (t : TimeBase) (e : Nat) : Dev :=
  let x := d.ep e
  if x.lockout.any fun l => decide (l ≤ t.elapsed) then d.setEp e { x with lockout := none } else d

/-- LOGIN_LOCKOUT_END. -/
def execLoginLockoutEnd (e : EndpointId) (s : State) : Host.Outcome State Fault Refusal := act s fun t d => d.lockoutEnd t e.val

/-! ### The EtherCAT interface (R477, R478, R508) -/

/-- AL states in order. -/
def alRank : AlState → Nat
  | .init => 0 | .boot => 0 | .preop => 1 | .safeop => 2 | .op => 3

/-- The highest AL state below BOOT that the device state allows; in FAULT the mailbox stays reachable (assumption 33). -/
def DevState.alLimit : DevState → Nat
  | .init => 0 | .boot => 0 | .preop => 1 | .safeop => 2 | .op => 3 | .fault => 1

/-- AL_CONTROL (R477): a request beyond the limits is answered with AL status code 0x0011. Falling to INIT resets the endpoint
(R484); SAFEOP takes the process-data mapping from below (R508). -/
def Dev.alControl (d : Dev) (want : AlState) : Dev :=
  let n := d.net
  let ok : Bool := if want = .boot then decide (d.pu.state = .boot) else decide (alRank want ≤ d.pu.state.alLimit)
  if ¬ d.pu.forwarding then d
  else if ¬ ok then { d with net := { n with alStatus := 0x11 } }
  else
    let up := decide (alRank n.al < 2 ∧ 2 ≤ alRank want)
    let d1 : Dev := { d with net := { n with
      al := want, alStatus := 0, map := if up then (d.mapEntries (d.objN 0x1A00 0)).map (BitVec.ofNat 32) else n.map } }
    if want = .init ∧ n.al ≠ .init then d1.resetEp 0 else d1

/-- AL_CONTROL. -/
def execAlControl (want : AlState) (s : State) : Host.Outcome State Fault Refusal := act s fun _ d => d.alControl want

/-- PDO_REFRESH (R478, R508): every millisecond of time base from SAFEOP upward, all mapped values of one pass, at least 8 bytes. -/
def Dev.pdoRefresh (d : Dev) (t : TimeBase) : Dev :=
  let n := d.net
  if alRank n.al < 2 ∨ n.refreshed = t.ns / 1000000 then d
  else
    let b := n.map.flatMap fun w => (let (idx, sub, _) := mapEntry w.toNat
                                     d.value t idx sub)
    { d with net := { n with sm3 := if b.length < 8 then padTo 8 b else b, refreshed := t.ns / 1000000 } }

/-- PDO_REFRESH. -/
def execPdoRefresh (s : State) : Host.Outcome State Fault Refusal := act s fun t d => d.pdoRefresh t

end Sys2Proof.Machine
end

