-- ==== Sys2Proof/Machine/Rings.lean ====
section
/-! DEFINITION. Rings of host memory and what passes through them: indices, device-written records, DMA commands and ingress
iterations (section 16.5), protected DMA (section 18.7). -/
namespace Sys2Proof.Machine

/-! ### Indices and device-written records (R491 to R493) -/

/-- The host die of a ring, its link, and the ring's length 2^k. -/
def Dev.ringDie (d : Dev) (r : Nat) : Nat := d.objN (0x2710 + r) 4
def Dev.ringUp (d : Dev) (r : Nat) : Bool := d.pcie (d.ringDie r)
def Dev.ringLen (d : Dev) (r : Nat) : Nat := 2 ^ d.objN (0x2710 + r) 3

/-- RING_INDEX_BAD (R491, R495). -/
def Dev.indexBad (d : Dev) (t : TimeBase) (r : Nat) : Dev := d.logErr t 0x01A1 (die := 28 + d.ringDie r) (unit := 7) (wh := r)

/-- HOST_IDX (R491): ignored in BAR0 of the other host die, and where the ring is not enabled. -/
def Dev.hostIdx (d : Dev) (t : TimeBase) (h r : Nat) (idx : W32) : Dev :=
  let g := d.rng r
  let step := (idx - g.host).toNat
  let ok : Bool :=
    if d.objN (0x2710 + r) 1 ≤ 3 then decide (step ≤ (g.dev - g.host).toNat)
    else decide (step < 2 ^ 31) && decide ((idx - g.dev).toNat ≤ d.ringLen r)
  if ¬ g.enabled ∨ d.ringDie r ≠ h ∨ ¬ d.pcie h then d
  else if ok then d.setRng r { g with host := idx }
  else d.indexBad t r

/-- HOST_IDX. -/
def execHostIdx (h : HostDie) (r : RingId) (idx : W32) (s : State) : Host.Outcome State Fault Refusal :=
  act s fun t d => d.hostIdx t h.val r.val idx

/-- Byte 0 of a record with the `PHASE` of the pass on entry i of a ring of length n (R492). -/
def phased (i n : Nat) (b : List Byte) : List Byte :=
  match b with
  | x :: l => (if i / n % 2 = 0 then x ||| 0x80#8 else x &&& 0x7F#8) :: l
  | [] => []

/-- DEVICE_RECORD_WRITE (R29, R492, R493): the oldest record of the backlog, while the ring has room and its host die is up. -/
def Dev.recordWrite (d : Dev) (r : Nat) : Dev :=
  let g := d.rng r
  let n := d.ringLen r
  match g.backlog with
  | b :: rest =>
    if g.enabled ∧ (g.dev - g.host).toNat < n ∧ d.ringUp r then
      (d.setRng r { g with
        dev := g.dev + 1, backlog := rest, written := mput [] g.written (g.dev.toNat % n) (phased g.dev.toNat n b)
        stalled := g.stalled && decide (2048 ≤ rest.length) }).bump (0x2710 + r) 8 1
    else d
  | [] => d

/-- DEVICE_RECORD_WRITE. -/
def execDeviceRecordWrite (r : RingId) (s : State) : Host.Outcome State Fault Refusal := act s fun _ d => d.recordWrite r.val

/-! ### The registers of BAR0 and BAR2 (R479, R491, R572) -/

/-- `MBX_STAT` (Table 16-4). -/
def Endpoint.mbxStat (x : Endpoint) : Nat :=
  x.rlen % 2 ^ 12 + x.rseq.toNat * 2 ^ 16 + b2n x.busy * 2 ^ 24 + b2n x.done * 2 ^ 25 + b2n x.rejected * 2 ^ 26

/-- What a read of BAR0 of a host die returns, at an offset and a width in bits (Table 16-2): 0 where the offset does not accept the
width, and for the indices of a ring of the other die. The buffers `MBX_REQ` and `MBX_RSP` pass as operand and as answer
(assumption 151). -/
def Dev.bar0 (d : Dev) (t : TimeBase) (h off width : Nat) : Nat :=
  let x := d.ep (h + 1)
  let r := (off - 0x2000) / 16
  if width = 32 then
    match off with
    | 0 => x.mbxLen.toNat + x.mbxSeq.toNat * 2 ^ 16
    | 4 => x.mbxStat
    | 8 => d.pu.state.code
    | 0xC => d.heartbeat t
    | _ => 0
  else if width ≠ 64 then 0
  else if off = 8 then d.pu.state.code + d.heartbeat t * 2 ^ 32
  else if 0x2000 ≤ off ∧ off < 0x2200 ∧ off % 8 = 0 ∧ d.ringDie r = h then
    (if off % 16 = 0 then (d.rng r).host else (d.rng r).dev).toNat
  else 0

/-- What a read of BAR2 of a host die returns (Tables 19-3, 19-4). -/
def Dev.bar2 (d : Dev) (h off width : Nat) : Nat :=
  let w := d.win h
  match off, width with
  | 0, 64 => w.addr.toNat
  | 8, 32 => w.len.toNat
  | 0x10, 32 => w.phase.val + b2n w.rejected * 4 + w.code.toNat * 2 ^ 16
  | 0x14, 32 => w.received % 2 ^ 32
  | _, _ => 0

/-! ### DMA commands (R495, R496, R544 to R547, R586) -/

/-- `dmaDone` of the job of a DMA ring: every command with a lower index has completed. -/
def Dev.settleDma (d : Dev) (r j : Nat) : Dev :=
  let n := match d.dmas.find? fun x => decide (x.ring = r) with
    | some x => x.idx
    | none => d.ctrN (0x2710 + r) 8
  d.setJob j { d.job j with dmaDone := n }

/-- A DMA command completes: its record of kind 7 (Table 16-9). -/
def Dev.dmaRecord (d : Dev) (t : TimeBase) (r j status : Nat) (ctx : List Byte) (bytes : Nat) : Dev :=
  ((d.emit t j (complRec 7 status j (d.slotOf j) ctx t.ns (le 8 bytes))).settleDma r j).groupWake t j

/-- A malformed entry (R495): it completes with 0x1002 when it names an existing job, else RING_INDEX_BAD is recorded. -/
def Dev.badEntry (d : Dev) (t : TimeBase) (r j : Nat) (complete : Dev → Dev) : Dev :=
  if d.slotOf j = 0xFF then d.indexBad t r else complete d

/-- A DMA command is malformed (R495, Tables 16-10, 18-7): a reserved operation, a reserved field, a field outside its range. -/
def dmaBad (job : Nat) (e : List Byte) : Bool :=
  let f := fieldAt e
  let op := f 0 1
  decide (op = 0 ∨ 2 < op) || decide (f 1 1 ≠ 0) || decide (f 2 1 ≠ job) || decide (f 3 1 ≠ 0) ||
    decide (f 4 4 % 256 ≠ 0 ∨ f 4 4 = 0 ∨ 2 ^ 30 < f 4 4) || decide (f 16 8 % 256 ≠ 0) || decide (f 24 8 % 256 ≠ 0) ||
    !protOk (bytesAt e 32 32) || (decide (op = 2) && (bytesAt e 36 28).any fun x => decide (x ≠ 0))

/-- Stack and first sector of an extent, when it lies wholly inside one region of the job (R295, R496). -/
def Job.extent (b : Job) (pa len : Nat) : Option (Nat × Nat) :=
  match b.regions.find? fun r => decide (r.1 = paRegion pa) with
  | some (_, k, s, n, _, _) =>
    if pa < 2 ^ 40 ∧ paOff pa + len ≤ n * 32 then some (k, s + paOff pa / 32) else none
  | none => none

/-- What the controller answers to the extent of a command (R223, R224). -/
def Dev.dmaVerdict (d : Dev) (j pa len : Nat) (write : Bool) : Admit × Nat × Nat :=
  match (d.job j).extent pa len with
  | some (k, s) => ((d.stk k).verdict (.job (d.slotOf j) j) s (len / 32) write, k, s)
  | none => (.denied, 0, 0)

/-- HBM_REGION_DENIED of a DMA command: recorded, and no job is affected (R223, R496). -/
def Dev.dmaDenied (d : Dev) (t : TimeBase) (r j pa : Nat) (ctx : List Byte) : Dev :=
  (d.logErr t 0x3006 (job := j) (die := 28 + d.ringDie r) (unit := 7) (wh := r) (detail := pa)).dmaRecord t r j 0x3006 ctx 0

/-- The request that stands for a transfer in its controller's queue: outbound a read of class P1 with the latest possible
deadline, inbound a write of class P3 (R233). -/
def Dma.req (x : Dma) : HbmReq :=
  { cls := if x.op = 1 then 3 else 1, sector := x.off / 32, write := decide (x.op = 1), slots := x.len / 32, deadline := 2 ^ 64 - 1,
    who := .job 0 x.job, reply := if x.op = 1 then .none else .dma (Fin.ofNat 32 x.ring) }

/-- DMA_COMMAND (R495, R496): in SAFEOP and OP; not while a key of the slot is being installed (R541). A transfer that R545 or R546
refuses completes at once and moves no data. -/
def Dev.dmaCommand (d : Dev) (t : TimeBase) (r : Nat) (e : List Byte) : Dev :=
  let f := fieldAt e
  let j := d.objN (0x2710 + r) 5
  let n := d.slotOf j
  let idx := d.ctrN (0x2710 + r) 8
  match d.takeEntry r 5 with
  | none => d
  | some d1 =>
    if ¬ (d.pu.state = .safeop ∨ d.pu.state = .op) ∨ (d.slot n).keyNext.isSome then d
    else
      let ctx := bytesAt e 8 8
      let (op, len, pa) := (f 0 1, f 4 4, f 24 8)
      let key := mget none (d.slot n).keys (f 33 1)
      if dmaBad j e then
        let q := f 2 1
        ((d1.badEntry t r q fun d => d.emit t q (complRec 7 0x1002 q (d.slotOf q) ctx t.ns (le 8 0))).settleDma r j).groupWake t j
      else match d.dmaVerdict j pa len (decide (op = 1)) with
        | (.range, _, _) | (.denied, _, _) => d1.dmaDenied t r j pa ctx
        | (_, k, s) =>
          let refused : Bool :=
            if op = 1 then decide (f 32 1 = 1) && (decide (f 36 4 = 0xFFFFFFFF) || key.isNone)
            else decide (f 32 1 = 0) || key.all fun x => decide (2 ^ 64 ≤ x.counter)
          let x := key.getD {}
          let c : Dma :=
            { ring := r, idx := idx, job := j, op := op, len := len, ctx := ctx, pa := pa, stack := k, off := s * 32, pmode := f 32 1,
              piv := bytesAt e 36 12, ptag := bytesAt e 48 16, key := if f 32 1 = 1 then x.key else 0, counter := x.counter }
          if refused then d1.dmaRecord t r j 0x5005 ctx 0
          else
            let d2 : Dev := { d1 with dmas := d1.dmas ++ [c] }
            if op = 1 then d2
            else (d2.pushReq k c.req).setSlot n { d2.slot n with keys := mput none (d2.slot n).keys (f 33 1) (some { x with counter := x.counter + 1 }) }

/-- DMA_COMMAND. -/
def execDmaCommand (r : RingId) (entry : List Byte) (s : State) : Host.Outcome State Fault Refusal :=
  act s fun t d => d.dmaCommand t r.val entry

/-- The request of the ring's transfer that has ended leaves the queue. -/
def Dev.dmaServed (d : Dev) (x : Dma) : Dev :=
  let k := d.stk x.stack
  if x.op = 1 then d else d.setStk x.stack { k with queue := k.queue.eraseP fun r => decide (r.reply = .dma (Fin.ofNat 32 x.ring)) }

/-- Data that arrived is written, sector by sector. -/
def Dev.dmaWrite (d : Dev) (x : Dma) (data : List Byte) : Dev :=
  (d.writeSectors x.stack (x.off / 32) ((List.range (x.len / 32)).map fun i =>
    bytesPay (padTo 32 ((data.drop (32 * i)).take 32)))).pushReq x.stack x.req

/-- An inbound transfer ends (R546, R547). -/
def Dev.dmaIn (d : Dev) (t : TimeBase) (x : Dma) (data : List Byte) (tagOk : Bool) : Dev :=
  if x.pmode = 0 then
    (let d1 := d.dmaWrite x data
     (d1.setJob x.job { d1.job x.job with clearInput := true }).dmaRecord t x.ring x.job 0 x.ctx x.len)
  else if tagOk then
    (let d1 := d.dmaWrite x data
     let b := d1.job x.job
     (d1.setJob x.job { b with model := Config.sha384 (b.model ++ le 8 x.pa ++ le 4 x.len ++ padTo 12 x.piv ++ padTo 16 x.ptag) }).dmaRecord
       t x.ring x.job 0 x.ctx x.len)
  else
    (d.setStk x.stack (((d.stk x.stack).zero (x.off / 32) (x.len / 32)).accept x.req)).dmaRecord t x.ring x.job 0x5004 x.ctx x.len

/-- An outbound transfer ends (R586): it counts the bytes before the first sector that could not be read. -/
def Dev.dmaOut (d : Dev) (t : TimeBase) (x : Dma) (errs : HbmErrs) : Dev :=
  match (d.dmaServed x).readSectors t x.stack (x.off / 32) (x.len / 32) errs none with
  | (_, some i, d1) => d1.dmaRecord t x.ring x.job 0x3002 x.ctx (32 * i)
  | (_, none, d1) => d1.dmaRecord t x.ring x.job 0 x.ctx x.len

/-- DMA_COMPLETE (R496): the oldest transfer of the ring, once its host die is up and its region serves requests. -/
def Dev.dmaComplete (d : Dev) (t : TimeBase) (r : Nat) (data : List Byte) (tagOk : Bool) (errs : HbmErrs) : Dev :=
  match d.dmas.find? fun x => decide (x.ring = r) with
  | none => d
  | some x =>
    let d1 : Dev := { d with dmas := d.dmas.erase x }
    if ¬ d.ringUp r then d
    else match (d.dmaVerdict x.job x.pa x.len (decide (x.op = 1))).1 with
      | .wait => d
      | .range | .denied => ((d1.dmaServed x).dmaDenied t r x.job x.pa x.ctx).keyProgress t (d.slotOf x.job)
      | .ok => (if x.op = 1 then d1.dmaIn t x data tagOk else d1.dmaOut t x errs).keyProgress t (d.slotOf x.job)

/-- DMA_COMPLETE. -/
def execDmaComplete (r : RingId) (data : List Byte) (tagOk : Bool) (errs : HbmErrs) (s : State) :
    Host.Outcome State Fault Refusal := act s fun t d => d.dmaComplete t r.val data tagOk errs

/-! ### Ingress (R495, R497) -/

/-- An extent entry. -/
def extEntry (e : List Byte) : Nat × List Nat := (fieldAt e 0 2, (List.range 4).map fun i => fieldAt e (8 + 4 * i) 4)

/-- The extent entries that an ingress record names. -/
def extEntries (e exts : List Byte) : List (List Byte) :=
  let n := fieldAt e 16 2
  if n = 1 then [bytesAt e 32 24] else (List.range n).map fun i => padTo 24 (bytesAt exts (24 * i) 24)

/-- An ingress record is malformed (R495, Table 16-11). -/
def ingressBad (job : Nat) (e exts : List Byte) : Bool :=
  let f := fieldAt e
  decide (f 0 1 ≠ 1) || decide (f 1 1 ≠ 0) || decide (f 2 1 ≠ job) || decide (f 3 1 ≠ 0) || decide (f 16 2 = 0 ∨ 64 < f 16 2) ||
    decide (f 20 4 ≠ 0) || decide (f 56 8 ≠ 0) || (decide (1 < f 16 2) && decide (f 24 8 % 64 ≠ 0)) ||
    (extEntries e exts).any fun x => decide (fieldAt x 2 6 ≠ 0)

/-- INGRESS_RECORD (R488, R495, R497): read in OP; a job without a DMA ring has no command to wait for. -/
def Dev.ingressEntry (d : Dev) (t : TimeBase) (r : Nat) (e exts : List Byte) : Dev :=
  let f := fieldAt e
  let j := d.objN (0x2710 + r) 5
  match d.takeEntry r 6 with
  | none => d
  | some d1 =>
    if d.pu.state ≠ .op ∨ d.pu.toSafeop then d
    else if ingressBad j e exts then
      d1.badEntry t r (f 2 1) fun d => d.ingressRecord_ t (f 2 1) 0x1002 { ctx := bytesAt e 8 8, tag := (d.job (f 2 1)).tag }
    else
      let b := d1.job j
      let i : Ingress :=
        { ctx := bytesAt e 8 8, fence := if (d.findRing 5 j).isSome then f 4 4 else b.dmaDone, tides := f 18 2,
          exts := (extEntries e exts).map extEntry }
      (d1.setJob j { b with ingress := b.ingress ++ [i] }).groupWake t j

/-- INGRESS_RECORD. -/
def execIngressRecord (r : RingId) (entry exts : List Byte) (s : State) : Host.Outcome State Fault Refusal :=
  act s fun t d => d.ingressEntry t r.val entry exts

/-- INGRESS_DISPATCH (R497): the oldest iteration, its fence met, goes to the guards of a job that runs and is switched in. -/
def Dev.ingressDispatch (d : Dev) (j : Nat) : Dev :=
  let b := d.job j
  match b.ingress with
  | i :: rest =>
    if b.ingressReady ∧ d.mayDispatch j then
      d.setJob j { b with ingress := rest, guardQ := b.guardQ ++ [i.exts], dispatched := b.dispatched ++ [{ i with chunks := 0 }] }
    else d
  | [] => d

/-- INGRESS_DISPATCH. -/
def execIngressDispatch (j : JobId) (s : State) : Host.Outcome State Fault Refusal := act s fun _ d => d.ingressDispatch j.val

/-- INGRESS_COMPLETE (R497): the oldest accepted iteration whose tide point the job has reached. -/
def Dev.ingressComplete (d : Dev) (t : TimeBase) (j : Nat) : Dev :=
  let b := d.job j
  match b.dispatched.find? fun i => decide (i.chunks ≠ 0) && decide (i.due ≤ d.ctrN (0x4000 + j) 0x17) with
  | some i => (d.setJob j { b with dispatched := b.dispatched.erase i }).ingressRecord_ t j 0 i
  | none => d

/-- INGRESS_COMPLETE. -/
def execIngressComplete (j : JobId) (s : State) : Host.Outcome State Fault Refusal := act s fun t d => d.ingressComplete t j.val

end Sys2Proof.Machine
end

