-- ==== Sys2Proof/Machine/Spdm.lean ====
section
/-! DEFINITION. SPDM over the DOE mailboxes (section 18.5), tenant messages and key delivery (section 18.6), IDE keys (section 18.8).
The codes of SPDM messages and errors are those of DSP0274 (assumption 34). -/
namespace Sys2Proof.Machine

/-! ### Requests and responses (R535, R536) -/

/-- An SPDM ERROR response of a code. -/
def errInvalid : List Byte := [0x7F, 0x01]
def errUnexpected : List Byte := [0x7F, 0x04]
def errDecrypt : List Byte := [0x7F, 0x06]
def errUnsupported : List Byte := [0x7F, 0x07]
def errSessions : List Byte := [0x7F, 0x0A]
def errVersion : List Byte := [0x7F, 0x41]

/-- A data object that the DOE mailbox of a die serves: one at a time, while its link is up and the trust unit runs. -/
def Dev.doe (d : Dev) (h : Nat) (f : Dev → Dev) : Dev := if d.pu.state = .init ∨ ¬ d.pcie h ∨ d.doeBusy h then d else f d

/-- A request before the session: it needs the negotiation to have reached a stage. -/
def Dev.atStage (d : Dev) (h n : Nat) (f : Dev → Dev) : Dev :=
  d.doe h fun d => if (d.die h).stage = n then f d else d.spdmRespond h errUnexpected

/-- SPDM_GET_VERSION: the negotiation begins again; open sessions stay. -/
def execSpdmGetVersion (h : HostDie) (s : State) : Host.Outcome State Fault Refusal :=
  act s fun _ d => d.doe h.val fun d =>
    (d.setDie h.val { d.die h.val with stage := 1, version := 0 }).spdmRespond h.val ([0x04, 2] ++ le 2 0x1200 ++ le 2 0x1300)

/-- SPDM_GET_CAPABILITIES: `CERT`, `CHAL`, `MEAS` with signature, `MEAS_FRESH`, `ENCRYPT`, `MAC`, `MUT_AUTH`, `KEY_EX`, `HBEAT`, `KEY_UPD`. -/
def execSpdmGetCapabilities (h : HostDie) (version : Byte) (s : State) : Host.Outcome State Fault Refusal :=
  act s fun _ d => d.atStage h.val 1 fun d =>
    if version = 12 ∨ version = 13 then
      (d.setDie h.val { d.die h.val with stage := 2, version := version.toNat }).spdmRespond h.val ([0x61] ++ le 4 0x63F6)
    else d.spdmRespond h.val errVersion

/-- SPDM_NEGOTIATE_ALGORITHMS. -/
def execSpdmNegotiateAlgorithms (h : HostDie) (suite : Bool) (s : State) : Host.Outcome State Fault Refusal :=
  act s fun _ d => d.atStage h.val 2 fun d =>
    if suite then (d.setDie h.val { d.die h.val with stage := 3 }).spdmRespond h.val [0x63] else d.spdmRespond h.val errInvalid

/-- SPDM_GET_DIGESTS: slot 0 only. -/
def execSpdmGetDigests (h : HostDie) (s : State) : Host.Outcome State Fault Refusal :=
  act s fun _ d => d.atStage h.val 3 fun d => d.spdmRespond h.val ([0x01, 1] ++ Config.sha384 Config.certChain)

/-- SPDM_GET_CERTIFICATE: a portion of the chain of slot 0. -/
def Dev.certificate (d : Dev) (h slot off len : Nat) : Dev :=
  let b := (Config.certChain.drop off).take len
  if slot = 0 ∧ off < Config.certChain.length then
    d.spdmRespond h ([0x02, 0] ++ le 2 b.length ++ le 2 (Config.certChain.length - off - b.length) ++ b)
  else d.spdmRespond h errInvalid

/-- SPDM_GET_CERTIFICATE. -/
def execSpdmGetCertificate (h : HostDie) (slot : Byte) (off len : W16) (s : State) : Host.Outcome State Fault Refusal :=
  act s fun _ d => d.atStage h.val 3 fun d => d.certificate h.val slot.toNat off.toNat len.toNat

/-- SPDM_CHALLENGE: the digest of the chain, a fresh nonce, and a signature over them. -/
def Dev.challenge (d : Dev) (h slot : Nat) : Dev :=
  if slot = 0 then
    let b := Config.sha384 Config.certChain ++ padTo 32 (Config.random 32 d.free)
    ({ d with free := d.free + 1 } : Dev).spdmRespond h ([0x03] ++ b ++ padTo 96 (Config.dikSign b))
  else d.spdmRespond h errInvalid

/-- SPDM_CHALLENGE. -/
def execSpdmChallenge (h : HostDie) (slot : Byte) (s : State) : Host.Outcome State Fault Refusal :=
  act s fun _ d => d.atStage h.val 3 fun d => d.challenge h.val slot.toNat

/-! ### Measurements (R538) -/

/-- Key values in index order, 97 bytes each. -/
def keyBytes (n : Nat) (key : Nat → List Byte) : List Byte := (List.range n).flatMap fun k => padTo 97 (key k)

/-- Index 0x40: the jobs of a slot in states 1 to 6. -/
def Dev.jobBlock (d : Dev) (n : Nat) : List Byte :=
  (d.jobsOf n).flatMap fun j =>
    let b := d.job j
    if 1 ≤ b.state ∧ b.state ≤ 6 then
      le 1 j ++ le 1 b.state ++ padTo 48 (b.plan.elim [] (·.meas)) ++ padTo 48 b.model ++ le 1 (b2n b.clearInput)
    else []

/-- A measurement block (Table 18-5): its value type with bit 7 for raw form (assumption 34), and its content. -/
def Dev.measurement (d : Dev) (slot : Option Nat) (i : Nat) : Option (Nat × List Byte) :=
  let dg (b : List Byte) : Nat × List Byte := (3, Config.sha384 b)
  match i with
  | 1 => some (0, Config.romDigest)
  | 2 => some (1, d.fw.measurement)
  | 3 => some (0x83, le 4 Config.romVersion.toNat ++ le 4 d.fw.version.toNat ++ le 4 (d.ctrN 0x2500 5) ++ le 4 Config.svnFloor)
  | 4 => some (0x82, le 2 Config.revision.toNat ++ le 1 1 ++ le 1 (b2n d.commissioned))
  | 5 => some (dg (keyBytes 16 fun k => d.obj 0x2500 (0x10 + k)))
  | 6 => some (dg (keyBytes 16 fun k => d.obj 0x2500 (0x20 + k)))
  | 7 => some (dg (keyBytes 64 fun k => d.obj (0x3001 + 0x10 * k) 1))
  | 8 => some (0x83, le 8 (leNat (d.value {} 0x2300 0x13)) ++ padTo 48 d.nv.copy1.hash)
  | 0x40 => slot.map fun n => (0x83, d.jobBlock n)
  | _ => none

/-- A block in the DMTF measurement specification format. -/
def Dev.block (d : Dev) (slot : Option Nat) (i : Nat) : List Byte :=
  match d.measurement slot i with
  | some (ty, b) => le 1 i ++ [1] ++ le 2 (b.length + 3) ++ le 1 ty ++ le 2 b.length ++ b
  | none => []

/-- The indices a requester may read. -/
def blockIndices (slot : Option Nat) : List Nat := [1, 2, 3, 4, 5, 6, 7, 8] ++ (if slot.isSome then [0x40] else [])

/-- The slot a binding names. -/
def Binding.slotNo : Binding → Option Nat
  | .slot n => some n
  | _ => none

/-- GET_MEASUREMENTS: index 0 asks for the number of blocks, 0xFF for all. A session bound to the operator carries none (R537). -/
def Dev.getMeasurements (d : Dev) (h : Nat) (session : Option (Fin 16)) (index : Nat) (sign : Bool) : Dev :=
  let sess := session.bind fun k => d.sess h k.val
  let slot := sess.bind fun x => x.binding.slotNo
  let may : Bool := match session with
    | none => decide ((d.die h).stage = 3)
    | some _ => sess.any fun x => decide (x.binding ≠ .pending) && decide (x.binding ≠ .operator)
  let is := blockIndices slot
  if ¬ may then d.spdmRespond h errUnexpected
  else if index ≠ 0 ∧ index ≠ 0xFF ∧ ¬ is.contains index then d.spdmRespond h errInvalid
  else
    let b := if index = 0 then le 1 is.length else (if index = 0xFF then is else [index]).flatMap (d.block slot)
    d.spdmRespond h ([0x60] ++ b ++ (if sign then padTo 96 (Config.dikSign b) else []))

/-- A session hears from its requester (R536). -/
def Dev.hear (d : Dev) (t : TimeBase) (h k : Nat) : Dev :=
  match d.sess h k with
  | some s => d.setSess h k (some { s with lastMsg := t.elapsed })
  | none => d

/-- GET_MEASUREMENTS. -/
def execGetMeasurements (h : HostDie) (session : Option (Fin 16)) (index : Byte) (sign : Bool) (s : State) :
    Host.Outcome State Fault Refusal :=
  act s fun t d => d.doe h.val fun d =>
    (match session with | some k => d.hear t h.val k.val | none => d).getMeasurements h.val session index.toNat sign

/-! ### Sessions (R536, R537) -/

/-- A session of either host die has this session ID. -/
def Dev.sessionId (d : Dev) (req rsp : W16) : Bool :=
  [0, 1].any fun h => (d.die h).sessions.any fun e => e.2.any fun s => decide (s.reqHalf = req) && decide (s.rspHalf = rsp)

/-- KEY_EXCHANGE: the responder half is the trust unit's choice (assumption 3), but no session ID repeats that of an open one. -/
def Dev.keyExchange (d : Dev) (t : TimeBase) (h : Nat) (req : W16) : Dev :=
  match (List.range 16).find? fun k => (d.sess h k).isNone with
  | none => d.spdmRespond h errSessions
  | some k =>
    let (f, d1) := d.fresh 16
    let rsp := ((List.range 33).map fun i => f + BitVec.ofNat 16 i).find? fun x => !d.sessionId req x
    let s : SpdmSession := { reqHalf := req, rspHalf := rsp.getD f, lastMsg := t.elapsed }
    (d1.setSess h k (some s)).spdmRespond h ([0x64] ++ le 2 s.rspHalf.toNat)

/-- KEY_EXCHANGE. -/
def execKeyExchange (h : HostDie) (reqHalf : W16) (s : State) : Host.Outcome State Fault Refusal :=
  act s fun t d => d.atStage h.val 3 fun d => d.keyExchange t h.val reqHalf

/-- The binding of a requester that has authenticated with a public key (R537). -/
def Dev.bindingOf (d : Dev) (key : List Byte) : Option Binding :=
  if emptyKey key then none
  else match (List.range 64).find? fun n => decide (1 ≤ d.slotState n ∧ d.slotState n ≤ 3) && decide (d.obj (0x3001 + 0x10 * n) 1 = key) with
    | some n => some (.slot n)
    | none => if (List.range 16).any fun k => decide (d.obj 0x2500 (0x20 + k) = key) then some .operator else none

/-- FINISH: it fixes the binding; a mutual authentication that fails ends the session, and so does a check that fails. -/
def Dev.finish (d : Dev) (t : TimeBase) (h k : Nat) (peer : Option (List Byte)) (ok : Bool) : Dev :=
  match d.sess h k with
  | none => d.spdmRespond h errUnexpected
  | some s =>
    if s.binding ≠ .pending then d.spdmRespond h errUnexpected
    else
      let bound (b : Binding) : Dev := (d.setSess h k (some { s with binding := b, lastMsg := t.elapsed })).spdmRespond h [0x65]
      let bad : Dev := (d.setSess h k none).spdmRespond h errDecrypt
      let failed : Dev := (bad.logErr t 0x5001 (die := 28 + h) (unit := 7) (wh := h)).bump 0x2500 6 1
      match peer with
      | none => if ok then bound .nothing else bad
      | some key => if ok then (match d.bindingOf key with | some b => bound b | none => failed) else failed

/-- FINISH. -/
def execFinish (h : HostDie) (k : Fin 16) (peerKey : Option (List Byte)) (ok : Bool) (s : State) : Host.Outcome State Fault Refusal :=
  act s fun t d => d.doe h.val fun d => d.finish t h.val k.val peerKey ok

/-- A message of an open session whose binding is fixed. -/
def Dev.inSession (d : Dev) (t : TimeBase) (h k : Nat) (f : SpdmSession → Dev → Dev) : Dev :=
  d.doe h fun d => match d.sess h k with
    | some s => if s.binding = .pending then d.spdmRespond h errUnexpected else f { s with lastMsg := t.elapsed } (d.hear t h k)
    | none => d.spdmRespond h errUnexpected

/-- SPDM_HEARTBEAT. -/
def execSpdmHeartbeat (h : HostDie) (k : Fin 16) (s : State) : Host.Outcome State Fault Refusal :=
  act s fun t d => d.inSession t h.val k.val fun _ d => d.spdmRespond h.val [0x68]

/-- SESSION_HEARTBEAT_TIMEOUT: three periods of 30 s without a message. -/
def Dev.sessionTimeout (d : Dev) (t : TimeBase) (h k : Nat) : Dev :=
  match d.sess h k with
  | some s => if s.lastMsg + 90000000000 ≤ t.elapsed then d.setSess h k none else d
  | none => d

/-- SESSION_HEARTBEAT_TIMEOUT. -/
def execSessionHeartbeatTimeout (h : HostDie) (k : Fin 16) (s : State) : Host.Outcome State Fault Refusal :=
  act s fun t d => d.sessionTimeout t h.val k.val

/-- KEY_UPDATE. -/
def execKeyUpdate (h : HostDie) (k : Fin 16) (s : State) : Host.Outcome State Fault Refusal :=
  act s fun t d => d.inSession t h.val k.val fun x d =>
    (d.setSess h.val k.val (some { x with updates := x.updates + 1 })).spdmRespond h.val [0x69]

/-- END_SESSION. -/
def execEndSession (h : HostDie) (k : Fin 16) (s : State) : Host.Outcome State Fault Refusal :=
  act s fun t d => d.inSession t h.val k.val fun _ d => (d.setSess h.val k.val none).spdmRespond h.val [0x6C]

/-- DOE_ABORT: the object in progress is discarded, with the response it waits for; no session changes. -/
def Dev.doeAbort (d : Dev) (h : Nat) : Dev :=
  let drop (o : Option (Nat × Nat)) : Option (Nat × Nat) := o.filter fun x => decide (x.1 ≠ h)
  let x := d.die h
  { d with
    spdm := mput {} d.spdm h { x with
      object := false
      sessions := mmap none (fun _ s => s.map fun s => if s.ep.answer = .waiting then { s with ep := { s.ep with answer := .ok } } else s) x.sessions }
    slots := mmap {} (fun _ (s : Slot) => { s with keyAns := drop s.keyAns }) d.slots
    jobs := mmap {} (fun _ (b : Job) => { b with srv := { b.srv with
      sessions := mmap none (fun _ s => s.map fun s => { s with closer := drop s.closer }) b.srv.sessions } }) d.jobs }

/-- DOE_ABORT. -/
def execDoeAbort (h : HostDie) (s : State) : Host.Outcome State Fault Refusal := act s fun _ d => if d.pcie h.val then d.doeAbort h.val else d

/-! ### Tenant vendor operations (R539 to R543) -/

/-- A vendor operation of a session bound to a slot; other sessions do not carry it (R537). -/
def Dev.vendor (d : Dev) (t : TimeBase) (h k : Nat) (f : Nat → Dev → Dev) : Dev :=
  d.inSession t h k fun s d => match s.binding with
    | .slot n => f n d
    | _ => d.spdmRespond h errUnsupported

/-- The response of an operation. -/
def Dev.vendorDone (d : Dev) (h op status : Nat) : Dev := d.spdmRespond h (vendorResponse op status)

/-- The response waits. -/
def Dev.vendorWaits (d : Dev) (h : Nat) : Dev := d.setDie h { d.die h with object := true }

/-- SET_HBM_KEY (R541). While the slot's key is being installed a further one waits. -/
def Dev.setHbmKey (d : Dev) (t : TimeBase) (h k n : Nat) (key : BitVec 512) (ok : Bool) : Dev :=
  let busy : Bool := (d.jobsOf n).any fun j => [1, 2, 3, 5].contains (d.job j).state
  if (d.slot n).keyNext.isSome then d.keyProgress t n
  else if ¬ ok then d.vendorDone h 2 0x5006
  else if busy ∨ key.extractLsb' 0 256 = key.extractLsb' 256 256 then d.vendorDone h 2 0x5007
  else ((d.setSlot n { d.slot n with keyNext := some key, keyFill := false, keyAns := some (h, k) }).vendorWaits h).keyProgress t n

/-- SET_HBM_KEY. -/
def execSetHbmKey (h : HostDie) (k : Fin 16) (key : BitVec 512) (ok : Bool) (s : State) : Host.Outcome State Fault Refusal :=
  act s fun t d => d.vendor t h.val k.val fun n d => d.setHbmKey t h.val k.val n key ok

/-- SET_TRANSFER_KEY (R543, R545): the outbound counter starts at 0. -/
def Dev.setTransferKey (d : Dev) (t : TimeBase) (h n index : Nat) (key : W256) (ok : Bool) : Dev :=
  if 7 < index then d.vendorDone h 3 0x5007
  else if ¬ ok then d.vendorDone h 3 0x5006
  else
    let s := d.slot n
    ((d.setSlot n { s with keys := mput none s.keys index (some { key := key }) }).keyRecord t n 0xFF 6 index false false []).vendorDone h 3 0

/-- SET_TRANSFER_KEY. -/
def execSetTransferKey (h : HostDie) (k : Fin 16) (index : Byte) (key : W256) (ok : Bool) (s : State) :
    Host.Outcome State Fault Refusal :=
  act s fun t d => d.vendor t h.val k.val fun n d => d.setTransferKey t h.val n index.toNat key ok

/-- OPEN_SERVING (R367, R542). -/
def Dev.openServing (d : Dev) (t : TimeBase) (h n j sess ring : Nat) (inKey : W256) (outKey : Option W256) (ok : Bool) : Dev :=
  let b := d.job j
  let refused : Bool := decide (d.slotOf j ≠ n) || !decide (2 ≤ b.state ∧ b.state ≤ 5) || (d.srvOf j).isNone ||
    (mget none b.srv.sessions sess).isSome || decide (32 ≤ ring) || !(d.rng ring).enabled || decide (d.objN (0x2710 + ring) 1 ≠ 2) ||
    decide (d.objN (0x2710 + ring) 5 ≠ j)
  if refused then d.vendorDone h 4 0x5007
  else if ¬ ok then d.vendorDone h 4 0x5006
  else
    let x : SrvSession := { inKey := inKey, outKey := outKey.getD 0, hasOut := outKey.isSome, ring := ring }
    ((d.setServing j { b.srv with sessions := mput none b.srv.sessions sess (some x) }).keyRecord t n j 7 sess false false []).vendorDone h 4 0

/-- OPEN_SERVING. -/
def execOpenServing (h : HostDie) (k : Fin 16) (j : JobId) (sess : Byte) (ring : Byte) (inKey : W256) (outKey : Option W256) (ok : Bool)
    (s : State) : Host.Outcome State Fault Refusal :=
  act s fun t d => d.vendor t h.val k.val fun n d => d.openServing t h.val n j.val sess.toNat ring.toNat inKey outKey ok

/-- A busy request of a session is cancelled, as by the host (R396). -/
def Serving.cancelOne (v : Serving) (t : TimeBase) (sess n : Nat) : Serving :=
  { v.setReq n { v.req n with cancel := true } with owed := v.owed ++ [{ stamp := t.ns, session := sess, req := n, code := 0 }] }

/-- CLOSE_SERVING (R542): answered when the session ends. -/
def Dev.closeServing (d : Dev) (t : TimeBase) (h k n j sess : Nat) : Dev :=
  let v := (d.job j).srv
  match mget none v.sessions sess with
  | none => d.vendorDone h 5 0x5007
  | some x =>
    if d.slotOf j ≠ n ∨ x.closing then d.vendorDone h 5 0x5007
    else
      let live := (v.reqs.filter fun e => decide (e.2.session = sess ∧ e.2.state ≠ .free ∧ e.2.state ≠ .closing) && !e.2.cancel).map (·.1)
      let v1 := live.foldl (fun v i => v.cancelOne t sess i) v
      ((d.setServing j { v1 with sessions := mput none v1.sessions sess (some { x with closing := true, closer := some (h, k) }) }).vendorWaits
        h).endClosing t

/-- CLOSE_SERVING. -/
def execCloseServing (h : HostDie) (k : Fin 16) (j : JobId) (sess : Byte) (s : State) : Host.Outcome State Fault Refusal :=
  act s fun t d => d.vendor t h.val k.val fun n d => d.closeServing t h.val k.val n j.val sess.toNat

/-! ### IDE (R548) -/

/-- IDE_KM: in a session bound to the operator. -/
def execIdeKm (h : HostDie) (k : Fin 16) (keySet rx : Bool) (key : W256) (s : State) : Host.Outcome State Fault Refusal :=
  act s fun t d => d.inSession t h.val k.val fun x d =>
    if x.binding = .operator then
      let y := d.die h.val
      (d.setDie h.val { y with ideKeys := mins y.ideKeys (2 * b2n keySet + b2n rx) key }).spdmRespond h.val [0x7E]
    else d.spdmRespond h.val errUnsupported

end Sys2Proof.Machine
end

