-- ==== Sys2Proof/Machine/Health.lean ====
section
/-! DEFINITION. Site spares and ageing (sections 20.4.1 to 20.4.4). -/
namespace Sys2Proof.Machine

/-- Logical site at a physical position, through the map in force (R205). -/
def Dev.logicalAt (d : Dev) (reef row col : Nat) : Option Nat :=
  let f := d.failOf reef row
  let c := if col < f then col else col - 1
  if col = f ∨ 16 ≤ c then none
  else some (siteNo (reef / 36) (reef % 36 / 6 * 16 + row) (reef % 6 * 16 + c))

/-- `FAIL` of a row with the change that waits for it (R591). -/
def Dev.failPending (d : Dev) (reef row : Nat) : Nat :=
  ((d.health.failNext.find? fun e => decide (e.1 = reef * 16 + row)).map (·.2)).getD (d.failOf reef row)

/-- Jobs whose partition includes a reef. -/
def Dev.holders (d : Dev) (reef : Nat) : List Nat := d.jobs.filterMap fun (j, b) => if b.state ≠ 0 ∧ b.reefs.contains reef then some j else none

/-- An event of a site is recorded: under every job it names, or under none. -/
def Dev.logSite (d : Dev) (t : TimeBase) (code reef detail : Nat) (site : Option Nat) (jobs : List Nat) : Dev :=
  let wh := site.elim (Config.logWhere code) siteWhere
  (if jobs.isEmpty then [0x1FF] else jobs).foldl (fun d j =>
    d.logErr t code (job := j) (die := reef / 36) (unit := 0) (wh := wh) (detail := detail)) d

/-- A reef is degraded (R593): every job that holds it stops at its next tide point; a reef that none holds stops at once. -/
def Dev.exhausted (d : Dev) (t : TimeBase) (reef : Nat) (site : Option Nat) : Dev :=
  if d.health.degraded.contains reef then d
  else
    let js := d.holders reef
    let d1 := (d.degrade reef).logSite t 0x8004 reef 0 site js
    if js.isEmpty then (reefSites reef).foldl (fun d s => d.setSite s (d.site s).ctlStop) d1
    else js.foldl (fun d j => d.stopSoon t j 0x8004) d1

/-- The job loaded on a reef when a spare is taken (R592): a temporal member is switched out at its next tide point; a spatial job
stops there after a predictive failure. -/
def Dev.spareJob (d : Dev) (t : TimeBase) (hard : Bool) (j : Nat) : Dev :=
  let b := d.job j
  if (d.groupOf j).isSome then
    (if b.state ≠ 2 ∨ b.stopping then d
     else
       let d1 := d.setJob j { b with atTide := if b.atTide = 0 then 3 else b.atTide }
       if b.idle then d1.startDrain t j else d1)
  else if hard then d
  else d.stopSoon t j 0x8001

/-- The condition under which a site becomes failing (R590). -/
def SiteHealth.fails (h : SiteHealth) (now : Nat) (c : FailCause) : Bool :=
  match c with
  | .uncorrectable => h.hard
  | .corrections => decide (8 ≤ (lastHour now h.doubleTimes).length)
  | .ageing => decide (h.ageing = 100)
  | .flits => decide (3 ≤ (lastHour now h.flitTimes).length)

/-- SITE_FAILING (R590 to R593): its position is bypassed; the row takes its spare, or the reef is degraded. -/
def Dev.siteFailing (d : Dev) (t : TimeBase) (reef row col : Nat) (c : FailCause) : Dev :=
  let k := reef * 272 + row * 17 + col
  let h := d.siteHealth k
  if h.failing ∨ ¬ h.fails t.ns c then d
  else
    let d1 := d.setSiteHealth k { h with failing := true }
    let site := d.logicalAt reef row col
    if d.failPending reef row = 31 then
      let js := (d.jobAt reef).toList
      let d2 : Dev := { d1 with health := { d1.health with failNext := d1.health.failNext ++ [(reef * 16 + row, col)] } }
      js.foldl (fun d j => d.spareJob t (decide (c = .uncorrectable)) j) (d2.logSite t 0x8001 reef (if col = 16 then 16 else 0) site js)
    else d1.exhausted t reef site

/-- SITE_FAILING. -/
def execSiteFailing (r : ReefId) (row : Fin 16) (col : Fin 17) (cause : FailCause) (s : State) : Host.Outcome State Fault Refusal :=
  act s fun t d => d.siteFailing t r.val row.val col.val cause

/-- A job runs on a reef it holds (R207, R591). -/
def Dev.reefRuns (d : Dev) (reef : Nat) : Bool :=
  (d.holders reef).any fun j =>
    let b := d.job j
    decide (b.state = 2) || decide (b.state = 3 ∧ b.drainAt.isSome) || b.stopping

/-- REPAIR_FIELD_CHANGE (R591). -/
def execRepairFieldChange (r : ReefId) (row : Fin 16) (s : State) : Host.Outcome State Fault Refusal :=
  act s fun _ d => if d.reefRuns r.val then d else d.repairRow r.val row.val

/-- AGEING_SAMPLE (R595): the monitor's margin, while the core dies are powered; `REEF_WEAR_r` is the highest of its reef. -/
def Dev.ageingSample (d : Dev) (t : TimeBase) (reef row col margin : Nat) : Dev :=
  let k := reef * 272 + row * 17 + col
  let d1 := d.setSiteHealth k { d.siteHealth k with ageing := margin }
  let wear := (List.range 272).foldl (fun m i => max m (d1.siteHealth (reef * 272 + i)).ageing) 0
  let thr := d.objN 0x2D00 0x30
  let warned := d.health.wearWarned.contains reef
  let keep := if thr ≤ wear then insNat d.health.wearWarned reef
    else if wear + 5 ≤ thr then d.health.wearWarned.filter (fun r => decide (r ≠ reef)) else d.health.wearWarned
  let d2 : Dev := { d1 with health := { d1.health with wear := mput 0 d1.health.wear reef wear, wearWarned := keep } }
  if ¬ d.pu.corePg ∨ ¬ d.fwRuns then d
  else if thr ≤ wear ∧ ¬ warned then d2.logSite t 0x8002 reef reef (d.logicalAt reef row col) [] else d2

/-- AGEING_SAMPLE. -/
def execAgeingSample (r : ReefId) (row : Fin 16) (col : Fin 17) (margin : Fin 101) (s : State) : Host.Outcome State Fault Refusal :=
  act s fun t d => d.ageingSample t r.val row.val col.val margin.val

end Sys2Proof.Machine
end

