-- ==== Sys2Proof/Machine/BringUp.lean ====
section
/-! DEFINITION. Bring-up from PREOP to OP (section 19.6). -/
namespace Sys2Proof.Machine

/-- A phase fails: FAULT with BRINGUP_FAIL, the phase in `DETAIL` (R580). -/
def Dev.bringupFail (d : Dev) (t : TimeBase) (phase die unit : Nat) : Dev := d.enterFault t 0x8010 die unit phase

/-- CLOCKS_AND_RING_END (R24): phase 2. -/
def Dev.clocksEnd (d : Dev) (t : TimeBase) (ok : Bool) (repairs : Nat) : Dev :=
  if d.pu.state ≠ .preop ∨ ¬ d.pu.corePg ∨ d.pu.phase2 then d
  else if ok then ({ d with pu := { d.pu with phase2 := true, phase2At := t.elapsed } } : Dev).bump 0x2F00 3 repairs
  else d.bringupFail t 2 (Config.logDie 0x8010) 5

/-- CLOCKS_AND_RING_END. -/
def execClocksAndRingEnd (ok : Bool) (repairs : Nat) (s : State) : Host.Outcome State Fault Refusal :=
  act s fun t d => d.clocksEnd t ok repairs

/-! ### Phase 3 (R577, Table 19-8) -/

/-- The columns of a row that fail and that the map does not mark. -/
def newFailures (f row : Nat) (failed : List (Nat × Nat)) : List Nat :=
  (failed.foldl (fun l x => if x.1 = row ∧ x.2 ≠ f then insNat l x.2 else l) [])

/-- The findings of one reef row. -/
def Dev.bistRow (d : Dev) (t : TimeBase) (reef row : Nat) (failed : List (Nat × Nat)) : Dev :=
  let f := d.failOf reef row
  let mark (d : Dev) (c : Nat) : Dev :=
    let k := reef * 272 + row * 17 + c
    d.setSiteHealth k { d.siteHealth k with failing := true }
  match newFailures f row failed with
  | [] => d
  | l@(c :: rest) =>
    let d1 := l.foldl mark d
    if f = 31 ∧ rest = [] then ((d1.setFail reef row c).mapChanged reef).bump 0x2F00 2 1
    else
      let d2 := if d1.health.degraded.contains reef then d1 else d1.degrade reef
      d2.logErr t 0x8004 (die := reef / 36) (unit := 1) (wh := reef)

/-- A reef with a failed lagoon bank or reef router buffer. -/
def Dev.bistReef (d : Dev) (t : TimeBase) (reef : Nat) : Dev :=
  let d1 := if d.health.degraded.contains reef then d else d.degrade reef
  d1.logErr t 0x8010 (die := reef / 36) (unit := 1) (wh := reef) (detail := 3)

/-- SITE_BIST_END (R577): phase 3 of an isle leaves its sites and lagoons at zero. -/
def Dev.bistEnd (d : Dev) (t : TimeBase) (i : Nat) (failed : List (Nat × Nat × Nat)) (badReefs : List Nat) (badPerimeter : Bool) : Dev :=
  if d.pu.state ≠ .preop ∨ ¬ d.pu.phase2 ∨ d.pu.bist.contains i then d
  else
    let reefs := (List.range 36).map (i * 36 + ·)
    let d1 := reefs.foldl (fun d r =>
      let mine := failed.filterMap fun x => if i * 36 + x.1 = r then some x.2 else none
      if mine = [] then d else (List.range 16).foldl (fun d row => d.bistRow t r row mine) d) d
    let d2 := (badReefs.foldl insNat []).foldl (fun d r => d.bistReef t (i * 36 + r)) d1
    if badPerimeter then d2.bringupFail t 3 i 3
    else { d2 with
      sites := mdrop (fun k => decide (siteIsle k = i)) d2.sites, lagoons := mdrop (fun r => decide (r / 36 = i)) d2.lagoons
      pu := { d2.pu with bist := insNat d2.pu.bist i, endedAt := mins d2.pu.endedAt i t.elapsed } }

/-- SITE_BIST_END. -/
def execSiteBistEnd (i : IsleId) (failed : List (Fin 36 × Fin 16 × Fin 17)) (badReefs : List (Fin 36)) (badPerimeter : Bool) (s : State) :
    Host.Outcome State Fault Refusal :=
  act s fun t d => d.bistEnd t i.val (failed.map fun x => (x.1.val, x.2.1.val, x.2.2.val)) (badReefs.map (·.val)) badPerimeter

/-! ### Phase 4 (R578) -/

/-- A channel marked for return is tested. -/
def Dev.returnChannel (d : Dev) (t : TimeBase) (k c : Nat) (pass : Bool) : Dev :=
  let x := d.stk k
  let m : W16 := BitVec.twoPow 16 c
  if x.chState c ≠ 3 then d
  else if pass then
    (((d.setStk k { x with
        active := x.active ||| m, returning := x.returning &&& ~~~m, chans := mput {} x.chans c {} }).nvOwn (0x2C10 + k) (0x31 + c)
      [0]).nvOwn (0x2C10 + k) (1 + c) [0, 0]).nvOwn (0x2C10 + k) (0x11 + c) [0]
  else
    ((d.setStk k { x with returning := x.returning &&& ~~~m }).nvOwn (0x2C10 + k) (0x31 + c) [2]).logErr t 0x3003 (die := 4 + k) (unit := 2)
      (wh := c)

/-- HBM_TRAINING_END (R216, R578). -/
def Dev.hbmEnd (d : Dev) (t : TimeBase) (k : Nat) (ok : Bool) (repairs : Nat) (pass : W16) : Dev :=
  if d.pu.state ≠ .preop ∨ ¬ d.pu.phase2 ∨ d.pu.trained.contains k then d
  else if ¬ ok then d.bringupFail t 4 (4 + k) 2
  else
    let d1 := (List.range 16).foldl (fun d c => d.returnChannel t k c (pass.getLsbD c)) (d.bump 0x2F00 4 repairs)
    let d2 := d1.setStk k { d1.stk k with
      mem := [], poison := [], lanes := [], regions := ({} : Stack).regions, zeroing := [], trained := true
      fwKey := padTo 64 (Config.random 64 d1.free) }
    { d2 with
      free := d2.free + 1
      pu := { d2.pu with trained := insNat d2.pu.trained k, endedAt := mins d2.pu.endedAt (4 + k) t.elapsed } }

/-- HBM_TRAINING_END. -/
def execHbmTrainingEnd (k : StackId) (ok : Bool) (repairs : Nat) (pass : W16) (s : State) : Host.Outcome State Fault Refusal :=
  act s fun t d => d.hbmEnd t k.val ok repairs pass

/-! ### Phases 5 and 6 (R202, R579) -/

/-- Dies on which phases 3 and 4 precede phase 5 of a bridge (R14): its two isles and their stacks. -/
def bridgeDies (b : Nat) : List Nat :=
  [ringIsles.getD b 0, ringIsles.getD ((b + 1) % 4) 0].flatMap fun i => [i, 4 + 4 * i, 5 + 4 * i, 6 + 4 * i, 7 + 4 * i]

/-- Phases 3 and 4 have ended on both isles of a bridge. -/
def Dev.bridgeReady (d : Dev) (b : Nat) : Bool := (bridgeDies b).all fun x => (d.pu.endedAt.any fun e => decide (e.1 = x))

/-- Lane groups of one direction after their test: at most two failing lanes take the spares, more put the group down. -/
def Dev.trainGroups (d : Dev) (dir : Nat) (lanes : List Nat) : Dev :=
  let d1 := (List.range 32).foldl (fun d g =>
    let n := lanes.getD g 0
    d.setLgroup dir g { d.lgroup dir g with spares := 2 - n, down := decide (2 < n) }) d
  d1.setCtr 0x2D00 (0x10 + dir) (sumNat ((List.range 32).map fun g => if 2 < lanes.getD g 0 then 2 ^ g else 0))

/-- SAFEOP when phase 5 has ended on all four bridges; OP at the later of SAFEOP and the end of phase 6. -/
def Dev.bringupDone (d : Dev) (t : TimeBase) : Dev :=
  let d1 : Dev := if d.pu.state = .preop ∧ d.pu.bridges.length = 4 then { d with pu := { d.pu with state := .safeop } } else d
  if d1.pu.state = .safeop ∧ d1.pu.phase6 ∧ ¬ d1.pu.firstOp then d1.toOp t else d1

/-- ISTHMUS_TRAINING_END (R202). -/
def Dev.isthmusEnd (d : Dev) (t : TimeBase) (b : Nat) (lanes : List Nat) : Dev :=
  if d.pu.state ≠ .preop ∨ ¬ d.bridgeReady b ∨ d.pu.bridges.contains b then d
  else
    let down (l : List Nat) : Nat := (l.filter fun n => decide (2 < n)).length
    let cw := lanes.take 32
    let ccw := (lanes.drop 32).take 32
    let d1 := (d.trainGroups (2 * b) cw).trainGroups (2 * b + 1) ccw
    if 4 < down cw ∨ 4 < down ccw then d1.bringupFail t 5 (20 + b) 4
    else ({ d1 with pu := { d1.pu with bridges := insNat d1.pu.bridges b } } : Dev).bringupDone t

/-- ISTHMUS_TRAINING_END. -/
def execIsthmusTrainingEnd (b : Fin 4) (lanes : List (Fin 67)) (s : State) : Host.Outcome State Fault Refusal :=
  act s fun t d => d.isthmusEnd t b.val (lanes.map (·.val))

/-- STRAIT_TRAINING_END (R579): every link has come up or failed, or PREOP + 2 s. -/
def Dev.straitEnd (d : Dev) (t : TimeBase) : Dev :=
  let busy := (List.range 16).any fun l => decide ((d.lnk l).state = .training) || decide ((d.lnk l).state = .securing)
  if ¬ (d.pu.state = .preop ∨ d.pu.state = .safeop) ∨ d.pu.phase6 ∨ (busy ∧ t.elapsed < d.pu.preopAt + 2000000000) then d
  else ({ d with pu := { d.pu with phase6 := true } } : Dev).bringupDone t

/-- STRAIT_TRAINING_END. -/
def execStraitTrainingEnd (s : State) : Host.Outcome State Fault Refusal := act s fun t d => d.straitEnd t

/-! ### Limits (R580) -/

/-- BRINGUP_PHASE_TIMEOUT: a phase that exceeds its limit on a die ends as its outcome column states. -/
def Dev.phaseTimeout (d : Dev) (t : TimeBase) (phase die : Nat) : Dev :=
  let p := d.pu
  let late (start limit : Nat) : Bool := decide (start + limit * 1000000 < t.elapsed)
  if p.state ≠ .preop ∧ ¬ (phase = 6 ∧ p.state = .safeop) then d
  else match phase with
    | 2 => if p.corePg ∧ ¬ p.phase2 ∧ late p.corePgAt 100 then d.bringupFail t 2 die 5 else d
    | 3 => if p.phase2 ∧ die < 4 ∧ ¬ p.bist.contains die ∧ late p.phase2At 600 then d.bringupFail t 3 die 3 else d
    | 4 => if p.phase2 ∧ 4 ≤ die ∧ die < 20 ∧ ¬ p.trained.contains (die - 4) ∧ late p.phase2At 800 then d.bringupFail t 4 die 2 else d
    | 5 =>
      let start := (bridgeDies (die - 20)).foldl (fun m x => max m (mget 0 p.endedAt x)) 0
      if 20 ≤ die ∧ die < 24 ∧ d.bridgeReady (die - 20) ∧ ¬ p.bridges.contains (die - 20) ∧ late start 200 then d.bringupFail t 5 die 4 else d
    | 6 => d.straitEnd t
    | _ => d

/-- BRINGUP_PHASE_TIMEOUT. -/
def execBringupPhaseTimeout (phase : Fin 7) (die : Fin 32) (s : State) : Host.Outcome State Fault Refusal :=
  act s fun t d => d.phaseTimeout t phase.val die.val

end Sys2Proof.Machine
end

