-- ==== Sys2Proof/Machine/Hop.lean ====
section
/-! DEFINITION. FLIT_HOP (R176, R183): one hop of a flit, and what a ring die or perimeter control does with one that is passed on. -/
namespace Sys2Proof.Machine

/-! ### One hop (R176, R183) -/

/-- Perimeter control passes a status token that has reached it on to the trust unit, by the ring to its nearer die
(R28, R160; assumption 119); a strait die takes a record that has crossed the ring to one of its links (R26, R414). -/
def Dev.passOn (d : Dev) (n : Node) (p : Port) (c : Cls) (x : Transit) : Dev :=
  match n with
  | .stop i k =>
    if x.answer ∧ k.val = 8 ∧ x.dst = .header ∧ d.canInject n x.flit.kind then
      (d.takeFlit n p c).putFlit n .loc (clsOf x.flit.kind) { x with dst := .die (Fin.ofNat 8 (nearTrust i.val)), express := false }
    else d
  | .ring _ => x.cargo.elim d fun e => (d.takeFlit n p c).cargoIn e.1 e.2
  | _ => d

/-- FLIT_HOP (R176): the flit at the head of an input buffer moves one hop when the next buffer has a credit. -/
def Dev.flitHop (d : Dev) (t : TimeBase) (n : Node) (p : Port) (c : Cls) (e : FlitEcc) : Dev :=
  match d.head n p c with
  | none => d
  | some x0 =>
    if e = .header then (d.takeFlit n p c).flitUncorrectable t n
    else
      let x : Transit := if e = .payload then { x0 with bad := true } else x0
      let d1 := if e = .payload then d.setHead n p c x else d
      match d1.nextHop n x c with
      | none => d1.passOn n p c x
      | some h =>
        if d1.hopReady h ∧ d1.heldBack n p c x h = false then d1.doHop t n p c x h else d1

/-- FLIT_HOP. -/
def execFlitHop (n : Node) (p : Port) (c : Cls) (e : FlitEcc) (s : State) : Host.Outcome State Fault Refusal :=
  act s fun t d => d.flitHop t n p c e

end Sys2Proof.Machine
end

