-- ==== Sys2Proof/Machine/Dispatch.lean ====
section
/-! DEFINITION. Dispatch: one arm per command, one direct call of its meaning. -/
namespace Sys2Proof.Machine

/-- The effect of a command on everything but the queue. -/
def exec (i : Instr) (s : State) : Host.Outcome State Fault Refusal :=
  match i with
  | .powerEvaluation => Sys2Proof.Machine.execPowerEvaluation s
  | .excursionEvaluation => Sys2Proof.Machine.execExcursionEvaluation s
  | .excursionTimeout => Sys2Proof.Machine.execExcursionTimeout s
  | .coreEnDrop => Sys2Proof.Machine.execCoreEnDrop s
  | .telemetrySample isles hbm io trust pkg vdd idd => Sys2Proof.Machine.execTelemetrySample isles hbm io trust pkg vdd idd s
  | .ringSegmentFailure seg => Sys2Proof.Machine.execRingSegmentFailure seg s
  | .trustFlitArrival die => Sys2Proof.Machine.execTrustFlitArrival die s
  | .nop site w e => Sys2Proof.Machine.execNop site w e s
  | .end_ site w e => Sys2Proof.Machine.execEnd site w e s
  | .arm site w e => Sys2Proof.Machine.execArm site w e s
  | .br site w e => Sys2Proof.Machine.execBr site w e s
  | .dbnz site w e => Sys2Proof.Machine.execDbnz site w e s
  | .rdst site w e => Sys2Proof.Machine.execRdst site w e s
  | .clrst site w e => Sys2Proof.Machine.execClrst site w e s
  | .setctr site w e => Sys2Proof.Machine.execSetctr site w e s
  | .sop site w e => Sys2Proof.Machine.execSop site w e s
  | .sopi site w e => Sys2Proof.Machine.execSopi site w e s
  | .li site w e => Sys2Proof.Machine.execLi site w e s
  | .tagr site w e => Sys2Proof.Machine.execTagr site w e s
  | .ld site w e => Sys2Proof.Machine.execLd site w e s
  | .st site w e => Sys2Proof.Machine.execSt site w e s
  | .agrst site w e => Sys2Proof.Machine.execAgrst site w e s
  | .vop site w e => Sys2Proof.Machine.execVop site w e s
  | .vtr site w e => Sys2Proof.Machine.execVtr site w e s
  | .vld site w e => Sys2Proof.Machine.execVld site w e s
  | .vpack site w e => Sys2Proof.Machine.execVpack site w e s
  | .vmx site w e => Sys2Proof.Machine.execVmx site w e s
  | .vhred site w e => Sys2Proof.Machine.execVhred site w e s
  | .vperm site w e => Sys2Proof.Machine.execVperm site w e s
  | .vmov site w e => Sys2Proof.Machine.execVmov site w e s
  | .mma site w e => Sys2Proof.Machine.execMma site w e s
  | .tclr site w e => Sys2Proof.Machine.execTclr site w e s
  | .tmov site w e => Sys2Proof.Machine.execTmov site w e s
  | .aadep site w e => Sys2Proof.Machine.execAadep site w e s
  | .aacmb site w e => Sys2Proof.Machine.execAacmb site w e s
  | .aacvt site w e => Sys2Proof.Machine.execAacvt site w e s
  | .aaclr site w e => Sys2Proof.Machine.execAaclr site w e s
  | .send site w e => Sys2Proof.Machine.execSend site w e s
  | .writeDataSram site n addr d => Sys2Proof.Machine.execWriteDataSram site n addr d s
  | .writeProgramStore site addr w => Sys2Proof.Machine.execWriteProgramStore site addr w s
  | .writeTriggerEntry site entry w => Sys2Proof.Machine.execWriteTriggerEntry site entry w s
  | .writeTileMetadata site tile w => Sys2Proof.Machine.execWriteTileMetadata site tile w s
  | .beginEpoch site epoch forced => Sys2Proof.Machine.execBeginEpoch site epoch forced s
  | .controlStop site => Sys2Proof.Machine.execControlStop site s
  | .readStatus site => Sys2Proof.Machine.execReadStatus site s
  | .tokenEject site p c => Sys2Proof.Machine.execTokenEject site p c s
  | .reduceAaEject site p c => Sys2Proof.Machine.execReduceAaEject site p c s
  | .emptyTokenEject site p c => Sys2Proof.Machine.execEmptyTokenEject site p c s
  | .drainMarkerEject site p c => Sys2Proof.Machine.execDrainMarkerEject site p c s
  | .triggerFire site => Sys2Proof.Machine.execTriggerFire site s
  | .siteDrained site => Sys2Proof.Machine.execSiteDrained site s
  | .siteGate site => Sys2Proof.Machine.execSiteGate site s
  | .scrubWord site e => Sys2Proof.Machine.execScrubWord site e s
  | .scrubOverdue site => Sys2Proof.Machine.execScrubOverdue site s
  | .flitHop n p c e => Sys2Proof.Machine.execFlitHop n p c e s
  | .multicastAccept r p c => Sys2Proof.Machine.execMulticastAccept r p c s
  | .mcReserve site p => Sys2Proof.Machine.execMcReserve site p s
  | .mcReservationGrant site k => Sys2Proof.Machine.execMcReservationGrant site k s
  | .mcGrant r p => Sys2Proof.Machine.execMcGrant r p s
  | .mcRelease site p => Sys2Proof.Machine.execMcRelease site p s
  | .multicastTimeout r => Sys2Proof.Machine.execMulticastTimeout r s
  | .multicastRetry r => Sys2Proof.Machine.execMulticastRetry r s
  | .channelWriteWindow r p c => Sys2Proof.Machine.execChannelWriteWindow r p c s
  | .channelReadWindow r p c e => Sys2Proof.Machine.execChannelReadWindow r p c e s
  | .spillStore r p c => Sys2Proof.Machine.execSpillStore r p c s
  | .spillReturn r p c => Sys2Proof.Machine.execSpillReturn r p c s
  | .lagoonCacheRead r sid line e => Sys2Proof.Machine.execLagoonCacheRead r sid line e s
  | .lagoonCacheFill r line => Sys2Proof.Machine.execLagoonCacheFill r line s
  | .lagoonScrub r e => Sys2Proof.Machine.execLagoonScrub r e s
  | .semaphoreRead r p c => Sys2Proof.Machine.execSemaphoreRead r p c s
  | .postFull r p c => Sys2Proof.Machine.execPostFull r p c s
  | .postEmpty r p c => Sys2Proof.Machine.execPostEmpty r p c s
  | .waitFull r p c => Sys2Proof.Machine.execWaitFull r p c s
  | .waitEmpty r p c => Sys2Proof.Machine.execWaitEmpty r p c s
  | .acq r p c => Sys2Proof.Machine.execAcq r p c s
  | .fetch r p c e => Sys2Proof.Machine.execFetch r p c e s
  | .rel r p c => Sys2Proof.Machine.execRel r p c s
  | .semaphoreWaitSatisfied r k => Sys2Proof.Machine.execSemaphoreWaitSatisfied r k s
  | .isthmusFrameReceive d g noise => Sys2Proof.Machine.execIsthmusFrameReceive d g noise s
  | .transitGrant d g => Sys2Proof.Machine.execTransitGrant d g s
  | .isthmusNak d g => Sys2Proof.Machine.execIsthmusNak d g s
  | .isthmusRetrainEnd d g lanes => Sys2Proof.Machine.execIsthmusRetrainEnd d g lanes s
  | .narrowWrite k p c err => Sys2Proof.Machine.execNarrowWrite k p c err s
  | .narrowRead k p c => Sys2Proof.Machine.execNarrowRead k p c s
  | .atomicAdd k p c err => Sys2Proof.Machine.execAtomicAdd k p c err s
  | .atomicCompareReplace k p c err => Sys2Proof.Machine.execAtomicCompareReplace k p c err s
  | .auCombine k p c err => Sys2Proof.Machine.execAuCombine k p c err s
  | .auClear k p c => Sys2Proof.Machine.execAuClear k p c s
  | .auDepositFp32 k p c errs => Sys2Proof.Machine.execAuDepositFp32 k p c errs s
  | .auDepositInt32 k p c errs => Sys2Proof.Machine.execAuDepositInt32 k p c errs s
  | .counterWait k p c => Sys2Proof.Machine.execCounterWait k p c s
  | .counterWaitReply k idx => Sys2Proof.Machine.execCounterWaitReply k idx s
  | .hbmRequestAccept k => Sys2Proof.Machine.execHbmRequestAccept k s
  | .hbmBurstGrant k pc busy => Sys2Proof.Machine.execHbmBurstGrant k pc busy s
  | .hbmReadComplete k idx errs onDie => Sys2Proof.Machine.execHbmReadComplete k idx errs onDie s
  | .channelMapOut k c => Sys2Proof.Machine.execChannelMapOut k c s
  | .channelMapOutEnd k => Sys2Proof.Machine.execChannelMapOutEnd k s
  | .hbmScrubRead k => Sys2Proof.Machine.execHbmScrubRead k s
  | .hbmScrubPassEnd k => Sys2Proof.Machine.execHbmScrubPassEnd k s
  | .hbmTempSample k t => Sys2Proof.Machine.execHbmTempSample k t s
  | .hbmRefresh k => Sys2Proof.Machine.execHbmRefresh k s
  | .regionZeroFillEnd k region => Sys2Proof.Machine.execRegionZeroFillEnd k region s
  | .blockStart idx sid => Sys2Proof.Machine.execBlockStart idx sid s
  | .granuleComplete idx sid blk granule => Sys2Proof.Machine.execGranuleComplete idx sid blk granule s
  | .blockDelivered idx sid => Sys2Proof.Machine.execBlockDelivered idx sid s
  | .writeBlockComplete idx sid => Sys2Proof.Machine.execWriteBlockComplete idx sid s
  | .streamEscape idx => Sys2Proof.Machine.execStreamEscape idx s
  | .escapeSpillComplete idx => Sys2Proof.Machine.execEscapeSpillComplete idx s
  | .streamCycleUnresolved idx => Sys2Proof.Machine.execStreamCycleUnresolved idx s
  | .streamsDrained idx j => Sys2Proof.Machine.execStreamsDrained idx j s
  | .tideReport idx p c => Sys2Proof.Machine.execTideReport idx p c s
  | .tidePoint j stage => Sys2Proof.Machine.execTidePoint j stage s
  | .partitionDrained j => Sys2Proof.Machine.execPartitionDrained j s
  | .epochTransition j => Sys2Proof.Machine.execEpochTransition j s
  | .lagoonZeroEnd r region => Sys2Proof.Machine.execLagoonZeroEnd r region s
  | .clearingProgramEnd site => Sys2Proof.Machine.execClearingProgramEnd site s
  | .drainTimeout j => Sys2Proof.Machine.execDrainTimeout j s
  | .forcedQuietEnd j => Sys2Proof.Machine.execForcedQuietEnd j s
  | .guardIteration j => Sys2Proof.Machine.execGuardIteration j s
  | .queueSpillStart site p c => Sys2Proof.Machine.execQueueSpillStart site p c s
  | .refillPass site q => Sys2Proof.Machine.execRefillPass site q s
  | .contextSwitchOut j => Sys2Proof.Machine.execContextSwitchOut j s
  | .planFetchComplete j image tagOk sigOk => Sys2Proof.Machine.execPlanFetchComplete j image tagOk sigOk s
  | .goodSiteMapChange j => Sys2Proof.Machine.execGoodSiteMapChange j s
  | .causewayLogit idx p c => Sys2Proof.Machine.execCausewayLogit idx p c s
  | .causewayLabel idx p c => Sys2Proof.Machine.execCausewayLabel idx p c s
  | .reduceRow idx slot => Sys2Proof.Machine.execReduceRow idx slot s
  | .softTargetRecord idx p c => Sys2Proof.Machine.execSoftTargetRecord idx p c s
  | .matchRow idx slot => Sys2Proof.Machine.execMatchRow idx slot s
  | .submit r desc buf gcmOk => Sys2Proof.Machine.execSubmit r desc buf gcmOk s
  | .cancel r desc => Sys2Proof.Machine.execCancel r desc s
  | .prefixWalk j req => Sys2Proof.Machine.execPrefixWalk j req s
  | .formBatchStep j => Sys2Proof.Machine.execFormBatchStep j s
  | .maskFetch idx slot => Sys2Proof.Machine.execMaskFetch idx slot s
  | .sampleRow idx slot => Sys2Proof.Machine.execSampleRow idx slot s
  | .stepComplete j => Sys2Proof.Machine.execStepComplete j s
  | .boundary j => Sys2Proof.Machine.execBoundary j s
  | .straitFrameReceive l f tagOk errs map => Sys2Proof.Machine.execStraitFrameReceive l f tagOk errs map s
  | .straitNak l => Sys2Proof.Machine.execStraitNak l s
  | .straitRetrainEnd l trained => Sys2Proof.Machine.execStraitRetrainEnd l trained s
  | .straitLaneFail l lane => Sys2Proof.Machine.execStraitLaneFail l lane s
  | .straitRekey l => Sys2Proof.Machine.execStraitRekey l s
  | .straitLinkTrained l lanes authOk peer => Sys2Proof.Machine.execStraitLinkTrained l lanes authOk peer s
  | .u0ChannelToken idx p c => Sys2Proof.Machine.execU0ChannelToken idx p c s
  | .collectiveCommand idx p c => Sys2Proof.Machine.execCollectiveCommand idx p c s
  | .collectiveRecord l => Sys2Proof.Machine.execCollectiveRecord l s
  | .bkpWaitExpiry n rank => Sys2Proof.Machine.execBkpWaitExpiry n rank s
  | .collectiveComplete n => Sys2Proof.Machine.execCollectiveComplete n s
  | .collectiveTimeout n => Sys2Proof.Machine.execCollectiveTimeout n s
  | .permuteComplete n => Sys2Proof.Machine.execPermuteComplete n s
  | .jobMembership v j record sigOk => Sys2Proof.Machine.execJobMembership v j record sigOk s
  | .jobSlot v j val => Sys2Proof.Machine.execJobSlot v j val s
  | .jobAdmitReq v j val => Sys2Proof.Machine.execJobAdmitReq v j val s
  | .admissionDecision j => Sys2Proof.Machine.execAdmissionDecision j s
  | .admissionRevokeTimeout j => Sys2Proof.Machine.execAdmissionRevokeTimeout j s
  | .sampleSetClose die energy overhead rows => Sys2Proof.Machine.execSampleSetClose die energy overhead rows s
  | .sampleSetArrival k => Sys2Proof.Machine.execSampleSetArrival k s
  | .windowSeal => Sys2Proof.Machine.execWindowSeal s
  | .ppsEdge => Sys2Proof.Machine.execPpsEdge s
  | .ppsLost => Sys2Proof.Machine.execPpsLost s
  | .timeRefLost => Sys2Proof.Machine.execTimeRefLost s
  | .holdoverExpiry => Sys2Proof.Machine.execHoldoverExpiry s
  | .timeRefReturn freq => Sys2Proof.Machine.execTimeRefReturn freq s
  | .replicaStrobeLoss die => Sys2Proof.Machine.execReplicaStrobeLoss die s
  | .frameForward port otherLink => Sys2Proof.Machine.execFrameForward port otherLink s
  | .alControl want => Sys2Proof.Machine.execAlControl want s
  | .pdoRefresh => Sys2Proof.Machine.execPdoRefresh s
  | .mbxGo h len seq req => Sys2Proof.Machine.execMbxGo h len seq req s
  | .sdoRequest v req => Sys2Proof.Machine.execSdoRequest v req s
  | .segmentTimeout v => Sys2Proof.Machine.execSegmentTimeout v s
  | .nvWriteCommitTimeout => Sys2Proof.Machine.execNvWriteCommitTimeout s
  | .cpAuthNonce v => Sys2Proof.Machine.execCpAuthNonce v s
  | .cpAuthResponse v resp sigOk => Sys2Proof.Machine.execCpAuthResponse v resp sigOk s
  | .cpWriteTicket v ticket sigOk => Sys2Proof.Machine.execCpWriteTicket v ticket sigOk s
  | .cpLogout v => Sys2Proof.Machine.execCpLogout v s
  | .idleTimeout e => Sys2Proof.Machine.execIdleTimeout e s
  | .loginLockoutEnd e => Sys2Proof.Machine.execLoginLockoutEnd e s
  | .deviceStateReq v val => Sys2Proof.Machine.execDeviceStateReq v val s
  | .holdJobsDrained => Sys2Proof.Machine.execHoldJobsDrained s
  | .ringEnable v r val => Sys2Proof.Machine.execRingEnable v r val s
  | .hostIdx h r idx => Sys2Proof.Machine.execHostIdx h r idx s
  | .deviceRecordWrite r => Sys2Proof.Machine.execDeviceRecordWrite r s
  | .dmaCommand r entry => Sys2Proof.Machine.execDmaCommand r entry s
  | .dmaComplete r data tagOk errs => Sys2Proof.Machine.execDmaComplete r data tagOk errs s
  | .ingressRecord r entry exts => Sys2Proof.Machine.execIngressRecord r entry exts s
  | .ingressDispatch j => Sys2Proof.Machine.execIngressDispatch j s
  | .ingressComplete j => Sys2Proof.Machine.execIngressComplete j s
  | .journalRecord v => Sys2Proof.Machine.execJournalRecord v s
  | .errlogEntry v => Sys2Proof.Machine.execErrlogEntry v s
  | .txpdoMap v sub val => Sys2Proof.Machine.execTxpdoMap v sub val s
  | .hbmChReturn v val => Sys2Proof.Machine.execHbmChReturn v val s
  | .diagPrbsLink v val => Sys2Proof.Machine.execDiagPrbsLink v val s
  | .slotTenantKey v n key => Sys2Proof.Machine.execSlotTenantKey v n key s
  | .ownerKey v k key => Sys2Proof.Machine.execOwnerKey v k key s
  | .load v j => Sys2Proof.Machine.execLoad v j s
  | .drain v j => Sys2Proof.Machine.execDrain v j s
  | .resume v j => Sys2Proof.Machine.execResume v j s
  | .stop v j => Sys2Proof.Machine.execStop v j s
  | .unload v j => Sys2Proof.Machine.execUnload v j s
  | .spdmGetVersion h => Sys2Proof.Machine.execSpdmGetVersion h s
  | .spdmGetCapabilities h version => Sys2Proof.Machine.execSpdmGetCapabilities h version s
  | .spdmNegotiateAlgorithms h suite => Sys2Proof.Machine.execSpdmNegotiateAlgorithms h suite s
  | .spdmGetDigests h => Sys2Proof.Machine.execSpdmGetDigests h s
  | .spdmGetCertificate h slot off len => Sys2Proof.Machine.execSpdmGetCertificate h slot off len s
  | .spdmChallenge h slot => Sys2Proof.Machine.execSpdmChallenge h slot s
  | .getMeasurements h session index sign => Sys2Proof.Machine.execGetMeasurements h session index sign s
  | .keyExchange h reqHalf => Sys2Proof.Machine.execKeyExchange h reqHalf s
  | .finish h k peerKey ok => Sys2Proof.Machine.execFinish h k peerKey ok s
  | .spdmHeartbeat h k => Sys2Proof.Machine.execSpdmHeartbeat h k s
  | .sessionHeartbeatTimeout h k => Sys2Proof.Machine.execSessionHeartbeatTimeout h k s
  | .keyUpdate h k => Sys2Proof.Machine.execKeyUpdate h k s
  | .endSession h k => Sys2Proof.Machine.execEndSession h k s
  | .doeAbort h => Sys2Proof.Machine.execDoeAbort h s
  | .tenantSdo h k req => Sys2Proof.Machine.execTenantSdo h k req s
  | .setHbmKey h k key ok => Sys2Proof.Machine.execSetHbmKey h k key ok s
  | .setTransferKey h k index key ok => Sys2Proof.Machine.execSetTransferKey h k index key ok s
  | .openServing h k j sess ring inKey outKey ok => Sys2Proof.Machine.execOpenServing h k j sess ring inKey outKey ok s
  | .closeServing h k j sess => Sys2Proof.Machine.execCloseServing h k j sess s
  | .journalCommit sense => Sys2Proof.Machine.execJournalCommit sense s
  | .holdupRetry sense => Sys2Proof.Machine.execHoldupRetry sense s
  | .entropyFail => Sys2Proof.Machine.execEntropyFail s
  | .lockstepMismatch => Sys2Proof.Machine.execLockstepMismatch s
  | .powerOnResetRelease => Sys2Proof.Machine.execPowerOnResetRelease s
  | .vstbyLoss => Sys2Proof.Machine.execVstbyLoss s
  | .resetN lowNs => Sys2Proof.Machine.execResetN lowNs s
  | .perst h => Sys2Proof.Machine.execPerst h s
  | .ioPgRise => Sys2Proof.Machine.execIoPgRise s
  | .corePgRise => Sys2Proof.Machine.execCorePgRise s
  | .corePgTimeout => Sys2Proof.Machine.execCorePgTimeout s
  | .powerGoodFall core withReset => Sys2Proof.Machine.execPowerGoodFall core withReset s
  | .foeWrite start data last => Sys2Proof.Machine.execFoeWrite start data last s
  | .fwImage v data last => Sys2Proof.Machine.execFwImage v data last s
  | .fwlGo h addr len image => Sys2Proof.Machine.execFwlGo h addr len image s
  | .fwlAbort h => Sys2Proof.Machine.execFwlAbort h s
  | .fwLoadTimeout => Sys2Proof.Machine.execFwLoadTimeout s
  | .fwVerify sigOk => Sys2Proof.Machine.execFwVerify sigOk s
  | .clocksAndRingEnd ok repairs => Sys2Proof.Machine.execClocksAndRingEnd ok repairs s
  | .siteBistEnd idx failed badReefs badPerimeter => Sys2Proof.Machine.execSiteBistEnd idx failed badReefs badPerimeter s
  | .hbmTrainingEnd k ok repairs pass => Sys2Proof.Machine.execHbmTrainingEnd k ok repairs pass s
  | .isthmusTrainingEnd b lanes => Sys2Proof.Machine.execIsthmusTrainingEnd b lanes s
  | .straitTrainingEnd => Sys2Proof.Machine.execStraitTrainingEnd s
  | .bringupPhaseTimeout phase die => Sys2Proof.Machine.execBringupPhaseTimeout phase die s
  | .siteFailing r row col cause => Sys2Proof.Machine.execSiteFailing r row col cause s
  | .repairFieldChange r row => Sys2Proof.Machine.execRepairFieldChange r row s
  | .ageingSample r row col margin => Sys2Proof.Machine.execAgeingSample r row col margin s
  | .isleTempSample idx t => Sys2Proof.Machine.execIsleTempSample idx t s
  | .selfCheckEnd r m => Sys2Proof.Machine.execSelfCheckEnd r m s
  | .mramCommitEnd => Sys2Proof.Machine.execMramCommitEnd s
  | .holdupSenseSample mv => Sys2Proof.Machine.execHoldupSenseSample mv s
  | .clockGlideStep idx => Sys2Proof.Machine.execClockGlideStep idx s
  | .pcieLinkDown h => Sys2Proof.Machine.execPcieLinkDown h s
  | .pcieLinkUp h => Sys2Proof.Machine.execPcieLinkUp h s
  | .thermalTrip t => Sys2Proof.Machine.execThermalTrip t s
  | .workUnitRelease j => Sys2Proof.Machine.execWorkUnitRelease j s
  | .maskLogitToken idx p c => Sys2Proof.Machine.execMaskLogitToken idx p c s
  | .ideKm h k keySet rx key => Sys2Proof.Machine.execIdeKm h k keySet rx key s
  | .tapInstruction t => Sys2Proof.Machine.execTapInstruction t s

end Sys2Proof.Machine
end

