-- ==== Sys2Proof/Safety.lean ====
section
/-! DEFINITION. The terms in which claims speak: the invariant of the time base, the commands that may reset it, the state
with its device replaced, and what an instruction of a site finds and leaves. -/
namespace Sys2Proof.Machine

/-- The state with everything but the time base and the queue replaced. -/
abbrev State.withDev (s : State) (d : Dev) : State := { s with dev := d }

/-- The time base keeps its form (R459, Table 15-5): both fractions are 48-bit fractions, `TIME_RATE_ADJ` lies within its range,
the two counting objects hold at their maximum. -/
def TimeBase.Ok (t : TimeBase) : Prop :=
  t.frac < 2 ^ 48 ∧ t.elapsedFrac < 2 ^ 48 ∧ t.rateAdj.natAbs ≤ 549755813 ∧ t.stepCount < 2 ^ 32 ∧ t.rejected < 2 ^ 32

/-- Time base in units of 2⁻⁴⁸ ns: `TIME_NS` above its 48-bit fraction (R459). -/
def TimeBase.fine (t : TimeBase) : Nat := t.ns * 2 ^ 48 + t.frac

/-- Interval counter in units of 2⁻⁴⁸ ns (R461). -/
def TimeBase.fineElapsed (t : TimeBase) : Nat := t.elapsed * 2 ^ 48 + t.elapsedFrac

/-- Commands that reset the time base with the device: loss of VSTBY, RESET_N, and the end of a commit for which a RESET_N waits
(R459, R564, R565). -/
def mayReset : Instr → Bool
  | .vstbyLoss | .resetN _ | .mramCommitEnd => true
  | _ => false

/-- Commands by which a requester writes an object of the dictionary (R477, R483): services, and the writes that have a row of their own. -/
def writesDict : Instr → Bool
  | .sdoRequest .. | .tenantSdo .. | .mbxGo .. | .cpAuthResponse .. | .cpWriteTicket .. | .cpLogout .. | .deviceStateReq .. => true
  | .ringEnable .. | .txpdoMap .. | .diagPrbsLink .. | .hbmChReturn .. | .slotTenantKey .. | .ownerKey .. => true
  | .jobSlot .. | .jobAdmitReq .. | .jobMembership .. | .load .. | .drain .. | .resume .. | .stop .. | .unload .. => true
  | _ => false

/-- Commands that drive the field-network interface: frames, AL states, process data, and the hold that ends OP (R475 to R477, R488, R508). -/
def drivesNet : Instr → Bool
  | .frameForward .. | .alControl .. | .pdoRefresh | .holdJobsDrained => true
  | _ => false

/-- Commands that begin or end a DMA transfer (R495, R496). -/
def movesDma : Instr → Bool
  | .dmaCommand .. | .dmaComplete .. => true
  | _ => false

/-- Commands of the power controller and its samples (R31 to R35). -/
def movesPower : Instr → Bool
  | .powerEvaluation | .excursionEvaluation | .telemetrySample .. => true
  | _ => false

/-- Events of the I/O ring (R27, R28). -/
def movesRing : Instr → Bool
  | .ringSegmentFailure .. | .trustFlitArrival .. => true
  | _ => false

/-- Commands that end a phase of bring-up after which SAFEOP or OP may follow (R202, R579, R580). -/
def endsBringUp : Instr → Bool
  | .isthmusTrainingEnd .. | .straitTrainingEnd | .bringupPhaseTimeout .. => true
  | _ => false

/-! ### Instructions of a site -/

/-- The site, the stream, the check of the word and the opcode (Table 5-13) of a command that executes an instruction. -/
def siteOp : Instr → Option (SiteId × Who × Ecc × Nat)
  | .nop i w e => some (i, w, e, 0x00)
  | .end_ i w e => some (i, w, e, 0x01)
  | .arm i w e => some (i, w, e, 0x02)
  | .br i w e => some (i, w, e, 0x03)
  | .dbnz i w e => some (i, w, e, 0x04)
  | .rdst i w e => some (i, w, e, 0x05)
  | .clrst i w e => some (i, w, e, 0x06)
  | .setctr i w e => some (i, w, e, 0x07)
  | .sop i w e => some (i, w, e, 0x08)
  | .sopi i w e => some (i, w, e, 0x09)
  | .li i w e => some (i, w, e, 0x0A)
  | .tagr i w e => some (i, w, e, 0x0B)
  | .ld i w e => some (i, w, e, 0x0C)
  | .st i w e => some (i, w, e, 0x0D)
  | .agrst i w e => some (i, w, e, 0x0E)
  | .vop i w e => some (i, w, e, 0x10)
  | .vtr i w e => some (i, w, e, 0x11)
  | .vld i w e => some (i, w, e, 0x12)
  | .vpack i w e => some (i, w, e, 0x13)
  | .vmx i w e => some (i, w, e, 0x14)
  | .vhred i w e => some (i, w, e, 0x15)
  | .vperm i w e => some (i, w, e, 0x16)
  | .vmov i w e => some (i, w, e, 0x17)
  | .mma i w e => some (i, w, e, 0x20)
  | .tclr i w e => some (i, w, e, 0x21)
  | .tmov i w e => some (i, w, e, 0x22)
  | .aadep i w e => some (i, w, e, 0x23)
  | .aacmb i w e => some (i, w, e, 0x24)
  | .aacvt i w e => some (i, w, e, 0x25)
  | .aaclr i w e => some (i, w, e, 0x26)
  | .send i w e => some (i, w, e, 0x30)
  | _ => none

/-- The instruction word at a stream's address. -/
def Dev.wordAt (d : Dev) (i : Nat) (c : Context) : Nat := (mget 0 (d.site i).prog c.pc).toNat

/-- What the gate of a site does with the flit f that has reached it by buffer (p, c), by a row that takes the flits of which `mine` holds:
a Stop's flush discards it, a site that an error stopped leaves it, one of another epoch waits after the drained report, is
discarded in forced mode, and else stops the site with EPOCH_MISMATCH; a flit of another row stays (R154, R182, R310). -/
def State.Gated (s : State) (i : SiteId) (p : Port) (c : Cls) (f : Flit) (cmd : Instr) (mine : Prop) : Prop :=
  let x := s.dev.site i.val
  (mine → x.controlStop = true → exec cmd s = .next (s.withDev (s.dev.discardAt i.val p c))) ∧
  (mine → x.controlStop = false → x.stopped.isSome = true → exec cmd s = .next s) ∧
  (mine → x.controlStop = false → x.stopped = none → f.epoch ≠ x.epoch.toNat → x.drainedReported = true → exec cmd s = .next s) ∧
  (mine → x.controlStop = false → x.stopped = none → f.epoch ≠ x.epoch.toNat → x.drainedReported = false →
    (x.forced = true → exec cmd s = .next (s.withDev (s.dev.discardAt i.val p c))) ∧
    (x.forced = false →
      exec cmd s = .next (s.withDev ((s.dev.takeFlit (siteNode i.val) p c).siteFault s.time i.val 0x2002 f.tag f.queue)))) ∧
  (¬ mine → exec cmd s = .next s)

/-- The instruction at the address of stream `w` of site i, in context c, has opcode `op` and may issue: the site runs, no reserved bit is
set, an ordered instruction of a context has its turn, and no earlier instruction waits at its unit (R99, R100, R109, R164). -/
def Dev.Issues (d : Dev) (i : Nat) (w : Who) (c : Context) (op : Nat) : Prop :=
  (d.site i).runner w = some c ∧ (d.site i).stopped = none ∧ (d.site i).controlStop = false ∧
  bits (d.wordAt i c) 63 58 = op ∧ (∃ fs, opFields op = some fs ∧ reservedZero (d.wordAt i c) fs = true) ∧
  (d.site i).unitFree w op = true ∧
  (w = .setup ∨ (d.site i).ordered (d.wordAt i c) = false ∨ ∃ k : Fin 4, w = .ctx k ∧ (d.site i).oldest k.val = true)

/-- What the instruction finds: its site, where it waits at no unit now, its context, whether it is setup code, its surroundings. -/
def Dev.runOf (d : Dev) (i : Nat) (w : Who) (c : Context) : SRun :=
  { x := (d.site i).offUnits w, c := c, setup := match w with | .setup => true | _ => false, env := d.siteEnv i }

/-- The site and the stream as an instruction that sends nothing leaves them, at the address `pc`. -/
def Dev.leaves (d : Dev) (i : Nat) (w : Who) (r : SRun) (pc : Nat) : Dev :=
  d.setSite i (match w with
    | .setup => { r.x with setup := some { r.c with pc := pc } }
    | .ctx k => { r.x with ctxs := mput none r.x.ctxs k.val (some { r.c with pc := pc }) })

/-- The site as an illegal word, or an illegal operand of it, leaves it: the corrections of the fetch counted, the site stopped with
ILLEGAL_INSTRUCTION at the word (R108, R164, R170). -/
def Dev.illegalAt (d : Dev) (t : TimeBase) (i : Nat) (e : Ecc) (c : Context) : Dev := (d.countEcc t i e).siteFault t i 0x200B c.tag.toNat c.pc

/-! ### Networks -/

/-- The input buffers of a trust die in the order in which it takes arriving flits (R28). -/
def trustPorts : List (Port × Cls) := [Port.cw, .ccw, .tap, .loc].flatMap fun p => [Cls.first, .credit, .control].map fun c => (p, c)

/-- A flit whose payload was found uncorrectable goes on marked; a sound one as it is (R183). -/
def Transit.checked (x : Transit) (e : FlitEcc) : Transit := if e = .payload then { x with bad := true } else x

/-- The device with the flit at the head of a buffer so marked. -/
def Dev.checkedAt (d : Dev) (n : Node) (p : Port) (c : Cls) (x : Transit) (e : FlitEcc) : Dev :=
  if e = .payload then d.setHead n p c (x.checked e) else d

/-! ### Flits for a lagoon -/

/-- A request of the semaphore bank whose operation `mine` names, while fewer than 32 waits are held; what is no data token counts as a
read (R276, R278, R281). -/
def Lagoon.takesOp (l : Lagoon) (f : Flit) (mine : Nat → Bool) : Bool :=
  decide (f.kind ≠ 1) && decide (f.queue = 62) && mine (if f.kind = 0 then (semReqOf f).op else 0) && decide (l.waits.length < 32)

/-- The rows by which a lagoon takes a flit that has reached it, and the flits that each takes: by its kind, its queue and the mode of
the channel (R181, R189, R190, R194, R211). -/
def Lagoon.takes (l : Lagoon) (f : Flit) : Instr → Bool
  | .channelWriteWindow .. => decide (f.kind ≠ 1) && decide (f.queue < 62) && decide (32 ≤ f.queue ∨ (l.chanD f.queue).mode ≤ 1)
  | .channelReadWindow .. => decide (f.kind ≠ 1) && decide (f.queue < 32) && decide ((l.chanD f.queue).mode = 2)
  | .spillStore .. => decide (f.kind ≠ 1) && decide (f.queue < 32) && decide ((l.chanD f.queue).mode = 3) && !f.asksSpill
  | .spillReturn .. => decide (f.queue < 32) && decide ((l.chanD f.queue).mode = 3) && f.asksSpill
  | .multicastAccept .. => decide (f.kind = 1)
  | .mcGrant .. => decide (f.kind = 2) && decide (f.queue = 63)
  | .semaphoreRead .. => l.takesOp f fun op => decide (op = 0 ∨ 8 ≤ op)
  | .postFull .. => l.takesOp f fun op => decide (op = 1)
  | .postEmpty .. => l.takesOp f fun op => decide (op = 2)
  | .waitFull .. => l.takesOp f fun op => decide (op = 3)
  | .waitEmpty .. => l.takesOp f fun op => decide (op = 4)
  | .acq .. => l.takesOp f fun op => decide (op = 5)
  | .fetch .. => l.takesOp f fun op => decide (op = 6)
  | .rel .. => l.takesOp f fun op => decide (op = 7)
  | _ => false

/-- The rows that take a flit from input buffer (p, c) of reef r's router for its lagoon. -/
def lagRows (r : ReefId) (p : Port) (c : Cls) (e : Ecc) : List Instr :=
  [.channelWriteWindow r p c, .channelReadWindow r p c e, .spillStore r p c, .spillReturn r p ⟨c, e⟩, .multicastAccept r p c] ++
    (if c = .credit then [.mcGrant r p] else [])

/-- A flit whose words are sound waits at the head of an input buffer of reef r's router for its lagoon, of the lagoon's epoch, and the job
of the reef is not stopped (R154, R182, R183). -/
def Dev.AtLagoon (d : Dev) (r : Nat) (p : Port) (c : Cls) (f : Flit) : Prop :=
  ∃ tr : Transit, d.arrived (reefNode r) p c = some tr ∧ tr.flit = f ∧ tr.bad = false ∧ (d.jobAt r).any d.jobStopped = false ∧
    f.epoch = (d.lag r).epoch.toNat

/-- The row that takes a semaphore request with the given operation (Table 8-4); what names no operation, the read takes (R281). -/
def bankRow (r : ReefId) (p : Port) (c : Cls) (e : Ecc) : Nat → Instr
  | 1 => .postFull r p c
  | 2 => .postEmpty r p c
  | 3 => .waitFull r p c
  | 4 => .waitEmpty r p c
  | 5 => .acq r p c
  | 6 => .fetch r p c e
  | 7 => .rel r p c
  | _ => .semaphoreRead r p c

/-- What becomes of the flit that has reached reef r's lagoon by buffer (p, c) before the row `cmd` does its own work: a flit of another row
stays; a stopped job's is discarded and counted, as one of another epoch in a forced reconfiguration; else one of another epoch and
one with a damaged payload end in an error of the lagoon (R154, R182, R183). -/
def State.LagGated (s : State) (r : ReefId) (p : Port) (c : Cls) (cmd : Instr) : Prop :=
  (s.dev.arrived (reefNode r.val) p c = none → exec cmd s = .next s) ∧
  ∀ tr : Transit, s.dev.arrived (reefNode r.val) p c = some tr →
    let l := s.dev.lag r.val
    let f := tr.flit
    let d := s.dev.takeFlit (reefNode r.val) p c
    let stop := (s.dev.jobAt r.val).any s.dev.jobStopped
    let forced := l.forced || (s.dev.jobAt r.val).any s.dev.jobForced
    (l.takes f cmd = false → exec cmd s = .next s) ∧
    (l.takes f cmd = true → (stop = true ∨ f.epoch ≠ l.epoch.toNat ∧ forced = true) →
      exec cmd s = .next (s.withDev (d.setLag r.val { l with discard := l.discard + 1 }))) ∧
    (l.takes f cmd = true → stop = false → f.epoch ≠ l.epoch.toNat → forced = false →
      exec cmd s = .next (s.withDev (d.lagError s.time r.val 0x2002 f.queue))) ∧
    (l.takes f cmd = true → stop = false → f.epoch = l.epoch.toNat → tr.bad = true →
      exec cmd s = .next (s.withDev (d.lagError s.time r.val 0x8005 f.queue)))

/-- A semaphore request at bank r for a pair of the bank, with an operation that the bank does not refuse, and room in its list of
waits (R276, R278, R281). -/
def Dev.AtBank (d : Dev) (r : Nat) (p : Port) (c : Cls) (f : Flit) (op slot : Nat) : Prop :=
  d.AtLagoon r p c f ∧ f.kind = 0 ∧ f.queue = 62 ∧ (semReqOf f).op = op ∧ (d.lag r).waits.length < 32 ∧
    d.semBad r (semReqOf f) = false ∧ d.bankSlot r (semReqOf f).pair = some slot

/-! ### HBM -/

/-- The lane buffers keep their form (R246): the buffer of a pseudo-channel holds sectors of that pseudo-channel, each once. -/
def Stack.LanesOk (x : Stack) : Prop :=
  mapOk [] x.lanes = true ∧ ∀ pc, (∀ e ∈ mget [] x.lanes pc, x.pcOf e.1 = pc) ∧ ((mget [] x.lanes pc).map (·.1)).Nodup

/-- A flit whose payload is sound waits at the stop of controller k for a window of the given mode, of the window's epoch; the stack serves
requests and the window's job is not stopped (R182, R183, R240). -/
def Dev.AtWindow (d : Dev) (k : Nat) (p : Port) (c : Cls) (f : Flit) (mode : Nat) : Prop :=
  ∃ tr : Transit, d.arrived (hbmNode k) p c = some tr ∧ tr.flit = f ∧ tr.bad = false ∧ (d.stk k).mapping = none ∧
    ((d.stk k).win f.queue).mode = mode ∧ d.jobStopped ((d.stk k).win f.queue).job = false ∧ f.epoch = mget 0 (d.stk k).epochs f.queue

/-- What a controller does with the flit that has reached its stop by buffer (p, c) before the row `cmd` of a window mode does its own work:
a stack that is being re-formed leaves it, as a window of another mode does; a window that is off discards and logs it; a stopped
job's is discarded and counted, as one of another epoch in a forced reconfiguration; else one of another epoch, one with a damaged
payload, and one of a kind that the mode does not take end in an error of the job (R154, R182, R183, R240, R256). -/
def State.WinGated (s : State) (k : StackId) (p : Port) (c : Cls) (cmd : Instr) (mode : Nat) (kinds : List Nat) : Prop :=
  (s.dev.arrived (hbmNode k.val) p c = none → exec cmd s = .next s) ∧
  ∀ tr : Transit, s.dev.arrived (hbmNode k.val) p c = some tr →
    let f := tr.flit
    let x := s.dev.stk k.val
    let w := x.win f.queue
    let d := s.dev.takeFlit (hbmNode k.val) p c
    let sound := d.jobStopped w.job = false ∧ f.epoch = mget 0 x.epochs f.queue
    (x.mapping.isSome = true → exec cmd s = .next s) ∧
    (x.mapping = none → w.mode = 0 →
      exec cmd s = .next (s.withDev (d.logErr s.time 0x200A (die := 4 + k.val) (unit := 2) (wh := k.val) (tag := f.queue)))) ∧
    (x.mapping = none → w.mode ≠ 0 → w.mode ≠ mode → exec cmd s = .next s) ∧
    (x.mapping = none → w.mode ≠ 0 → w.mode = mode →
      (d.jobStopped w.job = true ∨ (f.epoch ≠ mget 0 x.epochs f.queue ∧ d.jobForced w.job = true) →
        exec cmd s = .next (s.withDev (d.countDiscard w.job 1))) ∧
      (d.jobStopped w.job = false → f.epoch ≠ mget 0 x.epochs f.queue → d.jobForced w.job = false →
        exec cmd s = .next (s.withDev (d.jobError s.time w.job 0x2002 (4 + k.val) 2 k.val f.queue))) ∧
      (sound → tr.bad = true → exec cmd s = .next (s.withDev (d.jobError s.time w.job 0x8005 (4 + k.val) 2 k.val f.queue))) ∧
      (sound → tr.bad = false → f.kind ∉ kinds →
        exec cmd s = .next (s.withDev (d.jobError s.time w.job 0x200A (4 + k.val) 2 k.val f.queue))))

/-- A window's request for n sectors from `sec` is held in its sender while the region is zero-filled, and ends in 0x3004 outside the
stack and in 0x3006 where the window's region does not admit it (R218, R223, R224). -/
def State.WinRefuses (s : State) (k : StackId) (p : Port) (c : Cls) (cmd : Instr) (f : Flit) (sec n : Nat) (write : Bool) : Prop :=
  let x := s.dev.stk k.val
  let w := x.win f.queue
  let d := s.dev.takeFlit (hbmNode k.val) p c
  (x.verdict (.job w.slot w.job) sec n write = .wait → exec cmd s = .next s) ∧
  (x.verdict (.job w.slot w.job) sec n write = .range →
    exec cmd s = .next (s.withDev (d.hbmRefuse s.time k.val sec 0x3004 (some w.job)))) ∧
  (x.verdict (.job w.slot w.job) sec n write = .denied →
    exec cmd s = .next (s.withDev (d.hbmRefuse s.time k.val sec 0x3006 (some w.job))))

/-! ### Streams -/

/-- Stream sid of an isle may start its next block, whose descriptor is w, and no eligible block comes before it (R270, R272): it
runs, fewer than two blocks are in progress, the tide of the block is reached, and the count that its direction tests is not zero. Its
pair is at bank slot q of lagoon r. -/
def Dev.MayStart (d : Dev) (isle sid r q : Nat) (w : List W64) : Prop :=
  let a := d.arb isle
  let s := a.stream sid
  d.pairAt isle s.d.pair = some (r, q) ∧ s.d.dir ≠ 0 ∧ s.stopped = false ∧ s.done = false ∧ s.listDone = false ∧ s.nextWords = some w ∧
    (d.job s.job).state = 2 ∧ s.inprog.length < 2 ∧ tideReached (a.tideCount s) (s.tideOf (blockOf w)) = true ∧
    (if s.d.dir = 3 then (d.pair r q).full ≠ 0 else (d.pair r q).empty ≠ 0) ∧
    d.startsBefore isle (a.deadlineOf s (blockOf w)) sid = false

/-! ### Causeway -/

/-- A token whose payload is sound waits at the causeway stop of an isle for a queue whose role is not off, of a kind that the queue accepts;
the unit works for job j, which is not stopped, in the token's epoch (R346, R347). -/
def Dev.AtCauseway (d : Dev) (i : Nat) (p : Port) (c : Cls) (f : Flit) (j : Nat) : Prop :=
  ∃ tr : Transit, d.arrived (cwNode i) p c = some tr ∧ tr.flit = f ∧ tr.bad = false ∧ (d.cw i).job = some j ∧ d.jobStopped j = false ∧
    f.epoch = (d.cw i).epoch.toNat ∧ (cwRecOf (d.cw i).record).role f.queue ≠ 0 ∧ (f.kind = 0 ∧ f.hi4 = 15 ∨ f.kind = 4)

/-- What a causeway does with the flit that has reached it by buffer (p, cl) before the row `cmd`, which takes the queues of which `mine` holds,
does its own work: a flit of another row stays; without a job it ends in 0x2014; a stopped job's is discarded and counted, as one of another
epoch in a forced reconfiguration; else one of another epoch or with a damaged payload ends in an error of the job, and one of a queue
whose role is off or of a kind or mask that the queue does not accept in 0x2014 (R154, R182, R183, R346, R347). Every command counts
the waits of R364. -/
def State.CwGated (s : State) (i : IsleId) (p : Port) (cl : Cls) (cmd : Instr) (mine : Nat → Bool) : Prop :=
  let fin (d : Dev) : Host.Outcome State Fault Refusal := .next (s.withDev (d.cwClock s.time i.val))
  (s.dev.arrived (cwNode i.val) p cl = none → exec cmd s = fin s.dev) ∧
  ∀ tr : Transit, s.dev.arrived (cwNode i.val) p cl = some tr →
    let f := tr.flit
    let u := s.dev.cw i.val
    let d := s.dev.takeFlit (cwNode i.val) p cl
    (mine f.queue = false → exec cmd s = fin s.dev) ∧
    (mine f.queue = true → u.job = none → exec cmd s = fin (d.cwErr s.time i.val 0x2014 f.queue)) ∧
    (∀ j, mine f.queue = true → u.job = some j →
      (s.dev.jobStopped j = true ∨ f.epoch ≠ u.epoch.toNat ∧ s.dev.jobForced j = true → exec cmd s = fin (d.countDiscard j 1)) ∧
      (s.dev.jobStopped j = false → f.epoch ≠ u.epoch.toNat → s.dev.jobForced j = false →
        exec cmd s = fin (d.jobError s.time j 0x2002 i.val 3 6 f.queue)) ∧
      (s.dev.jobStopped j = false → f.epoch = u.epoch.toNat → tr.bad = true →
        exec cmd s = fin (d.jobError s.time j 0x8005 i.val 3 6 f.queue)) ∧
      (s.dev.jobStopped j = false → f.epoch = u.epoch.toNat → tr.bad = false →
        ((cwRecOf u.record).role f.queue = 0 ∨ (f.kind ≠ 0 ∧ f.kind ≠ 4) ∨ (f.kind = 0 ∧ f.hi4 ≠ 15)) →
        exec cmd s = fin (d.cwErr s.time i.val 0x2014 f.queue)))

/-! ### Straits -/

/-- A flit whose payload is sound waits at U0 of an isle on a queue that job j's plan uses, of the job's epoch, and the job is not
stopped (R154, R419). -/
def Dev.AtU0 (d : Dev) (isle : Nat) (p : Port) (c : Cls) (f : Flit) (j : Nat) (pl : Plan) (cr : CollRec) : Prop :=
  ∃ tr : Transit, d.arrived (u0Node isle) p c = some tr ∧ tr.flit = f ∧ tr.bad = false ∧ d.u0Job isle f.queue = some (j, pl, cr) ∧
    d.jobStopped j = false ∧ f.epoch = d.ctrN (0x4000 + j) 0x13

/-- What becomes of the flit that has reached U0 of isle i by buffer (p, c) before the row `cmd`, whose queues `mine` names and which takes the
kinds `kinds`, does its own work: one of another row stays, one that no plan uses is discarded; a stopped job's is discarded and
counted, as one of another epoch in a forced reconfiguration; else one of another epoch, one with a damaged payload and one of
another kind stop the job (R154, R182, R183, R419). -/
def State.U0Gated (s : State) (i : IsleId) (p : Port) (c : Cls) (cmd : Instr) (mine : Nat → Bool) (kinds : List Nat) : Prop :=
  (s.dev.arrived (u0Node i.val) p c = none → exec cmd s = .next s) ∧
  ∀ tr : Transit, s.dev.arrived (u0Node i.val) p c = some tr →
    let f := tr.flit
    let d := s.dev.takeFlit (u0Node i.val) p c
    (mine f.queue = false → exec cmd s = .next s) ∧
    (mine f.queue = true → s.dev.u0Job i.val f.queue = none → exec cmd s = .next (s.withDev d)) ∧
    ∀ j pl cr, mine f.queue = true → s.dev.u0Job i.val f.queue = some (j, pl, cr) →
      let stale : Prop := f.epoch ≠ s.dev.ctrN (0x4000 + j) 0x13
      let stops (e : Nat) : Prop := exec cmd s = .next (s.withDev (d.jobError s.time j e (24 + i.val) 6 i.val f.queue))
      (s.dev.jobStopped j = true ∨ (stale ∧ s.dev.jobForced j = true) → exec cmd s = .next (s.withDev (d.countDiscard j 1))) ∧
      (s.dev.jobStopped j = false → stale → s.dev.jobForced j = false → stops 0x2002) ∧
      (s.dev.jobStopped j = false → ¬ stale → (tr.bad = true → stops 0x8005) ∧ (tr.bad = false → f.kind ∉ kinds → stops 0x200A))

/-- What the collective record at place i of those that link l holds becomes, where it can be taken now: it is one of the present
membership, none of its instance waits before it, and its engine takes it (R418, R425). -/
def Dev.collTakes (d : Dev) (t : TimeBase) (l : Nat) (errs : HbmErrs) (i : Nat) : Option Dev :=
  let q := (d.lnk l).held
  q[i]?.bind fun r =>
    if r.rt ≠ 1 ∨ (q.take i).any (fun y => decide (y.rt = 1 ∧ y.fjh = r.fjh ∧ y.ch = r.ch ∧ y.tag = r.tag)) then none
    else match d.fate r with
      | .equal j => (d.job j).plan.bind fun p => (d.permuteDue t j errs).recordAt t l j i r p errs
      | _ => none

/-! ### Requests of the dictionary and of SPDM -/

/-- The device as a request of v finds it: the request consumes the pending ticket and ends the idle time (R483, R484). -/
def State.asked (s : State) (v : Via) : Dev :=
  (s.dev.setClient v { s.dev.client v with ticket := none, lastReq := s.time.elapsed }).touch s.time v

/-- The transport of v carries a request and no earlier one is being answered (R30, R485). -/
def State.hears (s : State) (v : Via) : Prop := s.dev.carries v = true ∧ (s.dev.client v).answer ≠ .waiting

/-- A write of v passes checks 1 to 7 of Table 17-2. -/
def State.Passes (s : State) (v : Via) (idx sub : Nat) (val : List Byte) : Prop :=
  s.hears v ∧ (s.asked v).checkWrite v (some (s.dev.client v).ticket) idx sub val = none

/-- A read of v passes checks 1 to 4 of Table 17-2. -/
def State.MayRead (s : State) (v : Via) (idx sub : Nat) : Prop := s.hears v ∧ (s.asked v).checkRead v idx sub = none

/-- The state in which v has the answer a from the device d. -/
def State.replies (s : State) (v : Via) (d : Dev) (a : SdoAnswer) : State := s.withDev (d.answer v a)

/-- The DOE mailbox of host die h serves a data object (R535). -/
def Dev.DoeFree (d : Dev) (h : Nat) : Prop := d.pu.state ≠ .init ∧ d.pcie h = true ∧ d.doeBusy h = false

/-- Session k of host die h is open under a binding that is fixed, and its DOE mailbox serves a data object (R535 to R537). -/
def Dev.InSession (d : Dev) (h k : Nat) (x : SpdmSession) : Prop := d.DoeFree h ∧ d.sess h k = some x ∧ x.binding ≠ .pending

end Sys2Proof.Machine
end

