-- ==== Sys2Proof/Certificates/Slice0/Obligations.lean ====
section
/-! DEFINITION. The statements for the provers: what each command does, by the rules of the spec, and what holds of the whole
machine. -/
open Sys2Proof Sys2Proof.Machine

/-! ### The queue, reset, and the whole machine -/

/-- One step runs the command at the front of the queue on the state with the queue's rest. -/
def Obligations.StepRunsFrontCommand : Prop :=
  ∀ (c : Instr) (rest : List Instr) (s : State), s.pending = c :: rest → step s = exec c { s with pending := rest }

/-- R459, R461: a step on an empty queue is one cycle of the time-base clock (assumption 1, a choice of the model). Both counts
receive the same addition, 1 + `TIME_RATE_ADJ` × 2⁻⁴⁰ ns, and the fractions stay 48-bit fractions; nothing else changes but the
note that the accounting window has been passed. -/
def Obligations.IdleStepAddsOneClock : Prop :=
  ∀ s : State, s.pending = [] → s.time.Ok →
    ∃ t : State, step s = .next t ∧
      (t.time.fine : Int) = s.time.fine + (2 ^ 48 + s.time.rateAdj * 2 ^ 8) ∧
      (t.time.fineElapsed : Int) = s.time.fineElapsed + (2 ^ 48 + s.time.rateAdj * 2 ^ 8) ∧
      t.time.frac < 2 ^ 48 ∧ t.time.elapsedFrac < 2 ^ 48 ∧
      t.time = { s.time with ns := t.time.ns, frac := t.time.frac, elapsed := t.time.elapsed, elapsedFrac := t.time.elapsedFrac } ∧
      t.dev = { s.dev with sched := { s.dev.sched with passed := t.dev.sched.passed } } ∧ t.pending = []

/-- R459, R487, R500, Table 15-5: right after reset the time base is zero and the device is in INIT with CORE_EN and IO_EN low,
`TIME_MODE` is 1, `TIME_SLEW_MAX` 500,000, `TIME_PPS_COMP` 3 and `TIME_ALIGN_TOL` 100, no job is loaded, no ring is enabled and
the error log is empty. -/
def Obligations.ResetLeavesStatedValues : Prop :=
  State.reset.time.ns = 0 ∧ State.reset.time.frac = 0 ∧ State.reset.time.elapsed = 0 ∧ State.reset.time.rateAdj = 0 ∧
  State.reset.time.mode = 1 ∧ State.reset.time.slewMax = 500000 ∧ State.reset.time.ppsComp = 3 ∧ State.reset.time.alignTol = 100 ∧
  State.reset.dev.pu.state = .init ∧ State.reset.dev.pu.coreEn = false ∧ State.reset.dev.pu.ioEn = false ∧
  (∀ j, (State.reset.dev.job j).state = 0) ∧ (∀ r, (State.reset.dev.rng r).enabled = false) ∧
  State.reset.dev.log.entries = [] ∧ State.reset.pending = []

/-- The invariant of the time base holds at reset. -/
def Obligations.ResetMeetsTimeInvariant : Prop := State.reset.time.Ok

/-- R459, Table 15-5: every step keeps the time base in its form, whatever command is at the front of the queue. -/
def Obligations.StepKeepsTimeInvariant : Prop :=
  ∀ s t : State, s.time.Ok → step s = .next t → t.time.Ok

/-- R460: the time base never decreases, and changes in only two ways: by the addition of R459, which a step on an empty queue is, and by
the forward step of PPS_EDGE. A reset of the device alone returns it to zero. -/
def Obligations.TimeBaseNeverDecreases : Prop :=
  ∀ s t : State, s.time.Ok → step s = .next t →
    (s.time.fine ≤ t.time.fine ∧
      (t.time.fine = s.time.fine ∨
        (s.pending = [] ∧ (t.time.fine : Int) = s.time.fine + (2 ^ 48 + s.time.rateAdj * 2 ^ 8)) ∨
        (∃ rest, s.pending = .ppsEdge :: rest ∧ s.time.ns < t.time.ns ∧ t.time.frac = s.time.frac))) ∨
    (∃ c rest, s.pending = c :: rest ∧ mayReset c = true ∧ t.time = {})

/-- R460, R461: no command but a reset moves the interval counter; PPS_EDGE alone moves the time base, forward by whole nanoseconds. -/
def Obligations.IntervalCounterNeverStepped : Prop :=
  ∀ (c : Instr) (s t : State), exec c s = .next t →
    (t.time.fineElapsed = s.time.fineElapsed ∧ t.time.frac = s.time.frac ∧
      (t.time.ns = s.time.ns ∨ (c = .ppsEdge ∧ s.time.ns < t.time.ns))) ∨ (mayReset c = true ∧ t.time = {})

/-- No command stops the machine, and none but itself leaves the queue: every effect the spec gives is a next state. -/
def Obligations.EveryCommandCompletes : Prop :=
  ∀ (c : Instr) (s : State), ∃ t : State, exec c s = .next t ∧ t.pending = s.pending

/-- R27, R31, R475, R477, R496: who may change what is not a job's. Apart from a reset, the dictionary changes only by a requester's
write or when the self-check takes its non-volatile values; the field-network interface, the DMA transfers, the power controller and the I/O
ring change only by their own commands; no instruction of a site, no token and no job reaches them. -/
def Obligations.ControlStateChangesOnlyByItsCommands : Prop :=
  ∀ (c : Instr) (s t : State), exec c s = .next t → mayReset c = false →
    (writesDict c = false → (∀ r m, c ≠ .selfCheckEnd r m) → t.dev.dict = s.dev.dict) ∧
    (drivesNet c = false → t.dev.net = s.dev.net) ∧ (movesDma c = false → t.dev.dmas = s.dev.dmas) ∧
    (movesPower c = false → t.dev.power = s.dev.power) ∧ (movesRing c = false → t.dev.ring = s.dev.ring)

/-- R487, R488, R576, R579, R587: the paths between the device states. The self-check leads from INIT to BOOT, an admitted image to PREOP, the end of
bring-up to SAFEOP and OP, a hold of every job from OP to SAFEOP, a request from SAFEOP to OP; every state may lead to FAULT, and only a
reset leads out of it, to INIT. -/
def Obligations.DeviceStateFollowsItsPaths : Prop :=
  ∀ (c : Instr) (s t : State), exec c s = .next t →
    let p := s.dev.pu.state
    let q := t.dev.pu.state
    (p = .fault → mayReset c = false → q = .fault) ∧
    (q = p ∨ q = .fault ∨ (mayReset c = true ∧ q = .init) ∨ (p = .init ∧ q = .boot ∧ ∃ r m, c = .selfCheckEnd r m) ∨
      (p = .boot ∧ q = .preop ∧ ∃ ok, c = .fwVerify ok) ∨
      ((p = .preop ∧ (q = .safeop ∨ q = .op) ∨ p = .safeop ∧ q = .op) ∧ endsBringUp c = true) ∨
      (p = .op ∧ q = .safeop ∧ c = .holdJobsDrained) ∨ (p = .safeop ∧ q = .op ∧ writesDict c = true))

/-! ### Time base -/

/-- R466, R467: an accepted edge of PPS_IN. The offset is the capture less the expected second (the value of `TIME_SET_NEXT`, which the edge
consumes, or the nearest multiple of 10⁹ ns). An offset above 1 s leaves time base and servo and is recorded; in STEP mode a time base
behind by more than `TIME_ALIGN_TOL` steps forward by the offset and the integrator stays; else the servo integrates half the offset
toward zero, unless the edge is the first or the last adjustment was clamped, and the rate becomes the clamped adjustment. `TIME_STATE` is
ALIGNED after four edges in a row within `TIME_ALIGN_TOL`. R466: an edge that does not show 1 s ± 100 µs since the last accepted one is
rejected and counted, and records PPS_REJECTED at most once per 10 s; the time base and the servo stay. States that these complete:
PPS_EDGE. -/
def Obligations.PpsEdgeDisciplinesTimeBase : Prop :=
  (∀ s : State, s.time.accepts = true →
     let u := s.time.applyWanted
     let c : Int := (u.ns : Int) - u.ppsComp
     let θ : Int := c - (match u.setNext with | some v => (v : Int) | none => nearestSecond c)
     ∃ t : State, exec .ppsEdge s = .next t ∧ t.pending = s.pending ∧
       t.time.offset = θ ∧ t.time.setNext = none ∧ t.time.lastEdge = some s.time.elapsed ∧ t.time.first = false ∧
       (1000000000 < θ →
         t.time.ns = s.time.ns ∧ t.time.rateAdj = s.time.rateAdj ∧ t.time.fInt = s.time.fInt ∧ t.time.state = 2 ∧
         t.dev = s.dev.logErr t.time 0x0194) ∧
       (θ ≤ 1000000000 →
         t.time.alignedCount = (if θ.natAbs ≤ u.alignTol then u.alignedCount + 1 else 0) ∧
         t.time.state = (if 4 ≤ t.time.alignedCount then 3 else 2)) ∧
       (u.mode = 0 → θ < -(u.alignTol : Int) →
         (t.time.ns : Int) = s.time.ns - θ ∧ t.time.fInt = s.time.fInt ∧
         t.time.rateAdj = rateOf (clampTo u.slewMax s.time.fInt) ∧ t.time.stepCount = min (2 ^ 32 - 1) (s.time.stepCount + 1) ∧
         t.dev = (s.dev.logErr t.time 0x0190 (detail := (-θ).toNat)).passWindow t.time) ∧
       (θ ≤ 1000000000 → (u.mode ≠ 0 ∨ -(u.alignTol : Int) ≤ θ) →
         let f := if s.time.first ∨ s.time.prevClamped then s.time.fInt else s.time.fInt - θ.tdiv 2
         t.time.ns = s.time.ns ∧ t.time.fInt = f ∧ t.time.rateAdj = rateOf (clampTo u.slewMax (f - θ)) ∧
         t.time.prevClamped = decide (clampTo u.slewMax (f - θ) ≠ f - θ) ∧ t.dev = s.dev)) ∧
  (∀ (s : State) (e : Nat), s.time.first = false → s.time.lastEdge = some e →
     (s.time.elapsed < e + 999900000 ∨ e + 1000100000 < s.time.elapsed) →
     let due := match s.time.rejectLogged with | none => true | some r => decide (r + 10000000000 ≤ s.time.elapsed)
     exec .ppsEdge s = .next { s with
       time := { s.time with rejected := min (2 ^ 32 - 1) (s.time.rejected + 1),
                             rejectLogged := if due then some s.time.elapsed else s.time.rejectLogged }
       dev := if due then s.dev.logErr s.time 0x0193 else s.dev })

/-- R462 to R464, R466: 1.5 s without an accepted edge, the loss of TIME_REF, the lock to FN_REFCLK after 10 ms of holdover, the return of the
reference, and the loss of a die's strobe; each, where its condition does not hold, leaves the state. None of them moves the time base or
the interval counter, also where a value that waited for an edge comes into force (R473). States that these complete: PPS_LOST,
TIME_REF_LOST, HOLDOVER_EXPIRY, TIME_REF_RETURN, REPLICA_STROBE_LOSS. -/
def Obligations.ReferenceEventsSetTimeState : Prop :=
  (∀ s : State,
    (s.time.noEdge = true → s.time.ppsLost = false →
      exec .ppsLost s = .next { s with
        time := { s.time.applyModes with state := 4, first := true, alignedCount := 0, ppsLost := true }
        dev := s.dev.logErr s.time 0x0192 }) ∧
    (s.time.noEdge = false ∨ s.time.ppsLost = true → exec .ppsLost s = .next s)) ∧
  (∀ s : State,
    (s.time.refSel ≠ 3 → s.time.refLostAt = none →
      exec .timeRefLost s = .next { s with
        time := { s.time with refLostAt := some s.time.elapsed, state := 4, first := true, alignedCount := 0 }
        dev := s.dev.logErr s.time 0x0191 }) ∧
    (s.time.refSel = 3 ∨ s.time.refLostAt.isSome = true → exec .timeRefLost s = .next s)) ∧
  (∀ s : State,
    (∀ e : Nat, s.time.refLostAt = some e → e + 10000000 ≤ s.time.elapsed → s.time.fnRef = false →
      exec .holdoverExpiry s = .next { s with
        time := { s.time with fnRef := true, state := if s.time.state = 4 then 1 else s.time.state } }) ∧
    ((∀ e, s.time.refLostAt = some e → s.time.elapsed < e + 10000000) ∨ s.time.fnRef = true → exec .holdoverExpiry s = .next s)) ∧
  (∀ (s : State) (f : Fin 3),
    (f ≠ 0 → (s.time.refSel = 0 ∨ s.time.refSel = f.val) →
      exec (.timeRefReturn f) s = .next { s with
        time := { s.time with refLostAt := none, fnRef := false,
                              state := if s.time.state = 0 ∨ s.time.state = 4 then 1 else s.time.state } }) ∧
    (f = 0 ∨ s.time.refSel ≠ 0 ∧ s.time.refSel ≠ f.val → exec (.timeRefReturn f) s = .next s)) ∧
  (∀ (s : State) (k : Fin 32),
    (k.val ∉ s.time.badDies →
      exec (.replicaStrobeLoss k) s = .next { s with
        time := { s.time with badDies := insNat s.time.badDies k.val }, dev := s.dev.logErr s.time 0x0191 (die := k.val) }) ∧
    (k.val ∈ s.time.badDies → exec (.replicaStrobeLoss k) s = .next s)) ∧
  (∀ t : TimeBase, t.applyWanted.ns = t.ns ∧ t.applyWanted.frac = t.frac ∧ t.applyWanted.elapsed = t.elapsed ∧
    t.applyWanted.elapsedFrac = t.elapsedFrac ∧ t.applyModes = { t with
      refSel := t.applyModes.refSel, mode := t.applyModes.mode, fnRef := t.applyModes.fnRef })

/-! ### Power, clocks and temperature -/

/-- R32 to R34: while firmware runs, POWER_EVALUATION serves the averages and compares the package's with the limit. Above it, the cap of the
isle with the greatest power falls by 25 MHz and the step is logged, and, when every isle runs at 800 MHz, every isle is told to hold;
below it no isle holds for power, and below 95% of it the lowest lowered cap of an isle below 97 °C rises. Then the time since which a cap
keeps a job's admission test failing is kept (R445). R32, R607: a step of an isle's cap. From the lower of its cap and the operator's it
falls by 25 MHz, the other isles stay, and POWER_CAP is logged with the isle and the cause; a cap at 800 MHz stays (assumption 14, a
choice of the model). R33: a rise is 25 MHz, to the operator's cap at most. R35: the 10 ms average is kept, with its maximum; above 3,600
W every isle is told to hold, below 3,200 W no longer. What is told to the isles reaches each of the four, and nothing but the isles
changes; a hold that is told off has ended. R35: above 3,600 W for 50 ms the device enters FAULT with a detail that the spec leaves open
(a free value). Without firmware the two evaluations do nothing. States that these complete: POWER_EVALUATION, EXCURSION_EVALUATION,
EXCURSION_TIMEOUT. -/
def Obligations.PowerControlMovesCapsAndHolds : Prop :=
  (∀ s : State, s.dev.fwRuns = true →
     let lim := s.dev.objN 0x2100 1
     let avg := avgOf 100 s.dev.power.samples
     let d1 : Dev := { s.dev.setCtr 0x2100 2 avg with power := { s.dev.power with limit := lim } }
     let d2 := (List.range 4).foldl (fun d k => d.setCtr 0x2100 (0x10 + k) (avgOf 100 (d.isle k).power)) d1
     let d3 := d2.mapIsles fun x => ({ x with holdPower := false } : Isle).settled
     let hot := argMax fun k => d2.ctrN 0x2100 (0x10 + k)
     (lim < avg → d2.allIsles (fun x => decide (x.clock = 800)) = true →
       exec .powerEvaluation s =
         .next (s.withDev (((d2.mapIsles fun x => { x with holdPower := true }).capDown s.time hot 0).trackCaps s.time))) ∧
     (lim < avg → d2.allIsles (fun x => decide (x.clock = 800)) = false →
       exec .powerEvaluation s = .next (s.withDev ((d2.capDown s.time hot 0).trackCaps s.time))) ∧
     (avg = lim → exec .powerEvaluation s = .next (s.withDev (d2.trackCaps s.time))) ∧
     (avg < lim → lim * 95 ≤ avg * 100 → exec .powerEvaluation s = .next (s.withDev (d3.trackCaps s.time))) ∧
     (avg * 100 < lim * 95 → d3.raisable = none → exec .powerEvaluation s = .next (s.withDev (d3.trackCaps s.time))) ∧
     (∀ i, avg * 100 < lim * 95 → d3.raisable = some i →
       exec .powerEvaluation s = .next (s.withDev ((d3.setIsle i (d3.isle i).capUp).trackCaps s.time)))) ∧
  (∀ (d : Dev) (t : TimeBase) (i detail : Nat),
     let c := min (d.isle i).pwrCap (d.isle i).opCap
     (c ≤ 800 → d.capDown t i detail = d) ∧
     (800 < c →
       (d.capDown t i detail).isle i = { d.isle i with pwrCap := c - 25 } ∧
       (∀ k, k ≠ i → (d.capDown t i detail).isle k = d.isle k) ∧
       (d.capDown t i detail).log = (d.logErr t 0x0110 (die := i) (detail := detail)).log)) ∧
  (∀ x : Isle,
     x.capUp = { x with pwrCap := min x.opCap (x.pwrCap + 25) } ∧
     (({ x with holdPower := false } : Isle).settled.heldPower = false ∧
       ({ x with holdExcursion := false } : Isle).settled.heldExcursion = false)) ∧
  (∀ s : State, s.dev.fwRuns = true →
     let avg := avgOf 10 s.dev.power.samples
     let d1 := ({ s.dev with power := { s.dev.power with avg10 := avg } } : Dev).setCtr 0x2100 3 (max avg (s.dev.ctrN 0x2100 3))
     (3600 < avg → exec .excursionEvaluation s = .next (s.withDev (d1.mapIsles fun x => { x with holdExcursion := true }))) ∧
     (avg < 3200 → exec .excursionEvaluation s =
       .next (s.withDev (d1.mapIsles fun x => ({ x with holdExcursion := false } : Isle).settled))) ∧
     (3200 ≤ avg → avg ≤ 3600 → exec .excursionEvaluation s = .next (s.withDev d1))) ∧
  (∀ (d : Dev) (f : Isle → Isle),
     (d.mapIsles f) = { d with isles := (d.mapIsles f).isles } ∧
     ∀ k, (d.mapIsles f).isle k = if k < 4 then f (d.isle k) else d.isle k) ∧
  (∀ s : State,
     (∀ e : Nat, s.dev.power.above = some e → e + 50000000 ≤ s.time.elapsed → s.dev.pu.state ≠ .fault →
       exec .excursionTimeout s =
         .next (s.withDev ((s.dev.fresh 64).2.enterFault s.time 0x0110 (detail := (s.dev.fresh 64).1.toNat)))) ∧
     ((∀ e, s.dev.power.above = some e → s.time.elapsed < e + 50000000) ∨ s.dev.pu.state = .fault →
       exec .excursionTimeout s = .next s)) ∧
  (∀ s : State, s.dev.fwRuns = false →
     exec .powerEvaluation s = .next (s.withDev (s.dev.trackCaps s.time)) ∧ exec .excursionEvaluation s = .next s)

/-- R31, R510: one millisecond's samples of package and isles are taken, newest first, 100 kept; voltages, currents and the other powers are
served, the energy grows by 1,000 µJ per watt; without firmware nothing is taken. R510, R607, R608, R455, R604: an isle's temperature is
served; from 102 °C its cap falls by 25 MHz, once in 10 ms; from 105 °C at 800 MHz it holds, below 100 °C no longer; THERMTRIP_N falls at
120 °C and stays; a glide step moves the clock by at most 50 MHz toward its target, and the clock of an isle at its target stays. States
that these complete: TELEMETRY_SAMPLE, ISLE_TEMP_SAMPLE, CLOCK_GLIDE_STEP, THERMAL_TRIP. -/
def Obligations.SamplesAndGlides : Prop :=
  (∀ (s : State) (isles : List W16) (hbm io trust pkg : W16) (vdd idd : List W16),
     (s.dev.fwRuns = true →
       ∃ t : State, exec (.telemetrySample isles hbm io trust pkg vdd idd) s = .next t ∧
         t = s.withDev { s.dev with power := t.dev.power, isles := t.dev.isles, ctr := t.dev.ctr } ∧
         t.dev.power.samples = (pkg.toNat :: s.dev.power.samples).take 100 ∧
         t.dev.power.above = (if 3600 < pkg.toNat then s.dev.power.above.orElse fun _ => some s.time.elapsed else none) ∧
         (∀ k, k < 4 → t.dev.isle k = { s.dev.isle k with power := ((isles.getD k 0).toNat :: (s.dev.isle k).power).take 100 }) ∧
         t.dev.ctrN 0x2100 0x1C = hbm.toNat ∧ t.dev.ctrN 0x2100 0x1D = io.toNat ∧ t.dev.ctrN 0x2100 0x1E = trust.toNat ∧
         t.dev.ctrN 0x2100 5 = min (objMax 0x2100 5) (s.dev.ctrN 0x2100 5 + 1000 * pkg.toNat) ∧
         ∀ k, k < 4 → t.dev.ctrN 0x2100 (0x24 + k) = (vdd.getD k 0).toNat ∧ t.dev.ctrN 0x2100 (0x28 + k) = (idd.getD k 0).toNat) ∧
     (s.dev.fwRuns = false → exec (.telemetrySample isles hbm io trust pkg vdd idd) s = .next s)) ∧
  ((∀ (s : State) (i : IsleId) (temp : W16),
     let c := temp.toInt
     let x := s.dev.isle i.val
     let cap := min x.pwrCap x.opCap
     let due := x.thermalStep.all fun e => decide (e + 10000000 ≤ s.time.elapsed)
     ∃ t : State, exec (.isleTempSample i temp) s = .next t ∧
       t = s.withDev { s.dev with pu := t.dev.pu, isles := t.dev.isles, ctr := t.dev.ctr, log := t.dev.log } ∧
       t.dev.ctrN 0x2100 (0x20 + i.val) = temp.toNat ∧
       t.dev.pu = (if 120 ≤ c then { s.dev.pu with thermtrip := true } else s.dev.pu) ∧
       (∀ k, k ≠ i.val → t.dev.isle k = s.dev.isle k) ∧
       let y := t.dev.isle i.val
       y.holdThermal = (if 105 ≤ c ∧ x.clock = 800 then true else if c < 100 then false else x.holdThermal) ∧
       (c < 100 → y.heldThermal = false) ∧
       y.pwrCap = (if 102 ≤ c ∧ due = true ∧ 800 < cap then cap - 25 else x.pwrCap) ∧
       y = { x with
         warned := y.warned, thermalStep := if c < 102 then none else if due = true then some s.time.elapsed else x.thermalStep, pwrCap := y.pwrCap,
         holdThermal := y.holdThermal, heldPower := y.heldPower, heldExcursion := y.heldExcursion, heldThermal := y.heldThermal }) ∧
   (∀ (s : State) (temp : W16),
     (120 ≤ temp.toInt →
       exec (.thermalTrip temp) s = .next (s.withDev { s.dev with pu := { s.dev.pu with thermtrip := true } })) ∧
     (temp.toInt < 120 → exec (.thermalTrip temp) s = .next s)) ∧
   (∀ (s : State) (i : IsleId),
     let x := s.dev.isle i.val
     ∃ t : State, exec (.clockGlideStep i) s = .next t ∧ t = s.withDev { s.dev with isles := t.dev.isles } ∧
       (∀ k, k ≠ i.val → t.dev.isle k = s.dev.isle k) ∧
       let y := t.dev.isle i.val
       (x.clock < x.target → y = { x with
         clock := min x.target (x.clock + 50), changed := true, avs := y.avs, ticks := x.ticksTo s.time.elapsed, ticksAt := s.time.elapsed }) ∧
       (x.target < x.clock → y = { x with
         clock := max x.target (x.clock - 50), changed := true, avs := y.avs, ticks := x.ticksTo s.time.elapsed, ticksAt := s.time.elapsed }) ∧
       (x.clock = x.target → t = s)))

/-! ### Resets, rails and pins -/

/-- R500, R520, R559, R564, R565: the loss of VSTBY and a RESET_N of 10 µs or more reset the device and its time base: every part returns to
its reset value but the MRAM copies, and, with RESET_N, the error log and its count of lost entries; a commit in progress ends first, and
a shorter pulse does nothing. The release of power-on reset lets the controller forward frames, once. R559 to R563: the power-good inputs,
the 100 ms limit of CORE_PG, the fall of a power-good input (FAULT while its enable is high, not when RESET_N falls with it) and CORE_EN
low 10 ms after FAULT; each, where its condition does not hold, leaves the state. States that these complete: CORE_EN_DROP,
POWER_ON_RESET_RELEASE, VSTBY_LOSS, RESET_N, IO_PG_RISE, CORE_PG_RISE, CORE_PG_TIMEOUT, POWER_GOOD_FALL. -/
def Obligations.ResetsAndRails : Prop :=
  ((∀ s : State, ∃ t : State, exec .vstbyLoss s = .next t ∧
     t = { s with time := {}, dev := { ({} : Dev) with
       free := s.dev.free, pu := { ({} : PowerUp) with vstby := false },
       nv := { ({} : NvCtl) with copy0 := s.dev.nv.copy0, copy1 := s.dev.nv.copy1 } } }) ∧
   (∀ (s : State) (low : W32),
     (10000 ≤ low.toNat → s.dev.nv.committing = none →
       ∃ t : State, exec (.resetN low) s = .next t ∧
         t = { s with time := {}, dev := { ({} : Dev) with
           free := s.dev.free, log := s.dev.log, ctr := t.dev.ctr,
           nv := { ({} : NvCtl) with copy0 := s.dev.nv.copy0, copy1 := s.dev.nv.copy1 } } } ∧
         t.dev.ctrN 0x2E00 3 = s.dev.ctrN 0x2E00 3 ∧ (∀ k v, k ≠ objKey 0x2E00 3 → mget v t.dev.ctr k = v) ∧
         t.dev.pu.state = .init ∧ (∀ j, (t.dev.job j).state = 0)) ∧
     (10000 ≤ low.toNat → s.dev.nv.committing.isSome = true →
       exec (.resetN low) s = .next (s.withDev { s.dev with pu := { s.dev.pu with resetPending := true } })) ∧
     (low.toNat < 10000 → exec (.resetN low) s = .next s)) ∧
   (∀ s : State,
     (s.dev.pu.state = .init → s.dev.pu.forwarding = false →
       exec .powerOnResetRelease s = .next (s.withDev { s.dev with pu := { s.dev.pu with forwarding := true, vstby := true } })) ∧
     (s.dev.pu.state ≠ .init ∨ s.dev.pu.forwarding = true → exec .powerOnResetRelease s = .next s))) ∧
  ((∀ s : State,
     (s.dev.pu.ioEn = true → exec .ioPgRise s = .next (s.withDev { s.dev with pu := { s.dev.pu with ioPg := true } })) ∧
     (s.dev.pu.ioEn = false → exec .ioPgRise s = .next s)) ∧
   (∀ s : State,
     (s.dev.pu.coreEn = true → s.dev.pu.corePg = false →
       exec .corePgRise s = .next (s.withDev { s.dev with pu := { s.dev.pu with corePg := true, corePgAt := s.time.elapsed } })) ∧
     (s.dev.pu.coreEn = false ∨ s.dev.pu.corePg = true → exec .corePgRise s = .next s)) ∧
   (∀ s : State,
     (s.dev.pu.coreEn = true → s.dev.pu.corePg = false → s.dev.pu.coreEnAt + 100000000 ≤ s.time.elapsed → s.dev.pu.state ≠ .fault →
       exec .corePgTimeout s = .next (s.withDev (s.dev.enterFault s.time 0x7010 (detail := Config.railGroup 1)))) ∧
     (s.dev.pu.coreEn = false ∨ s.dev.pu.corePg = true ∨ s.time.elapsed < s.dev.pu.coreEnAt + 100000000 ∨ s.dev.pu.state = .fault →
       exec .corePgTimeout s = .next s)) ∧
   (∀ (s : State) (reset : Bool), let d := ({ s.dev with pu := { s.dev.pu with corePg := false } } : Dev).coreDown
     (s.dev.pu.coreEn = true → s.dev.pu.corePg = true → reset = false →
       exec (.powerGoodFall true reset) s = .next (s.withDev (d.enterFault s.time 0x7010 (detail := Config.railGroup 1)))) ∧
     (s.dev.pu.coreEn = false ∨ s.dev.pu.corePg = false ∨ reset = true → exec (.powerGoodFall true reset) s = .next (s.withDev d))) ∧
   (∀ (s : State) (reset : Bool),
     let d := (({ s.dev with pu := { s.dev.pu with ioPg := false, pcie0 := false, pcie1 := false } } : Dev).resetEp 1).resetEp 2
     (s.dev.pu.ioEn = true → s.dev.pu.ioPg = true → reset = false →
       exec (.powerGoodFall false reset) s = .next (s.withDev (d.enterFault s.time 0x7010 (detail := Config.railGroup 0)))) ∧
     (s.dev.pu.ioEn = false ∨ s.dev.pu.ioPg = false ∨ reset = true → exec (.powerGoodFall false reset) s = .next (s.withDev d))) ∧
   (∀ s : State,
     (∀ e : Nat, s.dev.pu.faultAt = some e → e + 10000000 ≤ s.time.elapsed → s.dev.pu.coreEn = true →
       exec .coreEnDrop s = .next (s.withDev { s.dev.coreDown with pu := { s.dev.pu with coreEn := false } })) ∧
     ((∀ e, s.dev.pu.faultAt = some e → s.time.elapsed < e + 10000000) ∨ s.dev.pu.coreEn = false →
       exec .coreEnDrop s = .next s)) ∧
   (∀ d : Dev, d.coreDown = { d with
       sites := [], fabric := {}, bridges := [], lagoons := [], arbs := [], cause := [], masks := []
       hbms := mmap {} (fun _ k => { active := k.active, chans := k.chans, returning := k.returning }) d.hbms }))

/-- R29, R484, R566: PERST resets the port of its die: link down, the endpoint back to observer, the IDE keys and a DOE object gone, the load
window at its reset values, a load of the window abandoned; a fall of the link returns the endpoint to observer; a link comes up only
while IO_PG is high. R476, R615: a frame goes on by the other port, or back where that port has no link, while the controller forwards;
the TAP executes what is no scan instruction, or a scan instruction outside INIT and BOOT with CORE_EN low, as BYPASS. States that these
complete: FRAME_FORWARD, PERST, PCIE_LINK_DOWN, PCIE_LINK_UP, TAP_INSTRUCTION. -/
def Obligations.PcieFramesAndTap : Prop :=
  ((∀ (s : State) (h : HostDie), (s.dev.fw.loading = false ∨ s.dev.fw.source ≠ h.val + 2) →
     exec (.perst h) s = .next (s.withDev
       ((((s.dev.setDie h.val { s.dev.die h.val with object := false, ideKeys := [] }).setPcie h.val false).resetEp (h.val + 1)).setWin
         h.val {}))) ∧
   (∀ (s : State) (h : HostDie), ∃ t : State, exec (.perst h) s = .next t ∧
     t = s.withDev { s.dev with pu := t.dev.pu, fw := t.dev.fw, eps := t.dev.eps, spdm := t.dev.spdm } ∧
     t.dev.pcie h.val = false ∧ t.dev.ep (h.val + 1) = {} ∧ (t.dev.die h.val).ideKeys = [] ∧ (t.dev.die h.val).object = false ∧
     t.dev.win h.val = {} ∧ (∀ e, e ≠ h.val + 1 → t.dev.ep e = s.dev.ep e) ∧ (∀ k, k ≠ h.val → t.dev.die k = s.dev.die k) ∧
     (s.dev.fw.loading = true → s.dev.fw.source = h.val + 2 →
       t.dev.fw.loading = false ∧ t.dev.fw.area = [] ∧ t.dev.fw.status = 0x5012)) ∧
   (∀ (s : State) (h : HostDie), ∃ t : State, exec (.pcieLinkDown h) s = .next t ∧
     t = s.withDev { s.dev with pu := t.dev.pu, eps := t.dev.eps } ∧
     t.dev.pcie h.val = false ∧ t.dev.ep (h.val + 1) = {} ∧ ∀ e, e ≠ h.val + 1 → t.dev.ep e = s.dev.ep e) ∧
   (∀ (s : State) (h : HostDie),
     (s.dev.pu.ioPg = true → exec (.pcieLinkUp h) s = .next (s.withDev (s.dev.setPcie h.val true))) ∧
     (s.dev.pu.ioPg = false → exec (.pcieLinkUp h) s = .next s))) ∧
  ((∀ (s : State) (p : Fin 2) (link : Bool),
     (s.dev.pu.forwarding = true →
       exec (.frameForward p link) s =
         .next (s.withDev { s.dev with net := { s.dev.net with lastOut := some (if link then 1 - p else p) } })) ∧
     (s.dev.pu.forwarding = false → exec (.frameForward p link) s = .next s)) ∧
   (∀ (s : State) (i : TapInstr), i ≠ .other → (i = .idcode ∨ ((s.dev.pu.state = .init ∨ s.dev.pu.state = .boot) ∧ s.dev.pu.coreEn = false)) →
     exec (.tapInstruction i) s = .next (s.withDev { s.dev with pu := { s.dev.pu with tap := i } })) ∧
   (∀ (s : State) (i : TapInstr), (i = .other ∨ (i ≠ .idcode ∧ (s.dev.pu.coreEn = true ∨ (s.dev.pu.state ≠ .init ∧ s.dev.pu.state ≠ .boot)))) →
     exec (.tapInstruction i) s = .next (s.withDev { s.dev with pu := { s.dev.pu with tap := .bypass } })))

/-! ### Boot and firmware -/

/-- R526, R527, R556, R567, Table 19-2: the self-check that passes leads to BOOT with IO_EN high and both MRAM copies alike, as the newer of
the copies that are sound; a failing ROM or entropy source, or no sound copy, leads to FAULT; failing fuses leave the device in INIT, and
outside INIT nothing happens. A lockstep mismatch stops the control cores: FAULT, the queued records lost, a commit in progress not
performed. R569 to R572: the ways bytes of an image arrive in BOOT: FoE, a load window of a die, segments of an endpoint or a session.
Each appends to the image area and notes its source; the last one starts verification; bytes that the load cannot take are refused. 10 s
without a byte and an abort of the window end the load, with the code in `FW_STATUS`. R530, R559, R575, R576: an image that passes the
format checks, the root key, the signature and the SVN floor is admitted: PREOP, CORE_EN high, the control cores run, the straits train,
`DEV_BOOT_COUNT` grows. One that fails a check is not, and `FW_STATUS` names the first check that failed. States that these complete:
ENTROPY_FAIL, LOCKSTEP_MISMATCH, FOE_WRITE, FW_IMAGE, FWL_GO, FWL_ABORT, FW_LOAD_TIMEOUT, FW_VERIFY, SELF_CHECK_END. -/
def Obligations.BootAndFirmware : Prop :=
  ((∀ (s : State) (m : MramCheck), s.dev.pu.state = .init → s.dev.pu.forwarding = true → (m.copy0 = true ∨ m.copy1 = true) →
     ∃ t : State, exec (.selfCheckEnd .ok m) s = .next t ∧ t.dev.pu.state = .boot ∧ t.dev.pu.ioEn = true ∧
       t = s.withDev { s.dev with
           pu := t.dev.pu, dict := t.dev.dict, ctr := t.dev.ctr, nv := t.dev.nv, log := t.dev.log,
           health := t.dev.health, hbms := t.dev.hbms } ∧
       t.dev.nv.copy0 = t.dev.nv.copy1 ∧
       (m.copy0 = true → m.copy1 = false → t.dev.nv.copy0 = s.dev.nv.copy0) ∧
       (m.copy0 = true → m.copy1 = true → t.dev.nv.copy0 =
         if s.dev.nv.copy1.counter ≤ s.dev.nv.copy0.counter then s.dev.nv.copy0 else s.dev.nv.copy1) ∧
       (m.copy0 = false → t.dev.nv.copy0 = s.dev.nv.copy1)) ∧
   (∀ (s : State) (r : SelfCheck) (m : MramCheck), s.dev.pu.state ≠ .init ∨ s.dev.pu.forwarding = false →
     exec (.selfCheckEnd r m) s = .next s) ∧
   (∀ (s : State) (m : MramCheck), s.dev.pu.state = .init → s.dev.pu.forwarding = true →
     exec (.selfCheckEnd .fuses m) s = .next s ∧
     (m.copy0 = false → m.copy1 = false →
       exec (.selfCheckEnd .ok m) s = .next (s.withDev (s.dev.enterFault s.time 0x8010 (detail := 1)))) ∧
     exec (.selfCheckEnd .rom m) s = .next (s.withDev (s.dev.enterFault s.time 0x8010 (detail := 1))) ∧
     exec (.selfCheckEnd .entropy m) s = .next (s.withDev (s.dev.enterFault s.time 0x5009))) ∧
   (∀ s : State, exec .entropyFail s = .next (s.withDev (s.dev.enterFault s.time 0x5009))) ∧
   (∀ s : State, ∃ t : State, exec .lockstepMismatch s = .next t ∧ t.dev.pu.coresAt = none ∧ t.dev.pu.state = .fault ∧
     t.dev.nv.queue = [] ∧ t.dev.nv.writes = [] ∧ t.dev.nv.committing = none ∧ t.dev.nv.copy1 = s.dev.nv.copy1 ∧
     t.dev.nv.copy0 = (if s.dev.nv.committing.isSome then s.dev.nv.copy1 else s.dev.nv.copy0) ∧
     t = s.withDev { s.dev with
         free := t.dev.free, pu := t.dev.pu, ctr := t.dev.ctr, rings := t.dev.rings, nv := t.dev.nv, log := t.dev.log,
         jobs := t.dev.jobs, groups := t.dev.groups, sched := t.dev.sched, sites := t.dev.sites, lagoons := t.dev.lagoons,
         hbms := t.dev.hbms, arbs := t.dev.arbs, colls := t.dev.colls, flows := t.dev.flows })) ∧
  ((∀ (s : State) (data : List Byte) (last : Bool), s.dev.pu.state = .boot → s.dev.fw.loading = true → s.dev.fw.source = 1 →
     s.dev.fw.verifying = false → s.dev.fw.area.length + data.length ≤ fwMax →
     ∃ t : State, exec (.foeWrite none data last) s = .next t ∧
       t.dev.fw.area = s.dev.fw.area ++ data ∧ t.dev.fw.loading = true ∧ t.dev.fw.verifying = last ∧ t.dev.fw.foe = 0 ∧
       t = s.withDev { s.dev with fw := t.dev.fw, ctr := t.dev.ctr }) ∧
   (∀ (s : State) (data : List Byte) (last : Bool), s.dev.pu.state = .boot → s.dev.fw.loading = false → data ≠ [] →
     data.length ≤ fwMax →
     ∃ t : State, exec (.foeWrite (some (fwFile, 0)) data last) s = .next t ∧
       t.dev.fw.area = data ∧ t.dev.fw.loading = true ∧ t.dev.fw.source = 1 ∧ t.dev.fw.verifying = last ∧
       t.dev.fw.lastByte = s.time.elapsed ∧ t = s.withDev { s.dev with fw := t.dev.fw, ctr := t.dev.ctr }) ∧
   (∀ (s : State) (name : List Byte) (password : W32) (data : List Byte) (last : Bool), s.dev.pu.state = .boot →
     (name ≠ fwFile ∨ password ≠ 0 → exec (.foeWrite (some (name, password)) data last) s =
       .next (s.withDev { s.dev with fw := { s.dev.fw with foe := 0x8001 } })) ∧
     (name = fwFile → password = 0 → s.dev.fw.loading = true → (s.dev.fw.source ≠ 1 ∨ s.dev.fw.verifying = true) →
       exec (.foeWrite (some (name, password)) data last) s =
         .next (s.withDev { s.dev with fw := { s.dev.fw with foe := 0x8002 } }))) ∧
   (∀ (s : State) (start : Option (List Byte × W32)) (data : List Byte) (last : Bool), s.dev.pu.state ≠ .boot →
     exec (.foeWrite start data last) s = .next s) ∧
   (∀ (s : State) (v : Via) (data : List Byte) (last : Bool),
     let d1 := s.dev.fwBytes s.time 4 (some v) data
     let free : Prop := s.dev.fw.loading = false ∨ s.dev.fw.source = 4 ∧ s.dev.fw.via = some v ∧ s.dev.fw.verifying = false
     let size := (if s.dev.fw.loading then s.dev.fw.area.length else 0) + data.length
     (s.dev.pu.state = .boot → free → size ≤ fwMax → exec (.fwImage v data last) s = .next (s.withDev
       (({ d1 with fw := { d1.fw with verifying := last && d1.fw.loading } } : Dev).answer v (if last then .waiting else .ok)))) ∧
     (s.dev.pu.state = .boot → ¬ free → exec (.fwImage v data last) s = .next (s.withDev (s.dev.answer v (.abort 0x08000020)))) ∧
     (s.dev.pu.state = .boot → free → fwMax < size → exec (.fwImage v data last) s = .next (s.withDev
       ((d1.endLoad 0x5010).answer v (.abort 0x06070010)))) ∧
     (s.dev.pu.state ≠ .boot → exec (.fwImage v data last) s = .next (s.withDev (s.dev.answer v (.abort 0x08000022))))) ∧
   (∀ (d : Dev) (t : TimeBase) (source : Nat) (v : Option Via) (data : List Byte), data ≠ [] →
     let x := d.fwBytes t source v data
     x = { d with fw := x.fw, ctr := x.ctr } ∧ x.fw.loading = true ∧ x.fw.lastByte = t.elapsed ∧
     (d.fw.loading = true → x.fw.area = d.fw.area ++ data ∧ x.fw.source = d.fw.source) ∧
     (d.fw.loading = false → x.fw.area = data ∧ x.fw.source = source ∧ x.fw.via = v ∧ x.fw.verifying = false)) ∧
   (∀ (s : State) (h : HostDie) (addr : W64) (len : W32) (image : List Byte), s.dev.pu.state = .boot → s.dev.pcie h.val = true →
     s.dev.fw.loading = false → addr.toNat % 4096 = 0 → 4096 ≤ len.toNat → len.toNat ≤ fwMax → len.toNat % 16 = 0 →
     ∃ t : State, exec (.fwlGo h addr len image) s = .next t ∧
       t.dev.fw.area = padTo len.toNat image ∧ t.dev.fw.loading = true ∧ t.dev.fw.verifying = true ∧ t.dev.fw.source = h.val + 2 ∧
       (t.dev.win h.val).phase = 2 ∧ (t.dev.win h.val).rejected = false ∧ t = s.withDev { s.dev with fw := t.dev.fw, ctr := t.dev.ctr }) ∧
   (∀ (s : State) (h : HostDie) (addr : W64) (len : W32) (image : List Byte),
     (s.dev.pu.state = .boot → s.dev.pcie h.val = true →
       (s.dev.fw.loading = true ∨ addr.toNat % 4096 ≠ 0 ∨ len.toNat < 4096 ∨ fwMax < len.toNat ∨ len.toNat % 16 ≠ 0) →
       exec (.fwlGo h addr len image) s = .next (s.withDev
         (s.dev.setWin h.val { s.dev.win h.val with addr := addr, len := len, rejected := true }))) ∧
     (s.dev.pu.state ≠ .boot ∨ s.dev.pcie h.val = false → exec (.fwlGo h addr len image) s = .next s)) ∧
   (∀ (s : State) (h : HostDie), (s.dev.pu.state ≠ .boot ∨ s.dev.fw.loading = false ∨ s.dev.fw.source ≠ h.val + 2) →
     exec (.fwlAbort h) s = .next s) ∧
   (∀ s : State, (s.dev.fw.loading = false ∨ s.dev.fw.verifying = true ∨ s.time.elapsed < s.dev.fw.lastByte + 10000000000) →
     exec .fwLoadTimeout s = .next s) ∧
   (∀ (s : State) (h : HostDie), s.dev.pu.state = .boot → s.dev.fw.loading = true → s.dev.fw.source = h.val + 2 →
     ∃ t : State, exec (.fwlAbort h) s = .next t ∧ t.dev.fw.loading = false ∧ t.dev.fw.area = [] ∧ t.dev.fw.status = 0x5012 ∧
       (t.dev.win h.val).phase = 3 ∧ (t.dev.win h.val).code = 0x5012 ∧ t = s.withDev { s.dev with fw := t.dev.fw }) ∧
   (∀ s : State, s.dev.fw.loading = true → s.dev.fw.verifying = false → s.dev.fw.lastByte + 10000000000 ≤ s.time.elapsed →
     ∃ t : State, exec .fwLoadTimeout s = .next t ∧ t.dev.fw.loading = false ∧ t.dev.fw.area = [] ∧ t.dev.fw.status = 0x5011 ∧
       t = s.withDev { s.dev with fw := t.dev.fw })) ∧
  ((∀ s : State, s.dev.fw.verifying = true → s.dev.pu.state = .boot → fwFormatOk s.dev.fw.area = true →
     Config.sha384 (bytesAt s.dev.fw.area 32 97) = Config.rootHash →
     max Config.svnFloor (s.dev.ctrN 0x2500 5) ≤ fieldAt s.dev.fw.area 12 4 →
     ∃ t : State, exec (.fwVerify true) s = .next t ∧
       t.dev.pu.state = .preop ∧ t.dev.pu.coreEn = true ∧ t.dev.pu.coresAt = some s.time.elapsed ∧ t.dev.pu.preopAt = s.time.elapsed ∧
       t.dev.fw.status = 0 ∧ t.dev.fw.loading = false ∧ t.dev.fw.version = BitVec.ofNat 32 (fieldAt s.dev.fw.area 16 4) ∧
       t.dev.fw.measurement = Config.sha384 s.dev.fw.area ∧
       t.dev.ctrN 0x2000 7 = min (2 ^ 32 - 1) (s.dev.ctrN 0x2000 7 + 1) ∧ (∀ l, l < 16 → (t.dev.lnk l).state = .training) ∧
       t = s.withDev { s.dev with pu := t.dev.pu, fw := t.dev.fw, ctr := t.dev.ctr, eps := t.dev.eps, spdm := t.dev.spdm, nv := t.dev.nv, links := t.dev.links }) ∧
   (∀ (s : State) (sig : Bool), s.dev.fw.verifying = true → s.dev.pu.state = .boot → fwFormatOk s.dev.fw.area = false →
     exec (.fwVerify sig) s = .next (s.withDev ((s.dev.fwAnswer false).endLoad 0x5010))) ∧
   (∀ s : State, s.dev.fw.verifying = true → s.dev.pu.state = .boot → fwFormatOk s.dev.fw.area = true →
     exec (.fwVerify false) s = .next (s.withDev ((s.dev.fwAnswer false).endLoad 0x5002))) ∧
   (∀ (s : State) (sig : Bool), s.dev.fw.verifying = true → s.dev.pu.state = .boot → fwFormatOk s.dev.fw.area = true →
     Config.sha384 (bytesAt s.dev.fw.area 32 97) ≠ Config.rootHash →
     exec (.fwVerify sig) s = .next (s.withDev ((s.dev.fwAnswer false).endLoad 0x5002))) ∧
   (∀ s : State, s.dev.fw.verifying = true → s.dev.pu.state = .boot → fwFormatOk s.dev.fw.area = true →
     Config.sha384 (bytesAt s.dev.fw.area 32 97) = Config.rootHash →
     fieldAt s.dev.fw.area 12 4 < max Config.svnFloor (s.dev.ctrN 0x2500 5) →
     exec (.fwVerify true) s = .next (s.withDev ((s.dev.fwAnswer false).endLoad 0x5003))) ∧
   (∀ (s : State) (sig : Bool), (s.dev.fw.verifying = false ∨ s.dev.pu.state ≠ .boot) → exec (.fwVerify sig) s = .next s) ∧
   (∀ (d : Dev) (code : Nat), (d.endLoad code).fw.status = BitVec.ofNat 16 code ∧ (d.endLoad code).fw.loading = false ∧
     (d.endLoad code).fw.area = [] ∧ d.endLoad code = { d with fw := (d.endLoad code).fw }))

/-! ### Bring-up -/

/-- R24, R577, R578, R579, R580, R202: phases 2 to 6. Each success notes its phase; a phase that fails, or exceeds its limit, leads to FAULT
with BRINGUP_FAIL and the phase; the end of phase 5 on the fourth bridge leads to SAFEOP, and the end of phase 6 to OP. A phase that has
ended, or whose turn has not come, leaves the state. States that these complete: CLOCKS_AND_RING_END, SITE_BIST_END, HBM_TRAINING_END,
ISTHMUS_TRAINING_END, STRAIT_TRAINING_END, BRINGUP_PHASE_TIMEOUT. -/
def Obligations.BringUpPhases : Prop :=
  (∀ (s : State) (n : Nat), s.dev.pu.state = .preop → s.dev.pu.corePg = true → s.dev.pu.phase2 = false →
    exec (.clocksAndRingEnd true n) s =
      .next (s.withDev (({ s.dev with pu := { s.dev.pu with phase2 := true, phase2At := s.time.elapsed } } : Dev).bump 0x2F00 3 n)) ∧
    exec (.clocksAndRingEnd false n) s = .next (s.withDev (s.dev.bringupFail s.time 2 (Config.logDie 0x8010) 5))) ∧
  (∀ (s : State) (ok : Bool) (n : Nat), (s.dev.pu.state ≠ .preop ∨ s.dev.pu.corePg = false ∨ s.dev.pu.phase2 = true) →
    exec (.clocksAndRingEnd ok n) s = .next s) ∧
  (∀ (s : State) (i : IsleId), s.dev.pu.state = .preop → s.dev.pu.phase2 = true → i.val ∉ s.dev.pu.bist →
    ∃ t : State, exec (.siteBistEnd i [] [] false) s = .next t ∧ i.val ∈ t.dev.pu.bist ∧ t.dev.pu.state = .preop ∧
      (∀ k, siteIsle k = i.val → t.dev.site k = {}) ∧ (∀ k, siteIsle k ≠ i.val → t.dev.site k = s.dev.site k) ∧
      (∀ r, r / 36 = i.val → t.dev.lag r = {}) ∧ (∀ r, r / 36 ≠ i.val → t.dev.lag r = s.dev.lag r) ∧
      t = s.withDev { s.dev with pu := t.dev.pu, sites := t.dev.sites, lagoons := t.dev.lagoons }) ∧
  (∀ (s : State) (i : IsleId) (f : List (Fin 36 × Fin 16 × Fin 17)), s.dev.pu.state = .preop → s.dev.pu.phase2 = true →
    i.val ∉ s.dev.pu.bist → ∃ t : State, exec (.siteBistEnd i f [] false) s = .next t ∧ i.val ∈ t.dev.pu.bist ∧
      t.dev.pu.state = .preop ∧ (∀ k, siteIsle k = i.val → t.dev.site k = {}) ∧ (∀ r, r / 36 = i.val → t.dev.lag r = {}) ∧
      t = s.withDev { s.dev with
        pu := t.dev.pu, sites := t.dev.sites, lagoons := t.dev.lagoons, health := t.dev.health, nv := t.dev.nv, ctr := t.dev.ctr,
        log := t.dev.log }) ∧
  (∀ (s : State) (i : IsleId) (f : List (Fin 36 × Fin 16 × Fin 17)) (r : List (Fin 36)) (bad : Bool),
    (s.dev.pu.state ≠ .preop ∨ s.dev.pu.phase2 = false ∨ i.val ∈ s.dev.pu.bist) → exec (.siteBistEnd i f r bad) s = .next s) ∧
  (∀ (s : State) (i : IsleId), s.dev.pu.state = .preop → s.dev.pu.phase2 = true → i.val ∉ s.dev.pu.bist →
    exec (.siteBistEnd i [] [] true) s = .next (s.withDev (s.dev.bringupFail s.time 3 i.val 3))) ∧
  (∀ (s : State) (k : StackId) (n : Nat) (pass : W16), s.dev.pu.state = .preop → s.dev.pu.phase2 = true → k.val ∉ s.dev.pu.trained →
    ∃ t : State, exec (.hbmTrainingEnd k true n pass) s = .next t ∧ k.val ∈ t.dev.pu.trained ∧ (t.dev.stk k.val).trained = true ∧
      (t.dev.stk k.val).mem = [] ∧ (t.dev.stk k.val).poison = [] ∧ t.dev.pu.state = .preop ∧
      t = s.withDev { s.dev with free := t.dev.free, pu := t.dev.pu, ctr := t.dev.ctr, nv := t.dev.nv, log := t.dev.log, hbms := t.dev.hbms }) ∧
  (∀ (s : State) (k : StackId) (n : Nat) (pass : W16), s.dev.pu.state = .preop → s.dev.pu.phase2 = true → k.val ∉ s.dev.pu.trained →
    exec (.hbmTrainingEnd k false n pass) s = .next (s.withDev (s.dev.bringupFail s.time 4 (4 + k.val) 2))) ∧
  (∀ (s : State) (k : StackId) (ok : Bool) (n : Nat) (pass : W16),
    (s.dev.pu.state ≠ .preop ∨ s.dev.pu.phase2 = false ∨ k.val ∈ s.dev.pu.trained) → exec (.hbmTrainingEnd k ok n pass) s = .next s) ∧
  (∀ (s : State) (b : Fin 4) (l : List (Fin 67)), s.dev.pu.state = .preop → s.dev.bridgeReady b.val = true → b.val ∉ s.dev.pu.bridges →
    let lost (a : List Nat) : Nat := (a.filter fun n => decide (2 < n)).length
    let cw := (l.map (·.val)).take 32
    let ccw := ((l.map (·.val)).drop 32).take 32
    let d := (s.dev.trainGroups (2 * b.val) cw).trainGroups (2 * b.val + 1) ccw
    (lost cw ≤ 4 → lost ccw ≤ 4 → exec (.isthmusTrainingEnd b l) s =
      .next (s.withDev (({ d with pu := { d.pu with bridges := insNat d.pu.bridges b.val } } : Dev).bringupDone s.time))) ∧
    (4 < lost cw ∨ 4 < lost ccw → exec (.isthmusTrainingEnd b l) s = .next (s.withDev (d.bringupFail s.time 5 (20 + b.val) 4)))) ∧
  (∀ (s : State) (b : Fin 4) (l : List (Fin 67)),
    (s.dev.pu.state ≠ .preop ∨ s.dev.bridgeReady b.val = false ∨ b.val ∈ s.dev.pu.bridges) → exec (.isthmusTrainingEnd b l) s = .next s) ∧
  (∀ (d : Dev) (t : TimeBase),
    (d.pu.state = .preop → d.pu.bridges.length = 4 → d.pu.phase6 = false →
      d.bringupDone t = { d with pu := { d.pu with state := .safeop } }) ∧
    (d.pu.state = .preop → d.pu.bridges.length ≠ 4 → d.bringupDone t = d) ∧
    (d.pu.state = .safeop → d.pu.phase6 = true → d.pu.firstOp = false → d.bringupDone t = d.toOp t)) ∧
  (∀ s : State, s.dev.pu.state = .preop ∨ s.dev.pu.state = .safeop → s.dev.pu.phase6 = false →
    (s.dev.pu.preopAt + 2000000000 ≤ s.time.elapsed ∨
      ∀ l, l < 16 → (s.dev.lnk l).state ≠ .training ∧ (s.dev.lnk l).state ≠ .securing) →
    exec .straitTrainingEnd s =
      .next (s.withDev (({ s.dev with pu := { s.dev.pu with phase6 := true } } : Dev).bringupDone s.time))) ∧
  (∀ s : State, ((s.dev.pu.state ≠ .preop ∧ s.dev.pu.state ≠ .safeop) ∨ s.dev.pu.phase6 = true) → exec .straitTrainingEnd s = .next s) ∧
  (∀ (s : State) (die : Fin 32), let p := s.dev.pu
    let late (start limit : Nat) : Prop := start + limit * 1000000 < s.time.elapsed
    (p.state = .preop → p.phase2 = true → die.val < 4 → die.val ∉ p.bist → late p.phase2At 600 →
      exec (.bringupPhaseTimeout 3 die) s = .next (s.withDev (s.dev.bringupFail s.time 3 die.val 3))) ∧
    (p.state = .preop → p.phase2 = true → 4 ≤ die.val → die.val < 20 → die.val - 4 ∉ p.trained → late p.phase2At 800 →
      exec (.bringupPhaseTimeout 4 die) s = .next (s.withDev (s.dev.bringupFail s.time 4 die.val 2))) ∧
    (p.state = .preop → 20 ≤ die.val → die.val < 24 → s.dev.bridgeReady (die.val - 20) = true → die.val - 20 ∉ p.bridges →
      late ((bridgeDies (die.val - 20)).foldl (fun m x => max m (mget 0 p.endedAt x)) 0) 200 →
      exec (.bringupPhaseTimeout 5 die) s = .next (s.withDev (s.dev.bringupFail s.time 5 die.val 4))) ∧
    (p.state = .preop ∨ p.state = .safeop → exec (.bringupPhaseTimeout 6 die) s = exec .straitTrainingEnd s) ∧
    (∀ ph : Fin 7, p.state ≠ .preop → (ph ≠ 6 ∨ p.state ≠ .safeop) → exec (.bringupPhaseTimeout ph die) s = .next s)) ∧
  (∀ (s : State) (die : Fin 32), s.dev.pu.state = .preop → s.dev.pu.corePg = true → s.dev.pu.phase2 = false →
    s.dev.pu.corePgAt + 100000000 < s.time.elapsed →
    exec (.bringupPhaseTimeout 2 die) s = .next (s.withDev (s.dev.bringupFail s.time 2 die.val 5)))

/-! ### Journal, MRAM and hold-up -/

/-- R505, R553, R557, R558: a commit begins when a record or a value waits, no commit is in progress and the hold-up energy is 8,000 µJ or
more: the values, then up to 64 records, go into the copy of T0 and leave the queue. With less energy, and no exempt value waiting,
nothing is written, the deferral is counted and, when it begins, logged; the exempt values alone are written; a retry comes after
`HOLDUP_RETRY_MS`. Where nothing waits, a commit is in progress, or the unit does not run, nothing happens. R551, R552, R553: one record
takes the journal's counter and its slot's sequence, carries the hash of the record before it and of its slot's, and becomes both; it
stands at the counter modulo 32,768. R505, R553, R565: at the end of a commit the copy of T1 equals that of T0; a RESET_N that waited
takes effect then. Dictionary writes not committed within 1 s leave the queue. States that these complete: NV_WRITE_COMMIT_TIMEOUT,
JOURNAL_COMMIT, HOLDUP_RETRY, MRAM_COMMIT_END, HOLDUP_SENSE_SAMPLE. -/
def Obligations.CommitsToMram : Prop :=
  ((∀ (s : State) (mv : W16), s.dev.pu.state ≠ .init → s.dev.nv.deferred = none → s.dev.nv.committing = none →
     (s.dev.nv.queue ≠ [] ∨ s.dev.nv.writes ≠ []) → 8000 ≤ (s.dev.senseHoldup mv.toNat).holdup mv.toNat →
     ∃ t : State, exec (.journalCommit mv) s = .next t ∧
       t = s.withDev { s.dev with nv := t.dev.nv, ctr := t.dev.ctr, log := t.dev.log } ∧
       t.dev.nv.queue = s.dev.nv.queue.drop 64 ∧ t.dev.nv.committing = some s.dev.nv.writes ∧ t.dev.nv.copy1 = s.dev.nv.copy1 ∧
       t.dev.nv.copy0 = (s.dev.nv.queue.take 64).foldl Nvm.commitRec (s.dev.nv.writes.foldl Nvm.commitObj s.dev.nv.copy0)) ∧
   (∀ (s : State) (mv : W16), s.dev.pu.state ≠ .init → s.dev.nv.deferred = none → s.dev.nv.committing = none →
     s.dev.nv.queue ≠ [] → s.dev.nv.writes = [] → (s.dev.senseHoldup mv.toNat).holdup mv.toNat < 8000 →
     ∃ t : State, exec (.journalCommit mv) s = .next t ∧ t.dev.nv = { s.dev.nv with deferred := some s.time.elapsed } ∧
       t = s.withDev { s.dev with nv := t.dev.nv, ctr := t.dev.ctr, log := t.dev.log } ∧
       t.dev.log = (((s.dev.senseHoldup mv.toNat).bump 0x2300 6 1).logErr s.time 0x7001).log) ∧
   (∀ (s : State) (mv : W16), s.dev.pu.state ≠ .init → s.dev.nv.committing = none → s.dev.nv.writes.any nvExempt = true →
     (s.dev.senseHoldup mv.toNat).holdup mv.toNat < 8000 →
     let ex := s.dev.nv.writes.filter nvExempt
     ∃ t : State, exec (.journalCommit mv) s = .next t ∧ t = s.withDev { s.dev with nv := t.dev.nv, ctr := t.dev.ctr, log := t.dev.log } ∧
       t.dev.nv.committing = some ex ∧ t.dev.nv.copy0 = ex.foldl Nvm.commitObj s.dev.nv.copy0 ∧ t.dev.nv.queue = s.dev.nv.queue ∧
       t.dev.nv.copy1 = s.dev.nv.copy1) ∧
   (∀ (s : State) (mv : W16), (s.dev.pu.state = .init ∨ s.dev.nv.committing.isSome = true ∨ (s.dev.nv.queue = [] ∧ s.dev.nv.writes = []) ∨
       s.dev.nv.deferred.isSome = true ∧ s.dev.nv.writes.any nvExempt = false) → exec (.journalCommit mv) s = .next s) ∧
   (∀ (s : State) (mv : W16),
     (∀ e : Nat, s.dev.nv.deferred = some e → e + s.dev.objN 0x2300 7 * 1000000 ≤ s.time.elapsed →
       exec (.holdupRetry mv) s = .next (s.withDev (s.dev.tryCommit s.time mv.toNat))) ∧
     ((∀ e, s.dev.nv.deferred = some e → s.time.elapsed < e + s.dev.objN 0x2300 7 * 1000000) → exec (.holdupRetry mv) s = .next s)) ∧
   (∀ (s : State) (mv : W16),
     (s.dev.pu.state ≠ .init → exec (.holdupSenseSample mv) s = .next (s.withDev (s.dev.senseHoldup mv.toNat))) ∧
     (s.dev.pu.state = .init → exec (.holdupSenseSample mv) s = .next s))) ∧
  (∀ (m : Nvm) (r : JRec), ∃ b : List Byte,
     mget [] (m.commitRec r).recs (m.counter % 32768) = b ∧
     (m.commitRec r).counter = m.counter + 1 ∧ (m.commitRec r).held = min 32768 (m.held + 1) ∧
     (m.commitRec r).hash = Config.sha384 b ∧ mget [] (m.commitRec r).slotHash r.slot = Config.sha384 b ∧
     mget 0 (m.commitRec r).seqs r.slot = mget 0 m.seqs r.slot + 1 ∧ (m.commitRec r).objs = m.objs ∧
     (∀ k, k ≠ m.counter % 32768 → mget [] (m.commitRec r).recs k = mget [] m.recs k) ∧
     (∀ n, n ≠ r.slot → mget [] (m.commitRec r).slotHash n = mget [] m.slotHash n)) ∧
  ((∀ (s : State) (ws : List NvWrite), s.dev.nv.committing = some ws → s.dev.pu.resetPending = false →
     exec .mramCommitEnd s = .next (s.withDev
       (((ws.foldl (fun d w => d.serveNv s.time w)
         ({ s.dev with nv := { s.dev.nv with copy1 := s.dev.nv.copy0, committing := none } } : Dev)).refillQueue s.time).freeRequests s.time))) ∧
   (∀ (s : State) (ws : List NvWrite), s.dev.nv.committing = some ws → s.dev.pu.resetPending = true →
     ∃ t : State, exec .mramCommitEnd s = .next t ∧ t.time = {} ∧ t.dev.pu = {} ∧
       t = { s with time := {}, dev := { ({} : Dev) with
         free := s.dev.free, log := s.dev.log, ctr := t.dev.ctr,
         nv := { ({} : NvCtl) with copy0 := s.dev.nv.copy0, copy1 := s.dev.nv.copy0 } } }) ∧
   (∀ s : State, s.dev.nv.committing = none → exec .mramCommitEnd s = .next s) ∧
   (∀ s : State, ∃ t : State, exec .nvWriteCommitTimeout s = .next t ∧
     t.dev.nv = { s.dev.nv with
       writes := s.dev.nv.writes.filter fun w => !(w.via.isSome && decide (w.at_ + 1000000000 ≤ s.time.elapsed)) } ∧
     t = s.withDev { s.dev with nv := t.dev.nv, eps := t.dev.eps, spdm := t.dev.spdm }))

/-! ### Health -/

/-- R590 to R593, R595: a site that fails takes the spare of its row where the row still has it (the repair field changes later, when the
reef's job does not run; the event is recorded under the job that holds the reef, which stops or is switched out as R592 says), else its
reef is degraded and every job that holds it stops at its next tide point; a site whose cause does not hold, or that fails already,
changes nothing. A margin sample is kept while the core dies are powered and firmware runs, and sets the reef's wear to the highest of its
sites. States that these complete: SITE_FAILING, REPAIR_FIELD_CHANGE, AGEING_SAMPLE. -/
def Obligations.FailingSiteTakesSpareOrDegrades : Prop :=
  (∀ (s : State) (r : ReefId) (row : Fin 16) (col : Fin 17) (c : FailCause),
    let k := r.val * 272 + row.val * 17 + col.val
    let h := s.dev.siteHealth k
    let d1 := s.dev.setSiteHealth k { h with failing := true }
    let site := s.dev.logicalAt r.val row.val col.val
    let js := (s.dev.jobAt r.val).toList
    (h.failing = false → h.fails s.time.ns c = true → s.dev.failPending r.val row.val = 31 →
      exec (.siteFailing r row col c) s = .next (s.withDev
        (js.foldl (fun d j => d.spareJob s.time (decide (c = .uncorrectable)) j)
          (({ d1 with health := { d1.health with failNext := s.dev.health.failNext ++ [(r.val * 16 + row.val, col.val)] } } : Dev).logSite
            s.time 0x8001 r.val (if col.val = 16 then 16 else 0) site js)))) ∧
    (h.failing = false → h.fails s.time.ns c = true → s.dev.failPending r.val row.val ≠ 31 →
      exec (.siteFailing r row col c) s = .next (s.withDev (d1.exhausted s.time r.val site))) ∧
    (h.failing = true ∨ h.fails s.time.ns c = false → exec (.siteFailing r row col c) s = .next s)) ∧
  (∀ (d : Dev) (t : TimeBase) (reef : Nat) (site : Option Nat),
    let d1 := (d.degrade reef).logSite t 0x8004 reef 0 site (d.holders reef)
    (reef ∈ d.health.degraded → d.exhausted t reef site = d) ∧ reef ∈ d1.health.degraded ∧
    (reef ∉ d.health.degraded → d.holders reef = [] →
      d.exhausted t reef site = (reefSites reef).foldl (fun d s => d.setSite s (d.site s).ctlStop) d1) ∧
    (reef ∉ d.health.degraded → d.holders reef ≠ [] →
      d.exhausted t reef site = (d.holders reef).foldl (fun d j => d.stopSoon t j 0x8004) d1)) ∧
  (∀ (s : State) (r : ReefId) (row : Fin 16),
    (s.dev.reefRuns r.val = false → exec (.repairFieldChange r row) s = .next (s.withDev (s.dev.repairRow r.val row.val))) ∧
    (s.dev.reefRuns r.val = true → exec (.repairFieldChange r row) s = .next s)) ∧
  (∀ (d : Dev) (reef row col : Nat), (d.health.failNext.find? fun e => decide (e.1 = reef * 16 + row)) = some (reef * 16 + row, col) →
    (d.repairRow reef row).failOf reef row = col) ∧
  (∀ (s : State) (r : ReefId) (row : Fin 16) (col : Fin 17) (m : Fin 101),
    (s.dev.pu.corePg = true → s.dev.fwRuns = true →
      ∃ t : State, exec (.ageingSample r row col m) s = .next t ∧
        (t.dev.siteHealth (r.val * 272 + row.val * 17 + col.val)).ageing = m.val ∧
        mget 0 t.dev.health.wear r.val =
          (List.range 272).foldl (fun a i => max a (t.dev.siteHealth (r.val * 272 + i)).ageing) 0 ∧
        (∀ k, k ≠ r.val * 272 + row.val * 17 + col.val → t.dev.siteHealth k = s.dev.siteHealth k) ∧
        t = s.withDev { s.dev with health := t.dev.health, log := t.dev.log, ctr := t.dev.ctr }) ∧
    (s.dev.pu.corePg = false ∨ s.dev.fwRuns = false → exec (.ageingSample r row col m) s = .next s))

/-! ### Instructions of a site -/

/-- R98, R100, R109, R164, R170: what holds of every instruction of a site before its own effect. A stream that does not run, or stands at
another opcode, is not the command's; a site that an error or a Stop has stopped issues nothing; an ordered instruction of a context waits
for its turn, and any instruction while an earlier one waits at its unit (R99); a word without an opcode, an uncorrectable word and a set
reserved bit stop the site. An instruction that ends past the last word stops the site after its effect, and one that finds an error in
an operand stops it with the error's code and the operand's place. -/
def Obligations.SiteIssueRules : Prop :=
  (∀ (ins : Instr) (s : State) (i : SiteId) (w : Who) (e : Ecc) (op : Nat), siteOp ins = some (i, w, e, op) →
    ((s.dev.site i.val).runner w = none → exec ins s = .next s) ∧
    ((s.dev.site i.val).stopped.isSome = true ∨ (s.dev.site i.val).controlStop = true → exec ins s = .next s) ∧
    (∀ c, (s.dev.site i.val).runner w = some c → (s.dev.site i.val).stopped = none → (s.dev.site i.val).controlStop = false →
      bits (s.dev.wordAt i.val c) 63 58 = op →
      (∀ k : Fin 4, w = .ctx k → (s.dev.site i.val).ordered (s.dev.wordAt i.val c) = true → (s.dev.site i.val).oldest k.val = false →
        exec ins s = .next s) ∧
      ((s.dev.site i.val).unitFree w op = false → exec ins s = .next s) ∧
      (s.dev.Issues i.val w c op → e.bad = true →
        exec ins s = .next (s.withDev (s.dev.siteUncorrectable s.time i.val c.tag.toNat c.pc))) ∧
      (∀ fs, w = .setup → (s.dev.site i.val).unitFree w op = true → e.bad = false → opFields op = some fs → reservedZero (s.dev.wordAt i.val c) fs = false →
        exec ins s = .next (s.withDev (s.dev.siteFault s.time i.val 0x200B c.tag.toNat c.pc)))) ∧
    (∀ c, (s.dev.site i.val).runner w = some c → (s.dev.site i.val).stopped = none → (s.dev.site i.val).controlStop = false →
      (opFields (bits (s.dev.wordAt i.val c) 63 58) = none →
        exec ins s = .next (s.withDev (s.dev.siteFault s.time i.val 0x200B c.tag.toNat c.pc))) ∧
      ((opFields (bits (s.dev.wordAt i.val c) 63 58)).isSome = true → bits (s.dev.wordAt i.val c) 63 58 ≠ op →
        exec ins s = .next s))) ∧
  (∀ (d : Dev) (t : TimeBase) (i pc : Nat) (w : Who) (r : SRun), 1024 ≤ pc →
    d.siteEnds t i w (.next r pc) =
      (d.writeBack t i w { r with c := { r.c with pc := pc } }).siteFault t i 0x200B r.c.tag.toNat r.c.pc) ∧
  (∀ (d : Dev) (t : TimeBase) (i code place : Nat) (w : Who) (r : SRun),
    (code ≠ 0x8005 → d.siteEnds t i w (.stop r code (some place)) = d.siteFault t i code r.c.tag.toNat place) ∧
    d.siteEnds t i w (.stop r 0x8005 (some place)) = d.siteUncorrectable t i r.c.tag.toNat place) ∧
  (∀ (s : State) (i : SiteId) (w : Who) (e : Ecc) (c : Context), e.bad = false → s.dev.Issues i.val w c 0x00 → c.pc = 1023 →
    exec (.nop i w e) s = .next (s.withDev
      (((s.dev.countEcc s.time i.val e).leaves i.val w (s.dev.runOf i.val w c) 1024).siteFault s.time i.val 0x200B c.tag.toNat 1023)))

/-- R98, R102 to R104, Table 5-13: the scalar instructions. Each writes the register it names (a shared one only from setup code), or nothing,
and its stream goes on with the next word; every other site and every other unit stays. A write of a shared register from a context is
discarded and sets `own_refused`; any other write gives its register the value and leaves the others. FN 14 and 15 are illegal. States
that these complete: NOP, RDST, CLRST, SETCTR, SOP, SOPI, LI, TAGR. -/
def Obligations.SiteScalarInstructions : Prop :=
  (∀ (s : State) (i : SiteId) (w : Who) (e : Ecc) (c : Context), e.bad = false → s.dev.Issues i.val w c 0x00 → c.pc < 1023 →
    let r := s.dev.runOf i.val w c
    exec (.nop i w e) s = .next (s.withDev ((s.dev.countEcc s.time i.val e).leaves i.val w (r) (c.pc + 1)))) ∧
  (∀ (s : State) (i : SiteId) (w : Who) (e : Ecc) (c : Context), e.bad = false → s.dev.Issues i.val w c 0x0A → c.pc < 1023 →
    let r := s.dev.runOf i.val w c
    let W := s.dev.wordAt i.val c
    exec (.li i w e) s = .next (s.withDev ((s.dev.countEcc s.time i.val e).leaves i.val w (r.setS (bits W 57 54) (BitVec.ofNat 32 (bits W 31 0))) (c.pc + 1)))) ∧
  (∀ (s : State) (i : SiteId) (w : Who) (e : Ecc) (c : Context), e.bad = false → s.dev.Issues i.val w c 0x0B → c.pc < 1023 →
    let r := s.dev.runOf i.val w c
    let W := s.dev.wordAt i.val c
    exec (.tagr i w e) s = .next (s.withDev ((s.dev.countEcc s.time i.val e).leaves i.val w (r.setS (bits W 57 54) (if r.setup then 0 else c.tag.setWidth 32)) (c.pc + 1)))) ∧
  (∀ (s : State) (i : SiteId) (w : Who) (e : Ecc) (c : Context), e.bad = false → s.dev.Issues i.val w c 0x05 → c.pc < 1023 →
    let r := s.dev.runOf i.val w c
    let W := s.dev.wordAt i.val c
    exec (.rdst i w e) s = .next (s.withDev ((s.dev.countEcc s.time i.val e).leaves i.val w (r.setS (bits W 57 54) (if r.setup then (s.dev.site i.val).status else 0)) (c.pc + 1)))) ∧
  (∀ (s : State) (i : SiteId) (w : Who) (e : Ecc) (c : Context), e.bad = false → s.dev.Issues i.val w c 0x08 → c.pc < 1023 →
    let r := s.dev.runOf i.val w c
    let W := s.dev.wordAt i.val c
    ∀ v, alu (bits W 45 42) (r.sreg (bits W 53 50)) (r.sreg (bits W 49 46)) = some v →
      exec (.sop i w e) s = .next (s.withDev ((s.dev.countEcc s.time i.val e).leaves i.val w (r.setS (bits W 57 54) v) (c.pc + 1)))) ∧
  (∀ (s : State) (i : SiteId) (w : Who) (e : Ecc) (c : Context), e.bad = false → s.dev.Issues i.val w c 0x09 → c.pc < 1023 →
    let r := s.dev.runOf i.val w c
    let W := s.dev.wordAt i.val c
    ∀ v, alu (bits W 45 42) (r.sreg (bits W 53 50)) (BitVec.ofNat 32 (bits W 31 0)) = some v →
      exec (.sopi i w e) s = .next (s.withDev ((s.dev.countEcc s.time i.val e).leaves i.val w (r.setS (bits W 57 54) v) (c.pc + 1)))) ∧
  (∀ (s : State) (i : SiteId) (w : Who) (e : Ecc) (c : Context), e.bad = false → s.dev.Issues i.val w c 0x06 → c.pc < 1023 →
    let r := s.dev.runOf i.val w c
    let W := s.dev.wordAt i.val c
    (w = .setup → exec (.clrst i w e) s = .next (s.withDev ((s.dev.countEcc s.time i.val e).leaves i.val w ({ r with x := { r.x with sticky := r.x.sticky &&& ~~~(BitVec.ofNat 32 (bits W 31 0)) } }) (c.pc + 1)))) ∧
    (w ≠ .setup → exec (.clrst i w e) s = .next (s.withDev ((s.dev.countEcc s.time i.val e).leaves i.val w (r) (c.pc + 1))))) ∧
  (∀ (s : State) (i : SiteId) (w : Who) (e : Ecc) (c : Context), e.bad = false → s.dev.Issues i.val w c 0x07 → c.pc < 1023 →
    let r := s.dev.runOf i.val w c
    let W := s.dev.wordAt i.val c
    (w = .setup → exec (.setctr i w e) s = .next (s.withDev ((s.dev.countEcc s.time i.val e).leaves i.val w ({ r with x := { r.x with trigs := mput {} r.x.trigs (bits W 57 53) { r.x.trig (bits W 57 53) with counter := (r.sreg (bits W 52 49)).setWidth 20 } } }) (c.pc + 1)))) ∧
    (w ≠ .setup → exec (.setctr i w e) s = .next (s.withDev ((s.dev.countEcc s.time i.val e).leaves i.val w (r) (c.pc + 1))))) ∧
  (∀ (s : State) (i : SiteId) (w : Who) (e : Ecc) (c : Context), e.bad = false → 14 ≤ bits (s.dev.wordAt i.val c) 45 42 →
    (s.dev.Issues i.val w c 0x08 → exec (.sop i w e) s = .next (s.withDev (s.dev.illegalAt s.time i.val e c))) ∧
    (s.dev.Issues i.val w c 0x09 → exec (.sopi i w e) s = .next (s.withDev (s.dev.illegalAt s.time i.val e c)))) ∧
  (∀ (r : SRun) (k : Nat) (v : W32),
    (k < 8 → r.setup = false → r.setS k v = r.flag fOwnRefused ∧ ∀ j, (r.setS k v).sreg j = r.sreg j) ∧
    (8 ≤ k ∨ r.setup = true → (r.setS k v).sreg k = v ∧ ∀ j, j ≠ k → (r.setS k v).sreg j = r.sreg j))

/-- R149, R150, Table 5-13: `br` goes to its target when its condition holds, `dbnz` when its decremented register is not zero (decided before
a write that is discarded), else both go on; `end` closes its context; `arm` in setup code ends setup code and arms the tag store, and
from a context sets the sticky flag of a refused access. Condition 7, and `end` in setup code, are illegal. States that these complete:
END, ARM, BR, DBNZ. -/
def Obligations.SiteControlFlowInstructions : Prop :=
  (∀ (s : State) (i : SiteId) (w : Who) (e : Ecc) (c : Context), e.bad = false → s.dev.Issues i.val w c 0x03 → c.pc < 1023 →
    let r := s.dev.runOf i.val w c
    let W := s.dev.wordAt i.val c
    (brCond (bits W 49 47) (r.sreg (bits W 57 54)) (r.sreg (bits W 53 50)) = some true → exec (.br i w e) s = .next (s.withDev ((s.dev.countEcc s.time i.val e).leaves i.val w (r) (bits W 9 0)))) ∧
    (brCond (bits W 49 47) (r.sreg (bits W 57 54)) (r.sreg (bits W 53 50)) = some false → exec (.br i w e) s = .next (s.withDev ((s.dev.countEcc s.time i.val e).leaves i.val w (r) (c.pc + 1))))) ∧
  (∀ (s : State) (i : SiteId) (w : Who) (e : Ecc) (c : Context), e.bad = false → s.dev.Issues i.val w c 0x04 → c.pc < 1023 →
    let r := s.dev.runOf i.val w c
    let W := s.dev.wordAt i.val c
    (r.sreg (bits W 57 54) ≠ 1 → exec (.dbnz i w e) s = .next (s.withDev ((s.dev.countEcc s.time i.val e).leaves i.val w (r.setS (bits W 57 54) (r.sreg (bits W 57 54) - 1)) (bits W 9 0)))) ∧
    (r.sreg (bits W 57 54) = 1 → exec (.dbnz i w e) s = .next (s.withDev ((s.dev.countEcc s.time i.val e).leaves i.val w (r.setS (bits W 57 54) 0) (c.pc + 1))))) ∧
  (∀ (s : State) (i : SiteId) (k : Fin 4) (e : Ecc) (c : Context), e.bad = false → s.dev.Issues i.val (.ctx k) c 0x01 →
    let d := (s.dev.countEcc s.time i.val e).leaves i.val (.ctx k) (s.dev.runOf i.val (.ctx k) c) c.pc
    let y := (d.site i.val).closeCtx k.val
    exec (.end_ i (.ctx k) e) s = .next (s.withDev ((d.setSite i.val y).tagStop s.time i.val y.fifoBad))) ∧
  (∀ (s : State) (i : SiteId) (e : Ecc) (c : Context), e.bad = false → s.dev.Issues i.val .setup c 0x02 →
    let d := (s.dev.countEcc s.time i.val e).leaves i.val .setup (s.dev.runOf i.val .setup c) c.pc
    let y := (d.site i.val).arm
    y.armed = true ∧ y.setup = none ∧
    exec (.arm i .setup e) s = .next (s.withDev
      (((d.setSite i.val y).tagStop s.time i.val (y.heldLate.orElse fun _ => y.fifoBad)).forcedEnd s.time i.val))) ∧
  (∀ (s : State) (i : SiteId) (w : Who) (e : Ecc) (c : Context), e.bad = false → s.dev.Issues i.val w c 0x02 → c.pc < 1023 →
    let r := s.dev.runOf i.val w c
    w ≠ .setup → exec (.arm i w e) s = .next (s.withDev ((s.dev.countEcc s.time i.val e).leaves i.val w (r.flag fOwnRefused) (c.pc + 1)))) ∧
  (∀ (s : State) (i : SiteId) (w : Who) (e : Ecc) (c : Context), e.bad = false →
    (s.dev.Issues i.val w c 0x03 → bits (s.dev.wordAt i.val c) 49 47 = 7 →
      exec (.br i w e) s = .next (s.withDev (s.dev.illegalAt s.time i.val e c))) ∧
    (s.dev.Issues i.val .setup c 0x01 → exec (.end_ i .setup e) s = .next (s.withDev (s.dev.illegalAt s.time i.val e c))))

/-- R152, R155, R165: `ld` and `st` use the address that their descriptor or register gives. A word within the data SRAM at a multiple of 4 is
read or written (below the descriptor area); outside, the read gives 0, the write is discarded, and the sticky flag is set; the same with
a refused access. `agrst` returns a walk to its first point. R105: a store of `st` changes the bytes it stores, within the data SRAM, and
no other byte. States that these complete: LD, ST, AGRST. -/
def Obligations.SiteMemoryInstructions : Prop :=
  ((∀ (s : State) (i : SiteId) (w : Who) (e : Ecc) (c : Context), e.bad = false → s.dev.Issues i.val w c 0x0C → c.pc < 1023 →
     let r := s.dev.runOf i.val w c
     let W := s.dev.wordAt i.val c
     (∀ a, r.ldstAddr W false = .ok a → a % 4 = 0 → a + 4 ≤ 0xC000 →
       exec (.ld i w e) s = .next (s.withDev ((s.dev.countEcc s.time i.val e).leaves i.val w (r.setS (bits W 57 54) (BitVec.ofNat 32 ((s.dev.site i.val).rd a 4))) (c.pc + 1)))) ∧
     (∀ a, r.ldstAddr W false = .ok a → (a % 4 ≠ 0 ∨ 0xC000 < a + 4) →
       exec (.ld i w e) s = .next (s.withDev ((s.dev.countEcc s.time i.val e).leaves i.val w ((r.flag fAgOob).setS (bits W 57 54) 0) (c.pc + 1)))) ∧
     (∀ r1, r.ldstAddr W false = .error r1 →
       exec (.ld i w e) s = .next (s.withDev ((s.dev.countEcc s.time i.val e).leaves i.val w (r1.setS (bits W 57 54) 0) (c.pc + 1))))) ∧
   (∀ (s : State) (i : SiteId) (w : Who) (e : Ecc) (c : Context), e.bad = false → s.dev.Issues i.val w c 0x0D → c.pc < 1023 →
     let r := s.dev.runOf i.val w c
     let W := s.dev.wordAt i.val c
     (∀ a, r.ldstAddr W true = .ok a → a % 4 = 0 → a + 4 ≤ 0xBA80 →
       exec (.st i w e) s = .next (s.withDev ((s.dev.countEcc s.time i.val e).leaves i.val w ({ r with x := r.x.wr a (le 4 (r.sreg (bits W 57 54)).toNat) }) (c.pc + 1)))) ∧
     (∀ a, r.ldstAddr W true = .ok a → (a % 4 ≠ 0 ∨ 0xBA80 < a + 4) →
       exec (.st i w e) s = .next (s.withDev ((s.dev.countEcc s.time i.val e).leaves i.val w (r.flag fAgOob) (c.pc + 1)))) ∧
     (∀ r1, r.ldstAddr W true = .error r1 → exec (.st i w e) s = .next (s.withDev ((s.dev.countEcc s.time i.val e).leaves i.val w (r1) (c.pc + 1))))) ∧
   (∀ (s : State) (i : SiteId) (w : Who) (e : Ecc) (c : Context), e.bad = false → s.dev.Issues i.val w c 0x0E → c.pc < 1023 →
     let r := s.dev.runOf i.val w c
     let W := s.dev.wordAt i.val c
     ((r.x.ag (bits W 49 46)).mode ≠ 2 ∨ r.ownsAG (r.x.ag (bits W 49 46)) = true →
       exec (.agrst i w e) s = .next (s.withDev ((s.dev.countEcc s.time i.val e).leaves i.val w (r.putWalk (bits W 49 46) {}) (c.pc + 1)))) ∧
     ((r.x.ag (bits W 49 46)).mode = 2 → r.ownsAG (r.x.ag (bits W 49 46)) = false →
       exec (.agrst i w e) s = .next (s.withDev ((s.dev.countEcc s.time i.val e).leaves i.val w (r.flag fOwnRefused) (c.pc + 1))))) ∧
   (∀ (r : SRun) (W : Nat) (write : Bool),
     let ra := (r.sreg (bits W 53 50)).toNat
     let ofs := bits W 15 0
     let g := r.x.ag (bits W 49 46)
     (bit W 45 = true → r.setup = true → r.ldstAddr W write = .ok ((ra + ofs) % 2 ^ 32)) ∧
     (bit W 45 = true → r.setup = false → r.ldstAddr W write = .error (r.flag fOwnRefused)) ∧
     (bit W 45 = false → g.mode = 2 → r.ownsAG g = false → r.ldstAddr W write = .error (r.flag fOwnRefused)) ∧
     (bit W 45 = false → (g.mode = 3 ∨ write = true ∧ g.mode = 1) → r.ldstAddr W write = .error (r.flag fAgOob)) ∧
     (bit W 45 = false → g.mode = 0 → r.ldstAddr W write = .ok ((g.base + r.c.tag.toNat % 4 * g.pitch + ra + ofs) % 2 ^ 32)) ∧
     (bit W 45 = false → (g.mode = 1 ∧ write = false ∨ g.mode = 2 ∧ r.ownsAG g = true) →
       r.ldstAddr W write = .ok ((g.base + ra + ofs) % 2 ^ 32)))) ∧
  (∀ (x : Site) (a : Nat) (b : List Byte), a + b.length ≤ 0xC000 →
     (∀ k, (k < a ∨ a + b.length ≤ k) → mget 0 (x.wr a b).sram k = mget 0 x.sram k) ∧
     (∀ k (h : k < b.length), mget 0 (x.wr a b).sram (a + k) = b[k]) ∧ (x.wr a b) = { x with sram := (x.wr a b).sram })

/-- R122, Table 5-13: the vector instructions on registers. The 16 lanes of the result are those of the rule; a shared register is written
only from setup code. R48, R51, R73, R156, R168: `vld` widens one beat (or two, for the 32-bit formats) into registers; `vpack` narrows
registers into a register or a beat of a write descriptor; `vmx` stores one block of 32 elements with its scale byte; each waits where its
operand or its walk does. A reserved function or format code, a register past the last, and a source or a destination of another kind are
illegal and stop the site. States that these complete: VOP, VTR, VLD, VPACK, VMX, VHRED, VPERM, VMOV. -/
def Obligations.SiteVectorAndFormatInstructions : Prop :=
  ((∀ (s : State) (i : SiteId) (w : Who) (e : Ecc) (c : Context), e.bad = false → s.dev.Issues i.val w c 0x10 → c.pc < 1023 →
     let r := s.dev.runOf i.val w c
     let W := s.dev.wordAt i.val c
     exec (.vop i w e) s = .next (s.withDev ((s.dev.countEcc s.time i.val e).leaves i.val w (r.setV (bits W 57 55) ((List.range 16).map fun l => vopLane (bits W 45 42) (r.lane (bits W 54 52) l)
       (if bit W 41 then r.sreg (bits W 40 37) else r.lane (bits W 51 49) l) (r.lane (bits W 48 46) l))) (c.pc + 1)))) ∧
   (∀ (s : State) (i : SiteId) (w : Who) (e : Ecc) (c : Context), e.bad = false → s.dev.Issues i.val w c 0x11 → c.pc < 1023 →
     let r := s.dev.runOf i.val w c
     let W := s.dev.wordAt i.val c
     bits W 45 42 ≤ 5 → exec (.vtr i w e) s = .next (s.withDev ((s.dev.countEcc s.time i.val e).leaves i.val w (r.setV (bits W 57 55) ((r.vec (bits W 54 52)).map (laneTr (bits W 45 42)))) (c.pc + 1)))) ∧
   (∀ (s : State) (i : SiteId) (w : Who) (e : Ecc) (c : Context), e.bad = false → s.dev.Issues i.val w c 0x15 → c.pc < 1023 →
     let r := s.dev.runOf i.val w c
     let W := s.dev.wordAt i.val c
     ∀ f, (bits W 45 42 = 0 ∧ f = laneAdd ∨ bits W 45 42 = 1 ∧ f = laneMin ∨ bits W 45 42 = 2 ∧ f = laneMax) →
       let v := (pairUp f (pairUp f (pairUp f (pairUp f (r.vec (bits W 54 52)))))).headD 0
       exec (.vhred i w e) s = .next (s.withDev ((s.dev.countEcc s.time i.val e).leaves i.val w (r.setV (bits W 57 55) (v :: List.replicate 15 0)) (c.pc + 1)))) ∧
   (∀ (s : State) (i : SiteId) (w : Who) (e : Ecc) (c : Context), e.bad = false → s.dev.Issues i.val w c 0x16 → c.pc < 1023 →
     let r := s.dev.runOf i.val w c
     let W := s.dev.wordAt i.val c
     let put (f : Nat → Nat) : SRun := r.setV (bits W 57 55) ((List.range 16).map fun k => r.lane (bits W 54 52) (f k))
     (bits W 45 42 = 0 → exec (.vperm i w e) s = .next (s.withDev ((s.dev.countEcc s.time i.val e).leaves i.val w (put fun _ => bits W 41 38) (c.pc + 1)))) ∧
     (bits W 45 42 = 1 → exec (.vperm i w e) s = .next (s.withDev ((s.dev.countEcc s.time i.val e).leaves i.val w (put fun k => (k + bits W 41 38) % 16) (c.pc + 1)))) ∧
     (bits W 45 42 = 2 → bits W 41 38 ≤ 3 → exec (.vperm i w e) s = .next (s.withDev ((s.dev.countEcc s.time i.val e).leaves i.val w (put fun k => k ^^^ 2 ^ bits W 41 38) (c.pc + 1)))) ∧
     (bits W 45 42 = 3 → exec (.vperm i w e) s = .next (s.withDev ((s.dev.countEcc s.time i.val e).leaves i.val w (put fun k => 15 - k) (c.pc + 1))))) ∧
   (∀ (s : State) (i : SiteId) (w : Who) (e : Ecc) (c : Context), e.bad = false → s.dev.Issues i.val w c 0x17 → c.pc < 1023 →
     let r := s.dev.runOf i.val w c
     let W := s.dev.wordAt i.val c
     (bit W 46 = true → exec (.vmov i w e) s = .next (s.withDev ((s.dev.countEcc s.time i.val e).leaves i.val w (r.setV (bits W 57 55) (listSet (r.vec (bits W 57 55)) (bits W 50 47) (r.sreg (bits W 54 51)))) (c.pc + 1)))) ∧
     (bit W 46 = false → exec (.vmov i w e) s = .next (s.withDev ((s.dev.countEcc s.time i.val e).leaves i.val w (r.setS (bits W 54 51) (r.lane (bits W 57 55) (bits W 50 47))) (c.pc + 1))))) ∧
   (∀ (r : SRun) (k : Nat) (l : List W32), l.length = 16 →
     (k < 4 → r.setup = false → r.setV k l = r.flag fOwnRefused ∧ ∀ j, (r.setV k l).vec j = r.vec j) ∧
     (4 ≤ k ∨ r.setup = true → (r.setV k l).vec k = l ∧ ∀ j, j ≠ k → (r.setV k l).vec j = r.vec j))) ∧
  ((∀ (s : State) (i : SiteId) (w : Who) (e : Ecc) (c : Context), e.bad = false → s.dev.Issues i.val w c 0x12 → c.pc < 1023 →
     let r := s.dev.runOf i.val w c
     let W := s.dev.wordAt i.val c
     let f := bits W 45 41
     let b := r.beat 0 (bits W 53 46) { n := if isBlock f then (if f = 9 then 2 else 1) else 0, vld := true, fmt := f, desc := bits W 39 36 }
     f ≤ 0xE → bits W 57 55 + regsOf f ≤ 8 → r.x.srcOk (bits W 53 46) = true →
     (b = .wait → exec (.vld i w e) s = .next (s.withDev ((s.dev.countEcc s.time i.val e).writeBack s.time i.val w (r.waitsAt w 0x12)))) ∧
     (∀ v sc r1, b = .ok v sc r1 → fmtWidth f = 32 → r1.c.held = [] →
       exec (.vld i w e) s = .next (s.withDev ((s.dev.countEcc s.time i.val e).writeBack s.time i.val w
         (SRun.waitsAt { r1 with c := { r1.c with held := [v] } } w 0x12)))) ∧
     (∀ v sc r1, b = .ok v sc r1 → r1.c.pc < 1023 → (fmtWidth f = 32 ↔ r1.c.held.length = 1) → r1.c.held.length ≤ 1 →
       exec (.vld i w e) s = .next (s.withDev ((s.dev.countEcc s.time i.val e).writeBack s.time i.val w
         (let q := ({ r1 with c := { r1.c with held := [] } } : SRun).setVs (bits W 57 55) (regsOf f)
            ((List.range (16 * regsOf f)).map fun k => widen f (sc.getD (k / 32) 0) (elemAt (fmtWidth f) (((r1.c.held.headD 0).toNat) * (if fmtWidth f = 32 then 1 else 0) + v.toNat * (if fmtWidth f = 32 then 2 ^ 256 else 1)) k))
          { q with c := { q.c with pc := r1.c.pc + 1 } }))))) ∧
   (∀ (s : State) (i : SiteId) (w : Who) (e : Ecc) (c : Context), e.bad = false → s.dev.Issues i.val w c 0x13 → c.pc < 1023 →
     let r := s.dev.runOf i.val w c
     let W := s.dev.wordAt i.val c
     let f := bits W 46 42
     let m := r.rndMode (bits W 41 40)
     let es := (List.range (16 * regsOf f)).map fun k =>
       packElem f ⟨m.1, if m.1 = 2 then r.draw k else 0⟩ (bit W 39) (r.elem (bits W 57 55) k)
     let all := packElems (fmtWidth f) (es.map (·.1))
     let cv := es.foldl (fun (a : Cv) p => a.or p.2) { nan := m.2 }
     packFmt f = true → bits W 57 55 + regsOf f ≤ 8 →
     (selReg (bits W 54 47) = true →
       exec (.vpack i w e) s = .next (s.withDev ((s.dev.countEcc s.time i.val e).leaves i.val w ((r.cv cv).setV (bits W 54 47)
         ((List.range 16).map fun k => BitVec.ofNat 32 (elemAt 32 all k))) (c.pc + 1)))) ∧
     (∀ r1, selReg (bits W 54 47) = false → selDesc (bits W 54 47) = true →
       r.writeBeat (bits W 54 47 % 16) (le 32 (bits all (256 * c.beats + 255) (256 * c.beats))) none f = some r1 → r1.c.pc < 1023 →
       (r1.c.beats + 1 < (if fmtWidth f = 32 then 2 else 1) →
         exec (.vpack i w e) s = .next (s.withDev ((s.dev.countEcc s.time i.val e).writeBack s.time i.val w
           (SRun.waitsAt { r1 with c := { r1.c with beats := r1.c.beats + 1 } } w 0x13)))) ∧
       ((if fmtWidth f = 32 then 2 else 1) ≤ r1.c.beats + 1 →
         exec (.vpack i w e) s = .next (s.withDev ((s.dev.countEcc s.time i.val e).writeBack s.time i.val w
           (let z := ({ r1 with c := { r1.c with beats := 0 } } : SRun).cv cv
            { z with c := { z.c with pc := r1.c.pc + 1 } })))))) ∧
   (∀ (s : State) (i : SiteId) (w : Who) (e : Ecc) (c : Context), e.bad = false → s.dev.Issues i.val w c 0x14 → c.pc < 1023 →
     let r := s.dev.runOf i.val w c
     let W := s.dev.wordAt i.val c
     let f := bits W 46 42
     let m := r.rndMode (bits W 41 40)
     let rd (k : Nat) : Rnd := ⟨m.1, if m.1 = 2 then r.draw k else 0⟩
     let xs := (List.range 32).map fun k => ofFp32 (r.elem (bits W 57 55) k)
     let q := if f = 0xD then umxEncode rd xs else mxEncode f rd (bit W 39) xs
     ∀ r1, isBlock f = true → bits W 57 55 + 2 ≤ 8 → selDesc (bits W 54 47) = true →
       r.writeBeat (bits W 54 47 % 16) (le (blkBytes f) (packElems (fmtWidth f) q.2.1)) (some q.1) f = some r1 → r1.c.pc < 1023 →
       exec (.vmx i w e) s = .next (s.withDev ((s.dev.countEcc s.time i.val e).writeBack s.time i.val w
         (let z := r1.cv (q.2.2.or { nan := m.2 })
          { z with c := { z.c with pc := r1.c.pc + 1 } }))))) ∧
  (∀ (s : State) (i : SiteId) (w : Who) (e : Ecc) (c : Context), e.bad = false →
     let r := s.dev.runOf i.val w c
     let W := s.dev.wordAt i.val c
     let ill : State := s.withDev (s.dev.illegalAt s.time i.val e c)
     (s.dev.Issues i.val w c 0x11 → 5 < bits W 45 42 → exec (.vtr i w e) s = .next ill) ∧
     (s.dev.Issues i.val w c 0x15 → 2 < bits W 45 42 → exec (.vhred i w e) s = .next ill) ∧
     (s.dev.Issues i.val w c 0x16 → (bits W 45 42 = 2 ∧ 3 < bits W 41 38 ∨ 3 < bits W 45 42) → exec (.vperm i w e) s = .next ill) ∧
     (s.dev.Issues i.val w c 0x12 →
       (0xE < bits W 45 41 ∨ 8 < bits W 57 55 + regsOf (bits W 45 41) ∨ r.x.srcOk (bits W 53 46) = false) →
       exec (.vld i w e) s = .next ill) ∧
     (s.dev.Issues i.val w c 0x13 →
       (packFmt (bits W 46 42) = false ∨ 8 < bits W 57 55 + regsOf (bits W 46 42) ∨
         selReg (bits W 54 47) = false ∧ selDesc (bits W 54 47) = false) →
       exec (.vpack i w e) s = .next ill) ∧
     (s.dev.Issues i.val w c 0x14 →
       (isBlock (bits W 46 42) = false ∨ 6 < bits W 57 55 ∨ selDesc (bits W 54 47) = false) → exec (.vmx i w e) s = .next ill) ∧
     (∀ code q, s.dev.Issues i.val w c 0x12 → bits W 45 41 ≤ 0xE → bits W 57 55 + regsOf (bits W 45 41) ≤ 8 →
       r.x.srcOk (bits W 53 46) = true →
       r.beat 0 (bits W 53 46) { n := if isBlock (bits W 45 41) then (if bits W 45 41 = 9 then 2 else 1) else 0, vld := true,
                                 fmt := bits W 45 41, desc := bits W 39 36 } = .stop code q →
       exec (.vld i w e) s = .next (s.withDev ((s.dev.countEcc s.time i.val e).siteEnds s.time i.val w (.stop r code (some q))))) ∧
     (s.dev.Issues i.val w c 0x13 → packFmt (bits W 46 42) = true → bits W 57 55 + regsOf (bits W 46 42) ≤ 8 →
       selReg (bits W 54 47) = false → selDesc (bits W 54 47) = true → (∀ b, r.writeBeat (bits W 54 47 % 16) b none (bits W 46 42) = none) →
       exec (.vpack i w e) s = .next (s.withDev ((s.dev.countEcc s.time i.val e).writeBack s.time i.val w (r.waitsAt w 0x13)))) ∧
     (s.dev.Issues i.val w c 0x14 → isBlock (bits W 46 42) = true → bits W 57 55 ≤ 6 → selDesc (bits W 54 47) = true →
       (∀ b sc, r.writeBeat (bits W 54 47 % 16) b (some sc) (bits W 46 42) = none) →
       exec (.vmx i w e) s = .next (s.withDev ((s.dev.countEcc s.time i.val e).writeBack s.time i.val w (r.waitsAt w 0x14)))))

/-- R101, R120, R123, R166, Table 5-13: the tile and accumulator instructions on a tile that setup code, or the owning trigger, may touch:
cleared to its kind, moved to or from a vector register, a vector deposited, an AA word combined, cleared. On a tile that is not owned
each sets the sticky flag of a refused access and leaves the tiles; a vector read from there is zero. `KIND` 3, another format of `aacvt`
and another source of `aacmb` are illegal; `aacmb` waits for a token, and one with an error stops the site. R117, R118: one beat of `mma`
whose operands are read and forwarded nowhere: the first beat clears the tile, or takes it as zero, as R119 and R166 say; the tile's 16
values become those of the cube, and its `ACC_SAT` stays set once set. States that these complete: TCLR, TMOV, AADEP, AACMB, AACVT, AACLR. -/
def Obligations.SiteTileInstructions : Prop :=
  ((∀ (s : State) (i : SiteId) (w : Who) (e : Ecc) (c : Context), e.bad = false → s.dev.Issues i.val w c 0x21 → c.pc < 1023 →
     let r := s.dev.runOf i.val w c
     let W := s.dev.wordAt i.val c
     bits W 51 50 ≠ 3 →
     (r.owns (bits W 57 52) = true → exec (.tclr i w e) s = .next (s.withDev ((s.dev.countEcc s.time i.val e).leaves i.val w (r.clearTile (bits W 57 52) (bits W 51 50)) (c.pc + 1)))) ∧
     (r.owns (bits W 57 52) = false → exec (.tclr i w e) s = .next (s.withDev ((s.dev.countEcc s.time i.val e).leaves i.val w (r.flag fOwnRefused) (c.pc + 1))))) ∧
   (∀ (s : State) (i : SiteId) (w : Who) (e : Ecc) (c : Context), e.bad = false → s.dev.Issues i.val w c 0x22 → c.pc < 1023 →
     let r := s.dev.runOf i.val w c
     let W := s.dev.wordAt i.val c
     let t := bits W 57 52
     let v := bits W 51 49
     (bit W 48 = true → r.owns t = true →
       exec (.tmov i w e) s = .next (s.withDev ((s.dev.countEcc s.time i.val e).leaves i.val w ((r.setTile t (r.vec v)).setKind t (b2n (bit W 47)) (r.accSat t)) (c.pc + 1)))) ∧
     (bit W 48 = true → r.owns t = false → exec (.tmov i w e) s = .next (s.withDev ((s.dev.countEcc s.time i.val e).leaves i.val w (r.flag fOwnRefused) (c.pc + 1)))) ∧
     (bit W 48 = false → r.owns t = false → exec (.tmov i w e) s = .next (s.withDev ((s.dev.countEcc s.time i.val e).leaves i.val w ((r.flag fOwnRefused).setV v (List.replicate 16 0)) (c.pc + 1)))) ∧
     (bit W 48 = false → r.owns t = true → r.kind t = 2 → exec (.tmov i w e) s = .next (s.withDev ((s.dev.countEcc s.time i.val e).leaves i.val w ((r.flag fCvNan).setV v (List.replicate 16 0)) (c.pc + 1)))) ∧
     (bit W 48 = false → r.owns t = true → r.kind t ≠ 2 → exec (.tmov i w e) s = .next (s.withDev ((s.dev.countEcc s.time i.val e).leaves i.val w (r.setV v (r.tile t)) (c.pc + 1))))) ∧
   (∀ (s : State) (i : SiteId) (w : Who) (e : Ecc) (c : Context), e.bad = false → s.dev.Issues i.val w c 0x23 → c.pc < 1023 →
     let r := s.dev.runOf i.val w c
     let W := s.dev.wordAt i.val c
     let t := bits W 57 52
     let q := r.toAA t
     let x := aaDeposit (q.word t (bits W 51 51)) ((q.vec (bits W 50 48)).map (depositVal (bit W 47)))
     (r.owns t = true → exec (.aadep i w e) s = .next (s.withDev ((s.dev.countEcc s.time i.val e).writeBack s.time i.val w
         (let z := (q.setWord t (bits W 51 51) x.1).report x.2
          { z with c := { z.c with pc := z.c.pc + 1 } })))) ∧
     (r.owns t = false → exec (.aadep i w e) s = .next (s.withDev ((s.dev.countEcc s.time i.val e).leaves i.val w (r.flag fOwnRefused) (c.pc + 1))))) ∧
   (∀ (s : State) (i : SiteId) (w : Who) (e : Ecc) (c : Context), e.bad = false → s.dev.Issues i.val w c 0x24 → c.pc < 1023 →
     let r := s.dev.runOf i.val w c
     let W := s.dev.wordAt i.val c
     let t := bits W 57 52
     (∀ v r1 r2, selAA (bits W 50 43) = true → r.readWord (bits W 42 37) (bits W 36 36) = (v, r1) → r1.owns t = true → r1.toAA t = r2 →
       exec (.aacmb i w e) s = .next (s.withDev ((s.dev.countEcc s.time i.val e).writeBack s.time i.val w
         (let z := (r2.setWord t (bits W 51 51) (aaCombine (r2.word t (bits W 51 51)) v).1).report (aaCombine (r2.word t (bits W 51 51)) v).2
          { z with c := { z.c with pc := z.c.pc + 1 } })))) ∧
     (∀ v l r1 r2, selAA (bits W 50 43) = false → selQueue (bits W 50 43) = true → (r.x.qd (bits W 50 43 % 64)).mode = 3 →
       r.takeToken (bits W 50 43 % 64) {} = .ok v l r1 → r1.owns t = true → r1.toAA t = r2 → r2.c.pc < 1023 →
       exec (.aacmb i w e) s = .next (s.withDev ((s.dev.countEcc s.time i.val e).writeBack s.time i.val w
         (let z := (r2.setWord t (bits W 51 51) (aaCombine (r2.word t (bits W 51 51)) v).1).report (aaCombine (r2.word t (bits W 51 51)) v).2
          { z with c := { z.c with pc := z.c.pc + 1 } })))) ∧
     (selAA (bits W 50 43) = false → selQueue (bits W 50 43) = true → (r.x.qd (bits W 50 43 % 64)).mode = 3 →
       r.takeToken (bits W 50 43 % 64) {} = .wait →
       exec (.aacmb i w e) s = .next (s.withDev ((s.dev.countEcc s.time i.val e).writeBack s.time i.val w (r.waitsAt w 0x24))))) ∧
   (∀ (s : State) (i : SiteId) (w : Who) (e : Ecc) (c : Context), e.bad = false → s.dev.Issues i.val w c 0x25 → c.pc < 1023 →
     let r := s.dev.runOf i.val w c
     let W := s.dev.wordAt i.val c
     let f := bits W 47 43
     let q := r.readWord (bits W 57 52) (bits W 51 51)
     let x := aaConvert q.1 f (bit W 42)
     (f ≤ 4 ∨ f = 0xC) →
       exec (.aacvt i w e) s = .next (s.withDev ((s.dev.countEcc s.time i.val e).writeBack s.time i.val w
         (let z := ((q.2.cv x.2.1).report x.2.2).setV (bits W 50 48) (BitVec.ofNat 32 x.1 :: List.replicate 15 0)
          { z with c := { z.c with pc := z.c.pc + 1 } })))) ∧
   (∀ (s : State) (i : SiteId) (w : Who) (e : Ecc) (c : Context), e.bad = false → s.dev.Issues i.val w c 0x26 → c.pc < 1023 →
     let r := s.dev.runOf i.val w c
     let W := s.dev.wordAt i.val c
     let t := bits W 57 52
     (r.owns t = true → exec (.aaclr i w e) s = .next (s.withDev ((s.dev.countEcc s.time i.val e).leaves i.val w ((r.toAA t).setWord t (bits W 51 51) aaZero) (c.pc + 1)))) ∧
     (r.owns t = false → exec (.aaclr i w e) s = .next (s.withDev ((s.dev.countEcc s.time i.val e).leaves i.val w (r.flag fOwnRefused) (c.pc + 1)))))) ∧
  (∀ (r r1 r2 : SRun) (W : Nat) (cl : CubeClass) (a b : W256) (ea eb : List Nat),
     let n := if cl.block then 4 else 0
     r.env.plane = none →
     r.beat 0 (bits W 51 44) { n := n, fmt := bits W 35 31, desc := bits W 14 11 } = .ok a ea r1 →
     r1.beat 1 (bits W 43 36) { n := n, fmt := bits W 30 26, desc := bits W 10 7 } = .ok b eb r2 →
     let t := bits W 57 52
     let r3 := if r2.c.beats = 0 then r2.mmaTile t (if cl = .i8 then 1 else 0) (bit W 15) else r2
     let q : SRun := { r3 with c := { r3.c with beats := r3.c.beats + 1 } }
     let x := cubeBeat cl (bits W 35 31) (bits W 30 26) ea eb a b (q.tile t)
     (q.owns t = true → r.mmaBeat W cl = .ok ((q.setTile t x.1).setKind t (q.kind t) (q.accSat t || x.2))) ∧
     (q.owns t = false → r.mmaBeat W cl = .ok q)) ∧
  (∀ (s : State) (i : SiteId) (w : Who) (e : Ecc) (c : Context), e.bad = false →
     let r := s.dev.runOf i.val w c
     let W := s.dev.wordAt i.val c
     let src := bits W 50 43
     let ill : State := s.withDev (s.dev.illegalAt s.time i.val e c)
     let cmb : Prop := s.dev.Issues i.val w c 0x24
     let q : Prop := selAA src = false ∧ selQueue src = true ∧ (r.x.qd (src % 64)).mode = 3
     (s.dev.Issues i.val w c 0x21 → bits W 51 50 = 3 → exec (.tclr i w e) s = .next ill) ∧
     (s.dev.Issues i.val w c 0x25 → ¬ (bits W 47 43 ≤ 4 ∨ bits W 47 43 = 0xC) → exec (.aacvt i w e) s = .next ill) ∧
     (cmb → selAA src = false → ¬ (selQueue src = true ∧ (r.x.qd (src % 64)).mode = 3) → exec (.aacmb i w e) s = .next ill) ∧
     (∀ v r1, cmb → selAA src = true → r.readWord (bits W 42 37) (bits W 36 36) = (v, r1) → r1.owns (bits W 57 52) = false →
       c.pc < 1023 → exec (.aacmb i w e) s = .next (s.withDev ((s.dev.countEcc s.time i.val e).siteEnds s.time i.val w
         (r1.flag fOwnRefused).done))) ∧
     (∀ v l r1, cmb → q → r.takeToken (src % 64) {} = .ok v l r1 → r1.owns (bits W 57 52) = false →
       exec (.aacmb i w e) s = .next (s.withDev ((s.dev.countEcc s.time i.val e).siteEnds s.time i.val w (r1.flag fOwnRefused).done))) ∧
     (∀ code k, cmb → q → r.takeToken (src % 64) {} = .stop code k →
       exec (.aacmb i w e) s = .next (s.withDev ((s.dev.countEcc s.time i.val e).siteEnds s.time i.val w (.stop r code (some k))))))

/-- R60 to R63, R117 to R119, R127 to R129, R134, R157, R166, R167: `mma` runs its beats, as many as operands are there for, from a tile
cleared, or taken as zero, at its first beat; classes that do not pair set the sticky flag. `send` puts one token with the header of its
route entry on the local port; an invalid route sets the sticky flag and sends nothing. R134, R157: the token that `send` makes: the
header of its route entry in the site's epoch with the tag of its context (0 in setup code) plus the signed delta of the word; the
instruction completes. Operands of another kind are illegal; each waits where an operand or the port does, and an operand with an error
stops the site. States that these complete: MMA, SEND. -/
def Obligations.SiteCubeAndSendInstructions : Prop :=
  ((∀ (s : State) (i : SiteId) (w : Who) (e : Ecc) (c : Context), e.bad = false → s.dev.Issues i.val w c 0x20 → c.pc < 1023 →
     let r := s.dev.runOf i.val w c
     let W := s.dev.wordAt i.val c
     let sa := bits W 51 44
     let sb := bits W 43 36
     (r.x.srcOk sa = true ∨ selFwd sa = true) → (r.x.srcOk sb = true ∨ selFwd sb = true) →
     (cubeClass (bits W 35 31) (bits W 30 26) = none → exec (.mma i w e) s = .next (s.withDev ((s.dev.countEcc s.time i.val e).leaves i.val w (r.flag fCvNan) (c.pc + 1)))) ∧
     (∀ cl r2, cubeClass (bits W 35 31) (bits W 30 26) = some cl → ((selFwd sa = false ∧ selFwd sb = false) ∨ r.env.plane ≠ none) →
       SRun.mmaBeats W cl (bits W 25 16 + 1 - c.beats) r = .next r2 (r2.c.pc + 1) →
       r2.c.pc < 1023 →
       exec (.mma i w e) s = .next (s.withDev ((s.dev.countEcc s.time i.val e).writeBack s.time i.val w
         (let z := r2
          { z with c := { z.c with pc := z.c.pc + 1 } })))) ∧
     (∀ cl r2, cubeClass (bits W 35 31) (bits W 30 26) = some cl → ((selFwd sa = false ∧ selFwd sb = false) ∨ r.env.plane ≠ none) →
       SRun.mmaBeats W cl (bits W 25 16 + 1 - c.beats) r = .keep r2 →
       exec (.mma i w e) s = .next (s.withDev ((s.dev.countEcc s.time i.val e).writeBack s.time i.val w (r2.waitsAt w 0x20))))) ∧
   (∀ (s : State) (i : SiteId) (w : Who) (e : Ecc) (c : Context), e.bad = false → s.dev.Issues i.val w c 0x30 → c.pc < 1023 →
     let r := s.dev.runOf i.val w c
     let W := s.dev.wordAt i.val c
     let kind := bits W 57 54
     let src := bits W 53 46
     let rt := (mget 0 r.x.work (112 + bits W 45 40)).toNat
     let lanes (j : Nat) : Nat := (r.lane src (8 * bits W 5 5 + 2 * j)).toNat + (r.lane src (8 * bits W 5 5 + 2 * j + 1)).toNat * 2 ^ 32
     ((kind = 0 ∨ kind = 1 ∨ kind = 5) → (selReg src = true ∨ r.x.srcOk src = true) → (bit rt 23 = false ∨ bit rt 22 ≠ decide (kind = 1)) →
       exec (.send i w e) s = .next (s.withDev ((s.dev.countEcc s.time i.val e).leaves i.val w (r.flag fRouteOff) (c.pc + 1)))) ∧
     ((kind = 0 ∨ kind = 1 ∨ kind = 5) → selReg src = true → bit rt 23 = true → bit rt 22 = decide (kind = 1) → r.env.canSend = true →
       exec (.send i w e) s = .next (s.withDev
         ((s.dev.countEcc s.time i.val e).siteEnds s.time i.val w (r.emitTok W (payOf ((List.range 4).map lanes)))))) ∧
     (kind = 4 → bit rt 23 = true → bit rt 22 = false → r.env.canSend = true →
       exec (.send i w e) s = .next (s.withDev ((s.dev.countEcc s.time i.val e).siteEnds s.time i.val w (r.emitTok W 0)))) ∧
     (kind = 3 → selAA src = true → bit rt 23 = true → bit rt 22 = false → r.env.canSend = true →
       exec (.send i w e) s = .next (s.withDev ((s.dev.countEcc s.time i.val e).siteEnds s.time i.val w
         ((r.readWord (bits W 12 7) (bits W 6 6)).2.emitTok W (r.readWord (bits W 12 7) (bits W 6 6)).1)))) ∧
     (∀ v l r1, (kind = 0 ∨ kind = 1 ∨ kind = 5) → selReg src = false → r.x.srcOk src = true → bit rt 23 = true →
       bit rt 22 = decide (kind = 1) → r.env.canSend = true → r.beat 0 src {} = .ok v l r1 →
       exec (.send i w e) s = .next (s.withDev ((s.dev.countEcc s.time i.val e).siteEnds s.time i.val w (r1.emitTok W v)))) ∧
     ((kind = 0 ∨ kind = 1 ∨ kind = 5) → selReg src = true → bit rt 23 = true → bit rt 22 = decide (kind = 1) → r.env.canSend = false →
       exec (.send i w e) s = .next (s.withDev ((s.dev.countEcc s.time i.val e).writeBack s.time i.val w (r.waitsAt w 0x30)))))) ∧
  (∀ (r : SRun) (W : Nat) (pay : W256),
     ∃ f : Flit, r.emitTok W pay = .next { r with flits := r.flits ++ [(f, false)] } (r.c.pc + 1) ∧ f.payload = pay ∧
       ∃ low, f.hdr = routeHdr (mget 0 r.x.work (112 + bits W 45 40)) r.x.epoch.toNat
         (toTwos 20 (((if r.setup then 0 else r.c.tag.toNat : Nat) : Int) + ofTwos 8 (bits W 39 32))) (bits W 57 54) low) ∧
  (∀ (s : State) (i : SiteId) (w : Who) (e : Ecc) (c : Context), e.bad = false →
     let r := s.dev.runOf i.val w c
     let W := s.dev.wordAt i.val c
     let ill : State := s.withDev (s.dev.illegalAt s.time i.val e c)
     let ends (o : SOut) : State := s.withDev ((s.dev.countEcc s.time i.val e).siteEnds s.time i.val w o)
     let sa := bits W 51 44
     let sb := bits W 43 36
     let mma : Prop := s.dev.Issues i.val w c 0x20
     let sound : Prop := (r.x.srcOk sa = true ∨ selFwd sa = true) ∧ (r.x.srcOk sb = true ∨ selFwd sb = true)
     (mma → ¬ sound → exec (.mma i w e) s = .next ill) ∧
     (∀ cl, mma → sound → cubeClass (bits W 35 31) (bits W 30 26) = some cl → (selFwd sa = true ∨ selFwd sb = true) → r.env.plane = none →
       exec (.mma i w e) s = .next (ends (r.flag fCvNan).done)) ∧
     (∀ cl code q r1, mma → sound → cubeClass (bits W 35 31) (bits W 30 26) = some cl →
       ((selFwd sa = false ∧ selFwd sb = false) ∨ r.env.plane ≠ none) →
       SRun.mmaBeats W cl (bits W 25 16 + 1 - c.beats) r = .stop r1 code q → exec (.mma i w e) s = .next (ends (.stop r1 code q))) ∧
     let kind := bits W 57 54
     let src := bits W 53 46
     let rt := (mget 0 r.x.work (112 + bits W 45 40)).toNat
     let snd : Prop := s.dev.Issues i.val w c 0x30
     let good : Prop := kind = 4 ∨ kind = 3 ∧ selAA src = true ∨ (kind = 0 ∨ kind = 1 ∨ kind = 5) ∧ (selReg src = true ∨ r.x.srcOk src = true)
     let route : Prop := bit rt 23 = true ∧ bit rt 22 = decide (kind = 1)
     (snd → ¬ good → exec (.send i w e) s = .next ill) ∧
     (snd → good → ¬ route → exec (.send i w e) s = .next (ends (r.flag fRouteOff).done)) ∧
     (snd → good → route → r.env.canSend = false → exec (.send i w e) s =
       .next (s.withDev ((s.dev.countEcc s.time i.val e).writeBack s.time i.val w (r.waitsAt w 0x30)))) ∧
     (snd → good → route → r.env.canSend = true → kind ≠ 3 → kind ≠ 4 → selReg src = false → r.beat 0 src {} = .wait →
       exec (.send i w e) s = .next (s.withDev ((s.dev.countEcc s.time i.val e).writeBack s.time i.val w (r.waitsAt w 0x30)))) ∧
     (∀ code q, snd → good → route → r.env.canSend = true → kind ≠ 3 → kind ≠ 4 → selReg src = false → r.beat 0 src {} = .stop code q →
       exec (.send i w e) s = .next (ends (.stop r code (some q)))))

/-! ### Control operations and tokens of a site -/

/-- R94, R98, R160, Table 5-12: the writes of a site's stores. Each writes its words and no other part of the block; a data write with the
reserved count, or at an address that is no multiple of 8, is ignored (assumption 22). R103, R136, R145, R160, R182, R309: Begin epoch
sets the epoch and the forced mode, closes the contexts, empties the queues (what a forced one empties is counted as discarded), takes the
descriptors from the SRAM and starts setup code at address 0; Stop closes the contexts and stops the issue; the status word and the count
of discards go to perimeter control. States that these complete: WRITE_DATA_SRAM, WRITE_PROGRAM_STORE, WRITE_TRIGGER_ENTRY,
WRITE_TILE_METADATA, BEGIN_EPOCH, CONTROL_STOP, READ_STATUS. -/
def Obligations.SiteControlOperations : Prop :=
  ((∀ (s : State) (i : SiteId) (n : Fin 4) (a : W16) (d : List W64), n ≠ 3 → a.toNat % 8 = 0 →
     exec (.writeDataSram i n a d) s = .next (s.withDev
       (s.dev.setSite i.val ((s.dev.site i.val).wr a.toNat ((d.take (n.val + 1)).flatMap fun x => le 8 x.toNat))))) ∧
   (∀ (s : State) (i : SiteId) (n : Fin 4) (a : W16) (d : List W64), (n = 3 ∨ a.toNat % 8 ≠ 0) →
     exec (.writeDataSram i n a d) s = .next s) ∧
   (∀ (s : State) (i : SiteId) (a : BitVec 10) (l : List W64),
     (a.toNat % 4 = 0 → exec (.writeProgramStore i a l) s = .next (s.withDev
       (s.dev.setSite i.val { s.dev.site i.val with prog := mputs 0 (s.dev.site i.val).prog a.toNat (l.take 4) }))) ∧
     (a.toNat % 4 ≠ 0 → exec (.writeProgramStore i a l) s = .next s)) ∧
   (∀ (s : State) (i : SiteId) (k : Fin 32) (x : W64),
     ∃ t : State, exec (.writeTriggerEntry i k x) s = .next t ∧ t = s.withDev (s.dev.setSite i.val (t.dev.site i.val)) ∧
       (t.dev.site i.val).trig k.val = { (s.dev.site i.val).trig k.val with word := x } ∧
       (∀ j, j ≠ k.val → (t.dev.site i.val).trig j = (s.dev.site i.val).trig j) ∧
       t.dev.site i.val = { s.dev.site i.val with trigs := (t.dev.site i.val).trigs }) ∧
   (∀ (s : State) (i : SiteId) (k : Fin 64) (x : W16),
     ∃ t : State, exec (.writeTileMetadata i k x) s = .next t ∧ t = s.withDev (s.dev.setSite i.val (t.dev.site i.val)) ∧
       mget 0 (t.dev.site i.val).tmeta k.val = x ∧ (∀ j, j ≠ k.val → mget 0 (t.dev.site i.val).tmeta j = mget 0 (s.dev.site i.val).tmeta j) ∧
       t.dev.site i.val = { s.dev.site i.val with tmeta := (t.dev.site i.val).tmeta })) ∧
  ((∀ (s : State) (i : SiteId) (ep : BitVec 4) (f : Checked Bool),
     let x := s.dev.site i.val
     let y := x.begin_ ep f.val
     (f.ecc.bad = false → exec (.beginEpoch i ep f) s = .next (s.withDev ((s.dev.setSite i.val y).countEcc s.time i.val f.ecc))) ∧
     (f.ecc.bad = true →
       exec (.beginEpoch i ep f) s = .next (s.withDev ((s.dev.setSite i.val y).siteUncorrectable s.time i.val 0 0))) ∧
     y.epoch = ep ∧ y.forced = f.val ∧ y.ctxs = [] ∧ y.order = [] ∧ y.queues = [] ∧ y.setup = some {} ∧ y.armed = false ∧
     y.stopped = none ∧ y.controlStop = false ∧ y.units = [] ∧ y.prog = x.prog ∧ y.sram = x.sram ∧ y.tiles = x.tiles ∧
     y.tmeta = x.tmeta ∧ y.sregs = x.sregs ∧ y.vregs = x.vregs ∧ y.trigs = x.trigs ∧ y.sticky = x.sticky ∧
     (f.val = false → y.discard = x.discard) ∧ (f.val = true → y.discard = x.discard + x.occupied) ∧
     (∀ k, k < 176 → mget 0 y.work k = BitVec.ofNat 64 (x.rd (0xBA80 + 8 * k) 8))) ∧
   (∀ (s : State) (i : SiteId),
     ∃ t : State, exec (.controlStop i) s = .next t ∧ t = s.withDev (s.dev.setSite i.val (t.dev.site i.val)) ∧
       let x := s.dev.site i.val
       let y := t.dev.site i.val
       y.controlStop = true ∧ y.ctxs = [] ∧ y.order = [] ∧ y.setup = none ∧ y.armed = false ∧ y.prog = x.prog ∧ y.sram = x.sram ∧
       y.tiles = x.tiles ∧ y.sregs = x.sregs ∧ y.vregs = x.vregs ∧ y.epoch = x.epoch ∧ y.sticky = x.sticky) ∧
   (∀ (s : State) (i : SiteId),
     ∃ f : Flit, exec (.readStatus i) s =
         .next (s.withDev ((s.dev.fresh 36).2.putFlit (siteNode i.val) .loc .first { flit := f, src := siteNode i.val, answer := true })) ∧
       f.payload = payOf [(s.dev.site i.val).status.toNat, (s.dev.site i.val).discard]))

/-- R95, R97, R148: when no FIFO operand queue is out of sequence, the ready trigger with the lowest counter fires: a context opens at its
program address (at the empty one where an operand is an empty token) with its tag, and the counter grows by its step; no token is
consumed. A queue out of sequence stops the site with TAG_SEQUENCE, and where no trigger is ready nothing happens. States that these
complete: TRIGGER_FIRE. -/
def Obligations.TriggerFires : Prop :=
  (∀ (s : State) (i : SiteId) (k c : Nat),
    let x := s.dev.site i.val
    x.fifoBad = none → x.choice = some k → x.freeCtx = some c →
    ∃ t : State, exec (.triggerFire i) s = .next t ∧ t = s.withDev (s.dev.setSite i.val (t.dev.site i.val)) ∧
      let y := t.dev.site i.val
      x.ready k = true ∧
      (∀ j, j < 32 → x.ready j = true → (x.trig k).counter.toNat < (x.trig j).counter.toNat ∨ (x.trig k).counter = (x.trig j).counter ∧ k ≤ j) ∧
      (∃ v, mget none y.ctxs c = some v ∧ v.trig = k ∧ v.tag = (x.trig k).counter ∧
        v.pc = if (x.trigD k).opq.any (fun q => x.firstPresent q (x.trig k).counter = some true) then (x.trigD k).epc
               else (x.trigD k).pc) ∧
      y.order = x.order ++ [c] ∧ (y.trig k).counter = (x.trig k).counter + BitVec.ofNat 20 (x.trigD k).step ∧
      (∀ j, j ≠ k → y.trig j = x.trig j) ∧ y = { x with ctxs := y.ctxs, order := y.order, trigs := y.trigs }) ∧
  (∀ (s : State) (i : SiteId), let x := s.dev.site i.val
    (∀ f, x.fifoBad = some f → x.stopped = none → exec (.triggerFire i) s = .next (s.withDev (s.dev.tagStop s.time i.val (some f)))) ∧
    (x.fifoBad = none → (x.choice = none ∨ x.freeCtx = none) → exec (.triggerFire i) s = .next s) ∧
    (x.stopped.isSome = true → x.choice = none → exec (.triggerFire i) s = .next s))

/-- R115, R139 to R142, R149, R154, R182: a flit at the head of an input buffer of a site's router, for the site and of its kind, is
accepted by the rule of its kind, waits, or stops the site; a site stopped by a Stop discards it, a site that an error stopped leaves it,
and one of another epoch waits after the drained report, is discarded in forced mode, and else stops the site with EPOCH_MISMATCH; where
none has arrived nothing happens. States that these complete: TOKEN_EJECT, REDUCE_AA_EJECT, EMPTY_TOKEN_EJECT, DRAIN_MARKER_EJECT. R139, R140, R141: what a token's
acceptance puts into a queue. A data token of a slotted queue fills the entry of its tag and sequence; a reduce-AA token of a
combine queue is stored, or combined into the word of its tag and sequence with its contributions added, up to `EXPECT`; an empty
token of a slotted queue fills its slot, one of a FIFO its next entry, and one of a combine queue counts for every entry of its slot.
What finds no room waits; what the queue cannot take stops the site with the code of the error. -/
def Obligations.TokensReachSites : Prop :=
  (∀ (s : State) (i : SiteId) (p : Port) (c : Cls) (tr : Transit),
     let x := s.dev.site i.val
     let f := tr.flit
     s.dev.arrived (siteNode i.val) p c = some tr →
     ((f.kind = 0 ∨ f.kind = 1 ∨ f.kind = 5 ∨ 8 ≤ f.kind) → x.gate f = .pass →
       exec (.tokenEject i p c) s = .next (s.withDev (s.dev.acceptTok s.time i.val p c tr (x.acceptData f tr.bad tr.agent)))) ∧
     (f.kind = 3 → x.gate f = .pass →
       ∀ e : Ecc,
         (x.readsAA f = false →
           exec (.reduceAaEject i p ⟨c, e⟩) s = .next (s.withDev (s.dev.acceptTok s.time i.val p c tr (x.acceptAA f tr.bad)))) ∧
         (x.readsAA f = true → e.bad = false →
           exec (.reduceAaEject i p ⟨c, e⟩) s =
             .next (s.withDev ((s.dev.countEcc s.time i.val e).acceptTok s.time i.val p c tr (x.acceptAA f tr.bad)))) ∧
         (x.readsAA f = true → e.bad = true →
           exec (.reduceAaEject i p ⟨c, e⟩) s = .next (s.withDev (s.dev.siteUncorrectable s.time i.val f.tag f.queue)))) ∧
     (f.kind = 4 → x.gate f = .pass →
       exec (.emptyTokenEject i p c) s = .next (s.withDev (s.dev.acceptTok s.time i.val p c tr (x.acceptEmpty f)))) ∧
     (f.kind = 6 → x.gate f = .pass →
       exec (.drainMarkerEject i p c) s = .next (s.withDev ((s.dev.takeFlit (siteNode i.val) p c).setSite i.val
         (x.setQ f.queue { x.q f.queue with drained := true })))) ∧
     s.Gated i p c f (.tokenEject i p c) (f.kind = 0 ∨ f.kind = 1 ∨ f.kind = 5 ∨ 8 ≤ f.kind) ∧
     (∀ e, s.Gated i p c f (.reduceAaEject i p ⟨c, e⟩) (f.kind = 3)) ∧ s.Gated i p c f (.emptyTokenEject i p c) (f.kind = 4) ∧
     s.Gated i p c f (.drainMarkerEject i p c) (f.kind = 6)) ∧
  (∀ (s : State) (i : SiteId) (p : Port) (c : Cls) (e : Ecc), s.dev.arrived (siteNode i.val) p c = none →
     exec (.tokenEject i p c) s = .next s ∧ exec (.reduceAaEject i p ⟨c, e⟩) s = .next s ∧ exec (.emptyTokenEject i p c) s = .next s ∧
     exec (.drainMarkerEject i p c) s = .next s) ∧
  ((∀ (x : Site) (f : Flit) (bad : Bool),
     let tag : BitVec 20 := BitVec.ofNat 20 f.tag
     let dsc := x.qd f.queue
     let k := dsc.slot f.tag
     let j := k + f.seq % dsc.per
     let v := x.q f.queue
     let i := (v.head + v.len) % dsc.per
     let new : Entry := { kind := BitVec.ofNat 4 f.kind, tag := tag, seq := f.seq, bad := bad }
     ((f.kind = 0 ∨ f.kind = 1 ∨ f.kind = 5) → dsc.mode = 2 → x.late f.queue tag = false →
       (x.ent f.queue k = none → x.ent f.queue j = none →
         ∃ y, x.acceptData f bad = .ok y {} ∧ y.ent f.queue j = some new ∧ (∀ q, q ≠ f.queue → y.q q = x.q q)) ∧
       (∀ a e, x.ent f.queue k = some a → a.kind ≠ 4 → x.ent f.queue j = some e → x.acceptData f bad = .wait)) ∧
     ((f.kind = 0 ∨ f.kind = 1 ∨ f.kind = 5) → dsc.mode = 1 → x.late f.queue tag = false →
       (v.len < dsc.per → x.ent f.queue i = none →
         ∃ y, x.acceptData f bad = .ok y {} ∧ y.ent f.queue i = some new ∧ (y.q f.queue).len = v.len + 1 ∧
           (∀ q, q ≠ f.queue → y.q q = x.q q)) ∧
       (dsc.per ≤ v.len → x.acceptData f bad = .wait)) ∧
     (8 ≤ f.kind → x.acceptData f bad = .stop 0x200A) ∧ (f.kind < 8 → dsc.mode = 0 → x.acceptData f bad = .stop 0x200C) ∧
     (f.kind < 8 → dsc.mode = 3 → x.acceptData f bad = .stop 0x200A) ∧
     (f.kind < 8 → (dsc.mode = 1 ∨ dsc.mode = 2) → x.late f.queue tag = true → x.acceptData f bad = .stop 0x2008)) ∧
   (∀ (x : Site) (f : Flit) (bad : Bool),
     let tag : BitVec 20 := BitVec.ofNat 20 f.tag
     let dsc := x.qd f.queue
     let j := dsc.slot f.tag + f.aaSeq % dsc.per
     (dsc.mode = 3 → f.contrib ≠ 0 → x.late f.queue tag = false → x.ent f.queue j = none → f.contrib ≤ dsc.expect →
       ∃ y, x.acceptAA f bad = .ok y {} ∧
         y.ent f.queue j = some { kind := 3, tag := tag, seq := f.aaSeq, count := f.contrib, bad := bad }) ∧
     (∀ e, dsc.mode = 3 → f.contrib ≠ 0 → x.late f.queue tag = false → x.ent f.queue j = some e →
       (e.tag ≠ tag ∨ e.seq ≠ f.aaSeq ∨ complete dsc e = true) → x.acceptAA f bad = .wait) ∧
     (dsc.mode = 0 → x.acceptAA f bad = .stop 0x200C) ∧ ((dsc.mode = 1 ∨ dsc.mode = 2) → x.acceptAA f bad = .stop 0x200A) ∧
     (dsc.mode = 3 → f.contrib = 0 → x.acceptAA f bad = .stop 0x2009)) ∧
   (∀ (x : Site) (f : Flit) (bad : Bool) (e : Entry),
     let tag : BitVec 20 := BitVec.ofNat 20 f.tag
     let j := (x.qd f.queue).slot f.tag + f.aaSeq % (x.qd f.queue).per
     (x.qd f.queue).mode = 3 → f.contrib ≠ 0 → x.late f.queue tag = false → x.ent f.queue j = some e → e.tag = tag → e.seq = f.aaSeq →
     complete (x.qd f.queue) e = false → e.count + f.contrib ≤ (x.qd f.queue).expect →
     ∃ y, x.acceptAA f bad = .ok y (aaCombine (x.payload f.queue j) f.payload).2 ∧
       y.ent f.queue j = some { kind := 3, tag := tag, seq := f.aaSeq, count := e.count + f.contrib, bad := e.bad || bad }) ∧
   (∀ (x : Site) (f : Flit) (bad : Bool) (e : Entry),
     let tag : BitVec 20 := BitVec.ofNat 20 f.tag
     let j := (x.qd f.queue).slot f.tag + f.aaSeq % (x.qd f.queue).per
     (x.qd f.queue).mode = 3 → f.contrib ≠ 0 → x.late f.queue tag = false → x.ent f.queue j = some e → e.tag = tag → e.seq = f.aaSeq →
     complete (x.qd f.queue) e = false → (x.qd f.queue).expect < e.count + f.contrib → x.acceptAA f bad = .stop 0x2009) ∧
   (∀ (x : Site) (f : Flit),
     let tag : BitVec 20 := BitVec.ofNat 20 f.tag
     let dsc := x.qd f.queue
     let k := dsc.slot f.tag
     let v := x.q f.queue
     let i := (v.head + v.len) % dsc.per
     (dsc.mode = 2 → x.late f.queue tag = false →
       (x.ent f.queue k = none → ∃ y, x.acceptEmpty f = .ok y {} ∧ y.ent f.queue k = some { kind := 4, tag := tag }) ∧
       ((x.ent f.queue k).isSome = true → x.acceptEmpty f = .wait)) ∧
     (dsc.mode = 1 → x.late f.queue tag = false →
       (v.len < dsc.per → x.ent f.queue i = none →
         ∃ y, x.acceptEmpty f = .ok y {} ∧ y.ent f.queue i = some { kind := 4, tag := tag } ∧ (y.q f.queue).len = v.len + 1) ∧
       (dsc.per ≤ v.len → x.acceptEmpty f = .wait)) ∧
     (dsc.mode = 3 → x.late f.queue tag = false → 1 ≤ dsc.expect → (∀ j, j < dsc.per → x.ent f.queue (k + j) = none) →
       ∃ y, x.acceptEmpty f = .ok y {} ∧
         ∀ j, j < dsc.per → y.ent f.queue (k + j) = some { kind := 4, tag := tag, seq := j, count := 1 }) ∧
     (dsc.mode = 0 → x.acceptEmpty f = .stop 0x200C)) ∧
   (∀ (d : Dev) (t : TimeBase) (i : Nat) (p : Port) (c : Cls) (tr : Transit) (code : Nat),
     d.acceptTok t i p c tr (.stop code) = d.siteFault t i code tr.flit.tag tr.flit.queue))

/-- R110, R126, R145, R309: a site with nothing left reports drained to perimeter control and sends a drain marker by each of its drain
routes while its job drains, and reports nothing otherwise; a site with no context, no setup code and no ready trigger is gated, any other
is not; the scrub goes on to the next of the 7,680 words, counts what it corrects and stops the site at a word it cannot correct; a
scrub that is overdue is marked so. States that these complete: SITE_DRAINED, SITE_GATE, SCRUB_WORD, SCRUB_OVERDUE. -/
def Obligations.SiteDrainGateScrub : Prop :=
  (∀ (s : State) (i : SiteId) (j : Nat), s.dev.jobOfSite i.val = some j → (s.dev.site i.val).canDrain = true →
    (s.dev.job j).drainAt.isSome = true →
    let x := s.dev.site i.val
    let d := s.dev.setSite i.val { x with drainedReported := true }
    exec (.siteDrained i) s = .next (s.withDev
      ((List.range 64).foldl (fun (d : Dev) k =>
        let e := mget 0 x.work (112 + k)
        if bit e.toNat 23 ∧ bit e.toNat 24 then
          d.inject (siteNode i.val) { hdr := routeHdr e x.epoch.toNat 0 6 0, payload := 0 }
        else d)
        (d.setJob j { d.job j with
          drained := insNat (d.job j).drained i.val, drainLeft := (d.job j).drainLeft + x.occupied })))) ∧
  (∀ (s : State) (i : SiteId),
    ((∀ j, s.dev.jobOfSite i.val = some j → (s.dev.job j).drainAt = none) ∨ (s.dev.site i.val).canDrain = false) →
    exec (.siteDrained i) s = .next s) ∧
  (∀ (s : State) (i : SiteId), let x := s.dev.site i.val
    (x.order = [] → x.setup = none → (∀ k, k < 32 → x.ready k = false) →
      exec (.siteGate i) s = .next (s.withDev (s.dev.setSite i.val { x with gated := true }))) ∧
    ((x.order ≠ [] ∨ x.setup.isSome = true ∨ ∃ k, k < 32 ∧ x.ready k = true) → exec (.siteGate i) s = .next s)) ∧
  (∀ (s : State) (i : SiteId) (e : Ecc),
    let x := s.dev.site i.val
    let d := s.dev.setSite i.val { x with scrub := (x.scrub + 1) % 7680, scrubOverdue := false }
    (e.bad = false → exec (.scrubWord i e) s = .next (s.withDev (d.countEcc s.time i.val e))) ∧
    (e.bad = true → exec (.scrubWord i e) s = .next (s.withDev (d.siteUncorrectable s.time i.val 0xFFFFFFFF x.scrub)))) ∧
  (∀ (s : State) (i : SiteId),
    exec (.scrubOverdue i) s = .next (s.withDev (s.dev.setSite i.val { s.dev.site i.val with scrubOverdue := true })))

/-! ### Networks -/

/-- R176, R183, R184: the flit at the head of an input buffer makes its hop when the next buffer has a credit and no earlier flit of its flow
holds it back, else it stays; an empty buffer changes nothing. A flit whose header is uncorrectable is discarded and reported; one whose
payload is stays marked and goes on. A flit that no hop leads on stays where it is, but for a status token at perimeter control's stop,
which goes on to the nearer trust die (assumption 119, a choice of the model), and a record at a die of the I/O ring. R176: a hop that
combines nothing takes the flit from its buffer and puts it where the hop leads, and nothing else moves. R184: at a site's or a reef's
router the reduce-AA flits that combine leave their buffers as one; of two, the payload is their AA combination, `CONTRIB` their sum, the
rest of the header that of both. States that FLIT_HOP completes. States that these complete: FLIT_HOP. -/
def Obligations.FlitHops : Prop :=
  (∀ (s : State) (n : Node) (p : Port) (c : Cls) (e : FlitEcc), s.dev.head n p c = none → exec (.flitHop n p c e) s = .next s) ∧
  (∀ (s : State) (n : Node) (p : Port) (c : Cls) (x : Transit), s.dev.head n p c = some x →
     exec (.flitHop n p c .header) s = .next (s.withDev ((s.dev.takeFlit n p c).flitUncorrectable s.time n)) ∧
     (∀ e : FlitEcc, e ≠ .header →
       let y := x.checked e
       let d := s.dev.checkedAt n p c x e
       (∀ h, d.nextHop n y c = some h → d.hopReady h = true → d.heldBack n p c y h = false →
         exec (.flitHop n p c e) s = .next (s.withDev (d.doHop s.time n p c y h))) ∧
       (∀ h, d.nextHop n y c = some h → (d.hopReady h = false ∨ d.heldBack n p c y h = true) →
         exec (.flitHop n p c e) s = .next (s.withDev d)) ∧
       (d.nextHop n y c = none → exec (.flitHop n p c e) s = .next (s.withDev (d.passOn n p c y))))) ∧
  (∀ (d : Dev) (n : Node) (p : Port) (c : Cls) (x : Transit),
     ((∀ i, n ≠ .stop i 8) → (∀ k, n ≠ .ring k) → d.passOn n p c x = d) ∧
     (∀ i, n = .stop i 8 → (x.answer = false ∨ x.dst ≠ .header ∨ d.canInject n x.flit.kind = false) → d.passOn n p c x = d) ∧
     (∀ i, n = .stop i 8 → x.answer = true → x.dst = .header → d.canInject n x.flit.kind = true →
       d.passOn n p c x = (d.takeFlit n p c).putFlit n .loc (clsOf x.flit.kind)
         { x with dst := .die (Fin.ofNat 8 (nearTrust i.val)), express := false }) ∧
     (∀ k, n = .ring k → x.cargo = none → d.passOn n p c x = d)) ∧
  (∀ (d : Dev) (t : TimeBase) (n : Node) (p : Port) (c : Cls) (x : Transit) (h : Hop), x.flit.kind ≠ 3 →
     d.doHop t n p c x h = (d.takeFlit n p c).hopTo h x ∧ (d.takeFlit n p c).sites = d.sites ∧ (d.takeFlit n p c).lagoons = d.lagoons ∧
       (∀ k, k ≠ bufKey n p c → (d.takeFlit n p c).buf k = d.buf k) ∧ (d.takeFlit n p c).buf (bufKey n p c) = (d.buf (bufKey n p c)).tail) ∧
  (∀ (d : Dev) (t : TimeBase) (n : Node) (p : Port) (c : Cls) (x : Transit) (h : Hop), x.flit.kind = 3 →
     ((∃ k, n = .site k) ∨ (∃ k, n = .reef k)) → 2 ≤ (d.combineSet n h x).length →
     ((d.combineSet n h x).any fun e => decide (e.1 = p ∧ e.2.1 = c)) = true →
     let z := combineFlits ((d.combineSet n h x).map (·.2.2)) x
     d.doHop t n p c x h = ((((d.combineSet n h x).foldl (fun d e => d.takeFlit n e.1 e.2.1) d).hopTo h z.1).aaReport t
       ((nodeReef n).bind d.jobAt) (nodeDie n) (nodeUnit n) (nodeWh n) x.flit.tag z.2)) ∧
  (∀ x y : Transit, x.flit.contrib + y.flit.contrib ≤ 1023 →
     let z := (combineFlits [x, y] x).1
     z.flit.payload = (aaCombine x.flit.payload y.flit.payload).1 ∧ z.flit.contrib = x.flit.contrib + y.flit.contrib ∧
       z.flit.h 63 14 = x.flit.h 63 14 ∧ z.flit.aaSeq = x.flit.aaSeq ∧ z.bad = (x.bad || y.bad))

/-- R27, R28, R589: the first failed segment of the I/O ring is recorded in 0x2D00:05 and logged; then no route of the ring crosses it. A
second splits the ring and the device enters FAULT; one that has failed already changes nothing. R28: the first arrived flit of a trust
die, in the order of its ports, is consumed by both dies, 8 trust-clock cycles later at the nearer one; the control cores keep the
status that a site returned (assumption 119, a choice of the model); where none has arrived nothing happens. States that these complete:
RING_SEGMENT_FAILURE, TRUST_FLIT_ARRIVAL. -/
def Obligations.RingEvents : Prop :=
  (∀ (s : State) (k : Fin 8), s.dev.ring.failed = [] →
    exec (.ringSegmentFailure k) s = .next (s.withDev ((s.dev.segmentFails k.val).logErr s.time 0x8006 (wh := k.val)))) ∧
  (∀ (s : State) (k : Fin 8), s.dev.ring.failed ≠ [] → k.val ∉ s.dev.ring.failed →
    exec (.ringSegmentFailure k) s = .next (s.withDev ((s.dev.segmentFails k.val).enterFault s.time 0x8007))) ∧
  (∀ (s : State) (k : Fin 8), k.val ∈ s.dev.ring.failed → exec (.ringSegmentFailure k) s = .next s) ∧
  (∀ (d : Dev) (k : Nat), k ∉ d.ring.failed →
    (d.segmentFails k).ring = { d.ring with failed := insNat d.ring.failed k } ∧
    (d.segmentFails k).ctrN 0x2D00 5 = d.ctrN 0x2D00 5 + 2 ^ k ∧ (d.segmentFails k).log = d.log) ∧
  (∀ (d : Dev) (k a b : Fin 8), d.ring.failed = [k.val] →
    let n := (b.val + 8 - a.val) % 8
    (d.ringCw a.val b.val = true → ∀ i, i < n → (a.val + i) % 8 ≠ k.val) ∧
    (d.ringCw a.val b.val = false → ∀ i, i < 8 - n → (a.val + 7 - i) % 8 ≠ k.val)) ∧
  (∀ (s : State) (die : Fin 2) (p : Port) (c : Cls) (x : Transit),
    let n := ringNode (if die = 0 then 3 else 7)
    trustPorts.find? (fun (p, c) => (s.dev.arrived n p c).isSome) = some (p, c) → s.dev.arrived n p c = some x →
    exec (.trustFlitArrival die) s = .next (s.withDev { s.dev.takeFlit n p c with ring := s.dev.ring.consume x })) ∧
  (∀ (s : State) (die : Fin 2), (∀ q ∈ trustPorts, s.dev.arrived (ringNode (if die = 0 then 3 else 7)) q.1 q.2 = none) →
    exec (.trustFlitArrival die) s = .next s) ∧
  (∀ (r : RingState) (x : Transit),
    (r.consume x).consumed = r.consumed ++ [x.flit] ∧ (r.consume x).consumed1 = r.consumed1 ++ [x.flit] ∧ (r.consume x).lastDelay = 8 ∧
    (∀ k, x.src = .site k → x.answer = true → mget 0 (r.consume x).status k.val = x.flit.payload) ∧
    (x.answer = false → (r.consume x).status = r.status) ∧ (r.consume x).failed = r.failed)

/-! ### Lagoons and multicast -/

/-- R154, R182, R183, R186 to R194, R583: tokens for a lagoon. Each row takes the flits of its own kind and channel mode; a stopped job's
is discarded and counted, one of another epoch discarded in a forced reconfiguration and else an error, as one with a damaged payload.
A write window merges the words that `WMASK` names into the entry of tag and sequence; a read window sends `COUNT` entries by the
channel's route, in order; a spill ring keeps tokens with their headers, oldest returned first, takes none while it is full, and a
region that becomes full is logged once per epoch. A channel that is off, a reserved queue and a token of a kind that a window does not
take end in 0x200A; an uncorrectable word in 0x8005. The zeroing of a region ends; the scrub goes on to the next entry. R314: a token
that waited 2 µs at a slotted queue with spilling, whose trigger lacks another operand, starts the spill, else it waits on; a pass of
the refill asks the ring for the next token when one is due and none is on its way. States that these complete: CHANNEL_WRITE_WINDOW,
CHANNEL_READ_WINDOW, SPILL_STORE, SPILL_RETURN, LAGOON_ZERO_END, LAGOON_SCRUB, QUEUE_SPILL_START, REFILL_PASS. -/
def Obligations.LagoonChannelsAndSpills : Prop :=
  ((∀ (s : State) (r : ReefId) (p : Port) (c : Cls) (e : Ecc), ∀ i ∈ lagRows r p c e, s.LagGated r p c i) ∧
   (∀ (s : State) (r : ReefId) (p : Port) (c : Cls) (f : Flit), s.dev.AtLagoon r.val p c f → f.kind ≠ 1 →
     let d := s.dev.takeFlit (reefNode r.val) p c
     let ch := (s.dev.lag r.val).chanD f.queue
     let k := ch.entry f.tag f.seq
     (f.kind = 0 → f.queue < 32 → ch.mode = 1 →
       exec (.channelWriteWindow r p c) s = .next (s.withDev (d.setLag r.val
         ((d.lag r.val).putEntry k (mergeWords f.hi4 (mget 0 (s.dev.lag r.val).mem k) f.payload))))) ∧
     (f.queue < 62 → (32 ≤ f.queue ∨ ch.mode = 0 ∨ (ch.mode = 1 ∧ f.kind ≠ 0)) →
       exec (.channelWriteWindow r p c) s = .next (s.withDev (d.lagError s.time r.val 0x200A f.queue))) ∧
     (f.queue < 32 → ch.mode = 2 → f.kind ≠ 0 → ∀ e,
       exec (.channelReadWindow r p c e) s = .next (s.withDev (d.lagError s.time r.val 0x200A f.queue)))) ∧
   (∀ (s : State) (r : ReefId) (p : Port) (c : Cls) (e : Ecc) (f : Flit), s.dev.AtLagoon r.val p c f → f.kind = 0 → f.queue < 32 →
     ((s.dev.lag r.val).chanD f.queue).mode = 2 →
     let l := s.dev.lag r.val
     let q := payWord f.payload 0
     let d := s.dev.takeFlit (reefNode r.val) p c
     (e.bad = false → exec (.channelReadWindow r p c e) s = .next (s.withDev
       ((List.range (bits q 20 11 + 1)).foldl (fun (d : Dev) i =>
         d.inject (reefNode r.val) { hdr := routeHdr (l.chan f.queue).w1 l.epoch.toNat f.tag 0 (dataLow 15 i),
                                     payload := mget 0 l.mem ((l.chanD f.queue).entry f.tag (bits q 10 0 + i)) })
         (d.lagEcc s.time r.val e).2))) ∧
     (e.bad = true → exec (.channelReadWindow r p c e) s = .next (s.withDev (d.lagError s.time r.val 0x8005 0xFFFFFFFF)))) ∧
   (∀ (d : Dev) (t : TimeBase) (r : Nat) (e : Ecc),
     (e.bad = true → d.lagEcc t r e = (false, d.lagError t r 0x8005 0xFFFFFFFF)) ∧ d.lagEcc t r .clean = (true, d) ∧
     (e.bad = false → (d.lagEcc t r e).1 = true ∧ ((d.lagEcc t r e).2.lag r).mem = (d.lag r).mem ∧
       ((d.lagEcc t r e).2.lag r).corrected = (d.lag r).corrected + (e.one + e.two))) ∧
   (∀ (s : State) (r : ReefId) (p : Port) (c : Cls) (f : Flit), s.dev.AtLagoon r.val p c f → f.kind ≠ 1 → f.queue < 32 →
     ((s.dev.lag r.val).chanD f.queue).mode = 3 → f.asksSpill = false →
     let ch := (s.dev.lag r.val).chanD f.queue
     let n := ((s.dev.lag r.val).chan f.queue).held
     let cap := spillCap ((s.dev.lag r.val).chan f.queue).w0.toNat
     let d := s.dev.takeFlit (reefNode r.val) p c
     let d1 := d.setLag r.val ((d.lag r.val).spillPut f.queue f)
     (n + 1 < cap → exec (.spillStore r p c) s = .next (s.withDev d1)) ∧
     (n + 1 = cap → exec (.spillStore r p c) s = .next (s.withDev (d1.spillFull s.time r.val ch))) ∧
     (cap ≤ n → exec (.spillStore r p c) s = .next (s.withDev (s.dev.spillFull s.time r.val ch)))) ∧
   (∀ (d : Dev) (t : TimeBase) (r g : Nat) (ch : Chan), (d.lag r).regionAt 4 ch.base 1 = some g →
     (g ∈ (d.lag r).spillFull → d.spillFull t r ch = d) ∧
     (g ∉ (d.lag r).spillFull → d.spillFull t r ch =
       (d.setLag r { d.lag r with spillFull := insNat (d.lag r).spillFull g }).logErr t 0x200D (job := (d.jobAt r).getD 0x1FF)
         (die := r / 36) (unit := 1) (wh := r % 36) (detail := g))) ∧
   (∀ (l : Lagoon) (k : Nat) (f : Flit), l.chanInBank k = true → (l.chan k).held < spillCap (l.chan k).w0.toNat →
     (l.spillPut k f).spillNth k (l.chan k).held = f ∧
       (∀ i, i < (l.chan k).held → (l.spillPut k f).spillNth k i = l.spillNth k i) ∧
       (∀ i, i + 1 < (l.chan k).held → (l.spillDrop k).spillNth k i = l.spillNth k (i + 1))) ∧
   (∀ (s : State) (r : ReefId) (p : Port) (c : Cls) (f : Flit), s.dev.AtLagoon r.val p c f → f.queue < 32 →
     ((s.dev.lag r.val).chanD f.queue).mode = 3 → f.asksSpill = true →
     let l := s.dev.lag r.val
     let d := s.dev.takeFlit (reefNode r.val) p c
     let g := l.spillNth f.queue 0
     ((l.chan f.queue).held = 0 → ∀ e, exec (.spillReturn r p ⟨c, e⟩) s = .next (s.withDev d)) ∧
     (0 < (l.chan f.queue).held →
       exec (.spillReturn r p ⟨c, .clean⟩) s = .next (s.withDev ((d.setLag r.val ((d.lag r.val).spillDrop f.queue)).putFlit
         (reefNode r.val) .loc (clsOf g.kind)
         { flit := { hdr := routeHdr (l.chan f.queue).w1 g.epoch g.tag g.kind (g.h 13 0), payload := g.payload },
           src := reefNode r.val, refill := true })) ∧
       ∀ e : Ecc, e.bad = true →
         exec (.spillReturn r p ⟨c, e⟩) s = .next (s.withDev (d.lagError s.time r.val 0x8005 0xFFFFFFFF)))) ∧
   (∀ (s : State) (r : ReefId) (g : Fin 16), exec (.lagoonZeroEnd r g) s = .next (s.withDev (s.dev.setLag r.val { s.dev.lag r.val with
     zeroing := (s.dev.lag r.val).zeroing.filter fun x => decide (x ≠ g.val) }))) ∧
   (∀ (s : State) (r : ReefId) (e : Ecc), exec (.lagoonScrub r e) s = .next (s.withDev ((s.dev.setLag r.val { s.dev.lag r.val with
     scrub := ((s.dev.lag r.val).scrub + 1) % 131072 }).lagEcc s.time r.val e).2))) ∧
  ((∀ (s : State) (i : SiteId) (p : Port) (c : Cls), s.dev.arrived (siteNode i.val) p c = none →
     exec (.queueSpillStart i p c) s = .next s) ∧
   (∀ (s : State) (i : SiteId) (p : Port) (c : Cls) (tr : Transit),
     let x := s.dev.site i.val
     let q := tr.flit.queue
     let due := (x.qd q).mode = 2 ∧ (x.qd q).spill = true ∧ (x.q q).spilling = false ∧ x.starved q = true ∧
       ∃ e : Nat, (x.q q).blockedSince = some e ∧ e + 2000 ≤ s.time.ns
     let mine := tr.flit.kind ≠ 2 ∧ tr.flit.kind ≠ 6 ∧ tr.flit.kind ≠ 7
     s.dev.arrived (siteNode i.val) p c = some tr →
     (mine → x.gate tr.flit = .pass → due → exec (.queueSpillStart i p c) s = .next (s.withDev
       (((s.dev.jobOfSite i.val).elim s.dev fun j => s.dev.drainSpills j 0x2003).spillToken s.time i.val p c tr))) ∧
     (mine → x.gate tr.flit = .pass → ¬ due → exec (.queueSpillStart i p c) s = .next s) ∧
     s.Gated i p c tr.flit (.queueSpillStart i p c) mine) ∧
   (∀ (d : Dev) (t : TimeBase) (i r ch : Nat) (p : Port) (c : Cls) (tr : Transit),
     let q := tr.flit.queue
     d.spillChan i q = some (r, ch) → tr.flit.asksSpill = false → ¬ (tr.flit.kind = 1 ∧ tr.flit.hi4 = 0) → tr.refill = false →
     (((d.site i).q q).out < spillCap ((d.lag r).chan ch).w0.toNat → d.canInject (siteNode i) 0 = true →
       ∃ d1 : Dev, d.spillToken t i p c tr = d1.inject (siteNode i)
           { hdr := mkHdr (r / 36) 0x60 (r % 36) ch tr.flit.epoch tr.flit.tag tr.flit.kind (tr.flit.h 13 0), payload := tr.flit.payload }
           tr.bad ∧
         ((d1.site i).q q).spilling = true ∧ ((d1.site i).q q).out = ((d.site i).q q).out + 1 ∧
         ((d1.site i).q q).entries = ((d.site i).q q).entries) ∧
     ((spillCap ((d.lag r).chan ch).w0.toNat ≤ ((d.site i).q q).out ∨ d.canInject (siteNode i) 0 = false) →
       d.spillToken t i p c tr = d)) ∧
   (∀ (s : State) (i : SiteId) (q : Fin 64),
     let x := s.dev.site i.val
     let v := x.q q.val
     let n := if v.refill = 0 ∧ v.refillDue = true then v.out else v.refill
     (∀ r ch, s.dev.spillChan i.val q.val = some (r, ch) → v.spilling = true → v.refillOut = false → 0 < n →
       s.dev.canInject (siteNode i.val) 0 = true →
       exec (.refillPass i q) s = .next (s.withDev ((s.dev.setSite i.val (x.setQ q.val { v with
           refill := n - 1, refillOut := true, refillDue := if v.refill = 0 then false else v.refillDue })).inject (siteNode i.val)
         { hdr := mkHdr (r / 36) 0x60 (r % 36) ch x.epoch.toNat 0 0 (dataLow 0 0), payload := 0 }))) ∧
     ((s.dev.spillChan i.val q.val = none ∨ v.spilling = false ∨ v.refillOut = true ∨ n = 0 ∨
         s.dev.canInject (siteNode i.val) 0 = false) → exec (.refillPass i q) s = .next s)))

/-- R181, R211 to R213: multicast. The agent queues up to 16 flits, a full queue takes none; it asks its targets one by one, counts the
grants of the target it waits for, gives up after more than 50 µs with a release to every target asked, and tries again 1 µs later; a
grant of another target, or of another attempt's flit, is taken and changes nothing. When every target has granted, the copies
leave in the order of the targets. A target keeps at most four reservations, marks the entry when it is free, answers, and forgets a
released one; a fifth request waits; a request for a combine queue and a `CTYPE` that is none stop the site with 0x200A, one for an
unused queue with 0x200C. States that these complete: MULTICAST_ACCEPT, MC_GRANT, MULTICAST_TIMEOUT, MULTICAST_RETRY, MC_RESERVE,
MC_RESERVATION_GRANT, MC_RELEASE. -/
def Obligations.MulticastProtocol : Prop :=
  (∀ (s : State) (r : ReefId) (p : Port) (c : Cls) (f : Flit), s.dev.AtLagoon r.val p c f → f.kind = 1 →
    let d := s.dev.takeFlit (reefNode r.val) p c
    ((s.dev.lag r.val).mcq.length < 16 → exec (.multicastAccept r p c) s = .next (s.withDev
      ((d.setLag r.val { d.lag r.val with mcq := (s.dev.lag r.val).mcq ++ [f] }).mcGo s.time r.val 3))) ∧
    (16 ≤ (s.dev.lag r.val).mcq.length → exec (.multicastAccept r p c) s = .next s)) ∧
  (∀ (s : State) (r : ReefId) (p : Port) (f : Flit) (tr : Transit), s.dev.AtLagoon r.val p .credit f → f.kind = 2 →
    f.queue = 63 → s.dev.arrived (reefNode r.val) p .credit = some tr →
    let d := s.dev.takeFlit (reefNode r.val) p .credit
    let l := s.dev.lag r.val
    (l.mc = none → exec (.mcGrant r p) s = .next (s.withDev d)) ∧
    (∀ m : McActive, l.mc = some m →
      let awaited := m.asked = true ∧ f.hi4 = 2 ∧ f.tag = m.flit.tag ∧ f.seq = m.flit.seq ∧
        ∃ g, (l.targets m.flit)[m.granted]? = some g ∧ tr.src = mcSite r.val g
      (awaited → s.time.ns ≤ m.start + 50000 → exec (.mcGrant r p) s = .next (s.withDev
        ((d.setLag r.val { l with mc := some { m with granted := m.granted + 1, asked := false } }).mcGo s.time r.val 3))) ∧
      (awaited → m.start + 50000 < s.time.ns → exec (.mcGrant r p) s = .next (s.withDev (d.mcTimeout s.time r.val m))) ∧
      (¬ awaited → exec (.mcGrant r p) s = .next (s.withDev d)))) ∧
  (∀ (s : State) (r : ReefId),
    (∀ m : McActive, (s.dev.lag r.val).mc = some m → m.retryAt = none → m.start + 50000 < s.time.ns →
      exec (.multicastTimeout r) s = .next (s.withDev (s.dev.mcTimeout s.time r.val m))) ∧
    ((∀ m : McActive, (s.dev.lag r.val).mc = some m → m.retryAt.isSome = true ∨ s.time.ns ≤ m.start + 50000) →
      exec (.multicastTimeout r) s = .next s) ∧
    (∀ (m : McActive) (e : Nat), (s.dev.lag r.val).mc = some m → m.retryAt = some e → e + 1000 ≤ s.time.ns →
      exec (.multicastRetry r) s = .next (s.withDev
        ((s.dev.setLag r.val { s.dev.lag r.val with mc := some { m with retryAt := none, start := s.time.ns } }).mcGo s.time r.val 3))) ∧
    ((∀ (m : McActive) (e : Nat), (s.dev.lag r.val).mc = some m → m.retryAt = some e → s.time.ns < e + 1000) →
      exec (.multicastRetry r) s = .next s)) ∧
  (∀ (d : Dev) (t : TimeBase) (r n : Nat),
    (∀ (f : Flit) (rest : List Flit), (d.lag r).mc = none → (d.lag r).mcq = f :: rest →
      d.mcGo t r (n + 1) = (d.setLag r { d.lag r with mcq := rest, mc := some { flit := f, start := t.ns } }).mcGo t r n) ∧
    ((d.lag r).mc = none → (d.lag r).mcq = [] → d.mcGo t r (n + 1) = d) ∧
    (∀ (m : McActive) (g : Nat), (d.lag r).mc = some m → m.asked = false → m.retryAt = none →
      ((d.lag r).targets m.flit)[m.granted]? = some g →
      d.mcGo t r (n + 1) = (d.setLag r { d.lag r with mc := some { m with asked := true } }).inject (reefNode r)
        { hdr := mkHdr (r / 36) (g / 64 % 96) (g / 64 / 96) (g % 64) m.flit.epoch m.flit.tag 2 (1 * 1024 + m.flit.seq), payload := 0 }) ∧
    (∀ m : McActive, (d.lag r).mc = some m → (m.asked = true ∨ m.retryAt.isSome = true) → d.mcGo t r (n + 1) = d) ∧
    (∀ m : McActive, (d.lag r).mc = some m → m.asked = false → m.retryAt = none → ((d.lag r).targets m.flit)[m.granted]? = none →
      d.mcGo t r (n + 1) = (((d.lag r).targets m.flit).foldl (fun (d : Dev) g => d.inject (reefNode r)
        { hdr := mkHdr (r / 36) (g / 64 % 96) (g / 64 / 96) (g % 64) m.flit.epoch m.flit.tag 0 (dataLow m.flit.hi4 m.flit.seq),
          payload := m.flit.payload } (copy := true)) (d.setLag r { d.lag r with mc := none })).mcGo t r n)) ∧
  (∀ (s : State) (i : SiteId) (p : Port) (tr : Transit),
    let x := s.dev.site i.val
    let f := tr.flit
    let d := s.dev.takeFlit (siteNode i.val) p .credit
    s.dev.arrived (siteNode i.val) p .credit = some tr →
    (f.kind = 2 → f.hi4 ≠ 3 → x.gate f = .pass →
      (∀ k : ReefId, tr.src = .reef k → f.hi4 = 1 → ((x.qd f.queue).mode = 1 ∨ (x.qd f.queue).mode = 2) → x.resv.length < 4 →
        exec (.mcReserve i p) s = .next (s.withDev (d.setSite i.val { x with
          resv := x.resv ++ [{ agent := k.val % 36, queue := f.queue, tag := BitVec.ofNat 20 f.tag, seq := f.seq }] }))) ∧
      (f.hi4 = 1 → ((x.qd f.queue).mode = 1 ∨ (x.qd f.queue).mode = 2) → 4 ≤ x.resv.length → exec (.mcReserve i p) s = .next s) ∧
      ((f.hi4 ≠ 1 ∨ (x.qd f.queue).mode = 3) →
        exec (.mcReserve i p) s = .next (s.withDev (d.siteFault s.time i.val 0x200A f.tag f.queue))) ∧
      (f.hi4 = 1 → (x.qd f.queue).mode = 0 →
        exec (.mcReserve i p) s = .next (s.withDev (d.siteFault s.time i.val 0x200C f.tag f.queue)))) ∧
    s.Gated i p .credit f (.mcReserve i p) (f.kind = 2 ∧ f.hi4 ≠ 3) ∧
    (f.kind = 2 → f.hi4 = 3 → x.gate f = .pass → ∀ k : ReefId, tr.src = .reef k →
      exec (.mcRelease i p) s = .next (s.withDev (d.setSite i.val
        (x.release (k.val % 36) f.queue (BitVec.ofNat 20 f.tag) f.seq)))) ∧
    s.Gated i p .credit f (.mcRelease i p) (f.kind = 2 ∧ f.hi4 = 3)) ∧
  (∀ (s : State) (i : SiteId) (p : Port), s.dev.arrived (siteNode i.val) p .credit = none →
    exec (.mcReserve i p) s = .next s ∧ exec (.mcRelease i p) s = .next s) ∧
  (∀ (s : State) (i : SiteId) (k : Fin 4),
    let x := s.dev.site i.val
    (∀ (v : Reservation) (e : Nat), x.resv[k.val]? = some v → x.resvEntry v = some e → v.granted = false →
      s.dev.canInject (siteNode i.val) 2 = true →
      ∃ y : Site, exec (.mcReservationGrant i k) s = .next (s.withDev ((s.dev.setSite i.val y).inject (siteNode i.val)
          { hdr := mkHdr (siteIsle i.val) 0x60 v.agent 63 x.epoch.toNat v.tag.toNat 2 (2 * 1024 + v.seq), payload := 0 })) ∧
        y.resv[k.val]? = some { v with granted := true } ∧ y.ent v.queue e = some { tag := v.tag, seq := v.seq, reserved := true } ∧
        (∀ q, q ≠ v.queue → y.q q = x.q q)) ∧
    ((∀ v : Reservation, x.resv[k.val]? = some v → x.resvEntry v = none ∨ v.granted = true ∨ s.dev.canInject (siteNode i.val) 2 = false) →
      exec (.mcReservationGrant i k) s = .next s)) ∧
  (∀ (x : Site) (agent queue : Nat) (tag : BitVec 20) (seq : Nat),
    (∀ v : Reservation, v ∈ x.resv → v.agent ≠ agent ∨ v.queue ≠ queue ∨ v.tag ≠ tag ∨ v.seq ≠ seq) → x.release agent queue tag seq = x)

/-! ### Semaphores -/

/-- R154, R182, R276 to R281, R286: the operations of a semaphore bank on a pair of the bank. A request waits while 32 waits are held; of
a stopped job or another epoch it fares as any flit of the lagoon; one that the bank refuses ends in 0x2012, a flit that is no data token
in 0x200A. A read replies with both counts; a post adds to one, to at most 65,535, and what is lost is logged; a
wait and an acquire are applied at once when they may be and no older one on the pair may, else they are held; a fetch sends the
entries of an acquired block from the pool or from its chunk, or waits for a refill under way, and sends nothing from a word that is
uncorrectable; a release ends the oldest acquired block; a wait that may not be applied yet stays. R277, R279, Table 8-4: what applying a wait does to its
pair: it takes its count from the full or the empty count; an acquire takes one full block, the oldest delivered, and replies with
its position. The other count and the other pairs of the bank stay. States that these complete: SEMAPHORE_READ, POST_FULL,
POST_EMPTY, WAIT_FULL, WAIT_EMPTY, ACQ, FETCH, REL, SEMAPHORE_WAIT_SATISFIED. -/
def Obligations.SemaphoreOperations : Prop :=
  (∀ (s : State) (r : ReefId) (p : Port) (c : Cls) (e : Ecc) (op : Nat), op < 8 → s.LagGated r p c (bankRow r p c e op)) ∧
  (∀ (s : State) (r : ReefId) (p : Port) (c : Cls) (e : Ecc) (f : Flit), s.dev.AtLagoon r.val p c f → f.queue = 62 →
     (s.dev.lag r.val).waits.length < 32 →
     let d := s.dev.takeFlit (reefNode r.val) p c
     (f.kind = 0 → s.dev.semBad r.val (semReqOf f) = true →
       exec (bankRow r p c e (semReqOf f).op) s = .next (s.withDev (d.lagError s.time r.val 0x2012 (semReqOf f).tag))) ∧
     (f.kind ≠ 0 → f.kind ≠ 1 → exec (.semaphoreRead r p c) s = .next (s.withDev (d.lagError s.time r.val 0x200A f.queue)))) ∧
  (∀ (s : State) (r : ReefId) (p : Port) (c : Cls) (f : Flit) (slot : Nat),
     let q := semReqOf f
     let x := s.dev.pair r.val slot
     let d := s.dev.takeFlit (reefNode r.val) p c
     let now := x.satisfies q = true ∧ olderReady q.pair x (s.dev.lag r.val).waits = false
     let held := (d.setLag r.val { d.lag r.val with waits := (d.lag r.val).waits ++ [{ flit := f }] }).trackCycles s.time (r.val / 36)
     let applied := (d.semApply r.val slot q).trackCycles s.time (r.val / 36)
     (s.dev.AtBank r.val p c f 0 slot → exec (.semaphoreRead r p c) s = .next (s.withDev
       ((d.semReply r.val q (x.full.toNat + x.empty.toNat * 65536)).trackCycles s.time (r.val / 36)))) ∧
     (s.dev.AtBank r.val p c f 1 slot → exec (.postFull r p c) s = .next (s.withDev
       ((d.addPair s.time r.val slot true q.n).trackCycles s.time (r.val / 36)))) ∧
     (s.dev.AtBank r.val p c f 2 slot → exec (.postEmpty r p c) s = .next (s.withDev
       ((d.addPair s.time r.val slot false q.n).trackCycles s.time (r.val / 36)))) ∧
     (s.dev.AtBank r.val p c f 3 slot → (now → exec (.waitFull r p c) s = .next (s.withDev applied)) ∧
       (¬ now → exec (.waitFull r p c) s = .next (s.withDev held))) ∧
     (s.dev.AtBank r.val p c f 4 slot → (now → exec (.waitEmpty r p c) s = .next (s.withDev applied)) ∧
       (¬ now → exec (.waitEmpty r p c) s = .next (s.withDev held))) ∧
     (s.dev.AtBank r.val p c f 5 slot → (now → exec (.acq r p c) s = .next (s.withDev applied)) ∧
       (¬ now → exec (.acq r p c) s = .next (s.withDev held))) ∧
     (∀ (b : Block) (sid : Nat) (st : Stream), s.dev.AtBank r.val p c f 6 slot → x.acquired[q.k]? = some b →
       s.dev.poolStream (r.val / 36) q.pair = some (sid, st) →
       let at_ := chunkAt (r.val / 36) (b.chunk.getD 0)
       let rf : Refill := { route := q.route, tag := BitVec.ofNat 20 q.tag, seq := q.seq, stack := at_.1, sector := at_.2 + q.first,
                            left := q.count, asked := s.time.ns, job := st.job }
       let pool := r.val / 36 * 36 + st.d.poolReef
       let ws := (List.range q.count).map fun i => mget 0 (d.lag pool).mem (st.d.slotEntry b.slot + q.first + i)
       let waits (d : Dev) (w : FetchWait) := (d.setPair r.val slot { x with fetches := x.fetches ++ [w] }).trackCycles s.time (r.val / 36)
       ∀ e : Ecc, let de := (d.lagEcc s.time pool e).2
       (x.refill = none → b.chunk = none → e.bad = false → exec (.fetch r p c e) s = .next (s.withDev
         (((List.range q.count).foldl (fun (d : Dev) i =>
           d.inject (reefNode r.val)
             { hdr := routeHdr q.route (d.lag r.val).epoch.toNat (BitVec.ofNat 20 q.tag).toNat 0 (dataLow 15 (q.seq + i)),
               payload := ws.getD i 0 }) de).trackCycles s.time (r.val / 36)))) ∧
       (b.chunk = none → e.bad = true → exec (.fetch r p c e) s = .next (s.withDev (de.trackCycles s.time (r.val / 36)))) ∧
       (x.refill = none → b.chunk.isSome = true → exec (.fetch r p c e) s = .next (s.withDev
         (((d.setPair r.val slot { x with refill := some rf }).askRefill r.val slot rf).trackCycles s.time (r.val / 36)))) ∧
       (x.refill.isSome = true → b.chunk.isSome = true → exec (.fetch r p c e) s = .next (s.withDev (waits d { refill := rf }))) ∧
       (x.refill.isSome = true → b.chunk = none → e.bad = false → exec (.fetch r p c e) s = .next (s.withDev
         (waits de { refill := rf, data := some ws })))) ∧
     (∀ (b : Block) (rest : List Block) (sid : Nat) (st : Stream), s.dev.AtBank r.val p c f 7 slot → x.acquired = b :: rest →
       s.dev.poolStream (r.val / 36) q.pair = some (sid, st) →
       let d1 := d.setPair r.val slot { x with acquired := rest }
       (b.chunk = none → exec (.rel r p c) s = .next (s.withDev
         (((d1.setArb (r.val / 36) ((d1.arb (r.val / 36)).setStream sid
           { st with used := st.used.filter fun i => decide (i ≠ b.slot) })).addPair s.time r.val slot false 1).trackCycles s.time
             (r.val / 36)))) ∧
       (∀ ch, b.chunk = some ch → exec (.rel r p c) s = .next (s.withDev
         (((d.setPair r.val slot { x with acquired := rest, freeing := x.freeing ++ [ch] }).settleChunks r.val slot).trackCycles s.time
           (r.val / 36))))) ∧
     (∀ (k : Fin 32) (w : SemWait), (s.dev.lag r.val).waits[k.val]? = some w →
       let q := semReqOf w.flit
       let may := x.satisfies q = true ∧ olderReady q.pair x ((s.dev.lag r.val).waits.take k.val) = false
       s.dev.bankSlot r.val q.pair = some slot →
       (may → exec (.semaphoreWaitSatisfied r k) s = .next (s.withDev
         (((s.dev.setLag r.val { s.dev.lag r.val with waits := (s.dev.lag r.val).waits.eraseIdx k.val }).semApply r.val slot q).trackCycles
           s.time (r.val / 36)))) ∧
       (¬ may → exec (.semaphoreWaitSatisfied r k) s = .next s))) ∧
  (∀ (s : State) (r : ReefId) (k : Fin 32),
     (∀ w, (s.dev.lag r.val).waits[k.val]? = some w → s.dev.bankSlot r.val (semReqOf w.flit).pair = none) →
     exec (.semaphoreWaitSatisfied r k) s = .next s) ∧
  (∀ (d : Dev) (t : TimeBase) (r slot n : Nat), let x := d.pair r slot
     (((d.addPair t r slot true n).pair r slot).full.toNat = min 65535 (x.full.toNat + n) ∧
       ((d.addPair t r slot true n).pair r slot).empty = x.empty) ∧
     (((d.addPair t r slot false n).pair r slot).empty.toNat = min 65535 (x.empty.toNat + n) ∧
       ((d.addPair t r slot false n).pair r slot).full = x.full) ∧
     (65535 < x.full.toNat + n → (d.addPair t r slot true n).log = (d.logErr t 0x2010 (job := (d.jobAt r).getD 0x1FF) (die := r / 36)
       (unit := 1) (wh := r % 36) (tag := slot)).log)) ∧
  (∀ (d : Dev) (r slot : Nat) (q : SemReq),
     let x := d.pair r slot
     (∀ k, k ≠ slot → (d.semApply r slot q).pair r k = d.pair r k) ∧
     (x.satisfies q = true → ∃ (d1 : Dev) (w : Nat), d.semApply r slot q = d1.semReply r q w ∧
       (q.op = 3 → w + q.n = x.full.toNat) ∧ (q.op = 4 → w + q.n = x.empty.toNat) ∧
       (∀ b rest, q.op = 5 → x.delivered = b :: rest → w = b.pos)) ∧
     (q.op = 3 → x.satisfies q = true →
       ((d.semApply r slot q).pair r slot).full.toNat + q.n = x.full.toNat ∧ ((d.semApply r slot q).pair r slot).empty = x.empty) ∧
     (q.op = 4 → x.satisfies q = true →
       ((d.semApply r slot q).pair r slot).empty.toNat + q.n = x.empty.toNat ∧ ((d.semApply r slot q).pair r slot).full = x.full) ∧
     (∀ b rest, q.op = 5 → x.satisfies q = true → x.delivered = b :: rest →
       ((d.semApply r slot q).pair r slot).full.toNat + 1 = x.full.toNat ∧
       ((d.semApply r slot q).pair r slot).delivered = rest ∧ ((d.semApply r slot q).pair r slot).acquired = x.acquired ++ [b]))

/-! ### Isthmus bridges -/

/-- R19, R199, R201: a lane group with traffic, or with an acknowledgement, a NAK or buffers owed to the other side, sends one frame when it
has a buffer of the other side, which stays until it is acknowledged; else nothing leaves. While transit and local traffic both wait, the
next frame takes the records of the one that did not send last. R200: a NAK sends the unacknowledged frames again and counts them;
the eighth of one frame retrains. R203: retraining with spares left resends, with too few loses the group: it is marked and logged, and
the next group up gets its frames and flits. R197, R200: a frame as it was sent, with up to 250 bytes of
records, passes the check of its receiver and carries its sequence number, the acknowledgement, the NAK bit and the buffers. R198: a
record of one flit gives back its flit, whole or cut by the end of a frame. R200: what a receiver does with the next frame on the
wires, once what had been received before has gone on as far as it can: a frame that fails its check, or is not the one expected, is
discarded with a NAK; the expected one is taken, acknowledged, and its flits go on; with no frame on the wires nothing more happens.
States that these complete: TRANSIT_GRANT, ISTHMUS_FRAME_RECEIVE, ISTHMUS_NAK, ISTHMUS_RETRAIN_END. -/
def Obligations.IsthmusFrames : Prop :=
  ((∀ (s : State) (d : BridgeDir) (g : Fin 32), let l := s.dev.lgroup d.val g.val
     let r := s.dev.lgroup (reverseDir d.val) g.val
     let owed := r.ackOwed = true ∨ r.nakOut = true ∨ 0 < r.freed
     (l.down = false → l.retraining = false → l.credit ≠ 0 → l.unacked.length < 64 → (l.waits = true ∨ owed) →
       ∃ (t : State) (f : Frame), exec (.transitGrant d g) s = .next t ∧ t = s.withDev { s.dev with bridges := t.dev.bridges } ∧
         (t.dev.lgroup d.val g.val).wire = l.wire ++ [f] ∧ (t.dev.lgroup d.val g.val).unacked = l.unacked ++ [(l.fseq, f)] ∧
         (t.dev.lgroup d.val g.val).fseq = (l.fseq + 1) % 512 ∧ (t.dev.lgroup d.val g.val).credit + 1 = l.credit) ∧
     ((l.down = true ∨ l.retraining = true ∨ l.credit = 0 ∨ 64 ≤ l.unacked.length ∨ (l.waits = false ∧ ¬ owed)) →
       exec (.transitGrant d g) s = .next s)) ∧
   (∀ l : LaneGroup, l.early = [] → l.tail = [] → l.localQ ≠ [] → l.transitQ ≠ [] →
     (l.nextLoad true).2.2.2.2.transitQ = l.transitQ ∧ (l.nextLoad false).2.2.2.2.localQ = l.localQ ∧
       (l.nextLoad true).2.2.2.2.localQ.length ≤ l.localQ.length ∧ (l.nextLoad true).1.length ≤ 250) ∧
   (∀ (s : State) (d : BridgeDir) (g : Fin 32), let l := s.dev.lgroup d.val g.val
     (l.nakIn = true → l.retraining = false → l.down = false →
       (l.naks + 1 < 8 → exec (.isthmusNak d g) s = .next (s.withDev
         ((s.dev.setLgroup d.val g.val { l with nakIn := false, naks := l.naks + 1, wire := l.wire ++ l.unacked.map (·.2) }).bump 0x2D00
           (0x18 + d.val) l.unacked.length))) ∧
       (8 ≤ l.naks + 1 → exec (.isthmusNak d g) s = .next (s.withDev
         (s.dev.setLgroup d.val g.val { l with nakIn := false, naks := 0, retraining := true })))) ∧
     ((l.nakIn = false ∨ l.retraining = true ∨ l.down = true) → exec (.isthmusNak d g) s = .next s)) ∧
   (∀ (s : State) (d : BridgeDir) (g : Fin 32) (lanes : Fin 67), let l := s.dev.lgroup d.val g.val
     let logged := (List.range (min lanes.val l.spares)).foldl (fun (x : Dev) _ =>
       x.logErr s.time 0x4001 (die := 20 + d.val / 2) (unit := 4) (wh := d.val) (detail := g.val)) s.dev
     (l.retraining = true →
       (lanes.val ≤ l.spares → exec (.isthmusRetrainEnd d g lanes) s = .next (s.withDev
         ((logged.setLgroup d.val g.val { l with
           spares := l.spares - lanes.val, retraining := false, naks := 0, wire := l.wire ++ l.unacked.map (·.2) }).bump 0x2D00
             (0x18 + d.val) l.unacked.length))) ∧
       (l.spares < lanes.val → exec (.isthmusRetrainEnd d g lanes) s = .next (s.withDev (logged.groupDown s.time d.val g.val)))) ∧
     (l.retraining = false → exec (.isthmusRetrainEnd d g lanes) s = .next s)) ∧
   (∀ (d : Dev) (t : TimeBase) (dir g n : Nat), let l := d.lgroup dir g
     let m := d.lgroup dir n
     (d.setLgroup dir g { l with down := true }).liveGroup dir g = n → n ≠ g → dir < 8 →
     ((List.range 32).filter fun k => decide (k = g) || (d.lgroup dir k).down).length ≠ 5 →
     ((d.groupDown t dir g).lgroup dir g).down = true ∧ ((d.groupDown t dir g).lgroup dir g).localQ = [] ∧
     ((d.groupDown t dir g).lgroup dir n).localQ = m.localQ ++ l.localQ ∧
     ((d.groupDown t dir g).lgroup dir n).transitQ = m.transitQ ++ l.transitQ ∧
     ((d.groupDown t dir g).lgroup dir n).early = m.early ++ l.unreceived g ++ l.early ++ tailFrames g 64 l.tail ∧
     (d.groupDown t dir g).ctrN 0x2D00 (0x10 + dir) = d.ctrN 0x2D00 (0x10 + dir) + 2 ^ g)) ∧
  (∀ (records : List Byte) (fseq ack cred bad : Nat) (nak : Bool), records.length ≤ 250 →
     let b := (mkFrame records fseq ack nak cred bad).bytes
     let ctl := fieldAt b 250 3
     crc24 (b.take 253) = fieldAt b 253 3 ∧ b.take records.length = records ∧ bits ctl 8 0 = fseq % 512 ∧ bits ctl 17 9 = ack % 512 ∧
       bit ctl 18 = nak ∧ bits ctl 23 19 = cred % 32) ∧
  (∀ a : Transit, a.flit.kind ≠ 15 → bareKind a.flit.kind = false →
     let b := (recordPieces [a]).flatMap (·.1)
     takeStream 3 none b = ([a.flit], none, []) ∧
     ∀ k, k < 32 → ∃ run, takeStream 3 none (b.take (10 + k)) = ([], some run, (b.drop 10).take k) ∧
       takeStream 3 (some run) ((b.drop 10).take k ++ b.drop (10 + k)) = ([a.flit], none, [])) ∧
  (∀ (s : State) (d : BridgeDir) (g : Fin 32) (noise : BitVec 2048),
     let d0 := s.dev.drainRx d.val g.val (s.dev.lgroup d.val g.val).rx.length
     let l := d0.lgroup d.val g.val
     (l.wire = [] → exec (.isthmusFrameReceive d g noise) s = .next (s.withDev d0)) ∧
     ∀ (f0 : Frame) (rest : List Frame), l.wire = f0 :: rest →
     let b := (({ f0 with bits := f0.bits ^^^ noise } : Frame)).bytes
     let good := crc24 (b.take 253) = fieldAt b 253 3
     let seq := bits (fieldAt b 250 3) 8 0
     (¬ good → exec (.isthmusFrameReceive d g noise) s = .next (s.withDev
       (d0.setLgroup d.val g.val { l with wire := rest, nakOut := true, discarding := true }))) ∧
     (good → seq ≠ l.expect → exec (.isthmusFrameReceive d g noise) s = .next (s.withDev
       (d0.setLgroup d.val g.val { l with wire := rest, nakOut := l.nakOut || !l.discarding, discarding := true }))) ∧
     (good → seq = l.expect → ∃ t : State, exec (.isthmusFrameReceive d g noise) s = .next t ∧
       t = s.withDev { s.dev with bridges := t.dev.bridges, fabric := t.dev.fabric } ∧
       (t.dev.lgroup d.val g.val).expect = (l.expect + 1) % 512 ∧ (t.dev.lgroup d.val g.val).wire = rest ∧
       (t.dev.lgroup d.val g.val).nakOut = false ∧ (t.dev.lgroup d.val g.val).ackOwed = true ∧
       (t.dev.lgroup d.val g.val).discarding = false)) ∧
  (∀ (d : Dev) (dir g n : Nat), (d.lgroup dir g).rx = [] → d.drainRx dir g n = d)

/-! ### HBM -/

/-- R237, R246: a sector reads as the last write accepted left it, through the lane buffers; every other sector reads as before: for a write, for a word that
enters a lane buffer, and for the zeroing of a range. The lane buffers keep their form. -/
def Obligations.SectorsReadAsLastAccepted : Prop :=
  ∀ (x : Stack) (sec n : Nat) (w : W256), x.LanesOk →
    (x.wr sec w).LanesOk ∧ (x.modify sec w).LanesOk ∧ (x.auPut sec w).LanesOk ∧ (x.zero sec n).LanesOk ∧
    (x.wr sec w).rd sec = w ∧ (x.modify sec w).rd sec = w ∧ (x.auPut sec w).rd sec = w ∧
    sec ∉ (x.wr sec w).poison ∧ (x.modify sec w).poison = x.poison ∧
    (∀ k, k ≠ sec → (x.wr sec w).rd k = x.rd k ∧ (x.modify sec w).rd k = x.rd k ∧ (x.auPut sec w).rd k = x.rd k) ∧
    (∀ k, sec ≤ k → k < sec + n → (x.zero sec n).rd k = 0) ∧
    (∀ k, k < sec ∨ sec + n ≤ k → (x.zero sec n).rd k = x.rd k)

/-- R223, R229 to R235, R237: requests of a stack. The oldest that waits and that the controller can take is checked and queued, a write is
applied and a read takes its data as they stand; a refused one stops its job and delivers nothing; while all are held nothing happens.
R235: a burst slot goes to a request of its pseudo-channel whose bank is free, of the highest class that has one, while no request of
class P3 or P4 has waited its limit; a request with slots left stays in the queue, one without is issued, or done where nothing
returns. A completed read without errors delivers its data; of one sector, what the decoder gives is delivered, and a sector that is
uncorrectable delivers nothing. A stack that is being re-formed serves none. R232, R252, R253, R510: patrol scrub, refresh and
temperature of a stack; above 105 °C the device enters FAULT. R224, R255, R256: the zeroing of a region ends, its contents are loaded and the
installation of a slot's key that waits for it goes on; a failing channel is mapped out once no job with a region in the stack runs, the
regions of stopped jobs are released, the stack loses the channel and its data; else nothing changes; at the end it serves again
and the event is logged. States that these complete: HBM_REQUEST_ACCEPT, HBM_BURST_GRANT, HBM_READ_COMPLETE, HBM_SCRUB_READ,
HBM_SCRUB_PASS_END, HBM_TEMP_SAMPLE, HBM_REFRESH, REGION_ZERO_FILL_END, CHANNEL_MAP_OUT, CHANNEL_MAP_OUT_END. -/
def Obligations.HbmRequestsAndUpkeep : Prop :=
  ((∀ (s : State) (k : StackId) (r : HbmReq), let x := s.dev.stk k.val
     let d1 := s.dev.setStk k.val { x with arriving := x.arriving.erase r }
     x.arriving.find? (fun q => !x.holds q) = some r →
     (x.verdict r.who r.sector r.count r.write = .ok → r.write = true → exec (.hbmRequestAccept k) s = .next (s.withDev
       (((d1.writeSectors k.val r.sector r.data).pushReq k.val { r with data := [], slots := r.count }).writeAccepted r.reply))) ∧
     (x.verdict r.who r.sector r.count r.write = .ok → r.write = false → exec (.hbmRequestAccept k) s = .next (s.withDev
       (d1.pushReq k.val { r with
         data := (List.range r.count).map fun i => x.rd (r.sector + i), slots := r.count,
         bad := (List.range r.count).filter fun i => x.poison.contains (r.sector + i) }))) ∧
     (x.verdict r.who r.sector r.count r.write = .range → exec (.hbmRequestAccept k) s = .next (s.withDev
       ((d1.hbmRefuse s.time k.val r.sector 0x3004 r.job).readFails k.val r))) ∧
     (x.verdict r.who r.sector r.count r.write = .denied → exec (.hbmRequestAccept k) s = .next (s.withDev
       ((d1.hbmRefuse s.time k.val r.sector 0x3006 r.job).readFails k.val r)))) ∧
   (∀ (s : State) (k : StackId), (∀ r ∈ (s.dev.stk k.val).arriving, (s.dev.stk k.val).holds r = true) →
     exec (.hbmRequestAccept k) s = .next s) ∧
   (∀ (s : State) (k : StackId) (pc : Fin 32) (busy : List (Fin 48)) (i : Nat) (r : HbmReq), let x := s.dev.stk k.val
     x.mapping = none → x.grant pc.val (busy.map (·.val)) = some i → x.queue[i]? = some r → r.slots ≤ 1 →
     ∃ t : State, exec (.hbmBurstGrant k pc busy) s = .next t ∧
       t = s.withDev { s.dev with hbms := t.dev.hbms } ∧ (t.dev.stk k.val).queue = x.queue.eraseIdx i ∧
       (t.dev.stk k.val).issued = (if r.done then x.issued else x.issued ++ [{ r with slots := 0 }]) ∧
       (t.dev.stk k.val).mem = x.mem ∧ (t.dev.stk k.val).lanes = x.lanes) ∧
   (∀ (s : State) (k : StackId) (pc : Fin 32) (busy : List (Fin 48)), let x := s.dev.stk k.val
     (x.mapping.isSome = true → exec (.hbmBurstGrant k pc busy) s = .next s) ∧
     (∀ (i : Nat) (r : HbmReq), x.mapping = none → x.grant pc.val (busy.map (·.val)) = some i → x.queue[i]? = some r → 1 < r.slots →
       ∃ t : State, exec (.hbmBurstGrant k pc busy) s = .next t ∧ t = s.withDev { s.dev with hbms := t.dev.hbms } ∧
         (t.dev.stk k.val).queue = listSet x.queue i { r with slots := r.slots - 1 } ∧ (t.dev.stk k.val).issued = x.issued) ∧
     (x.mapping = none → x.grant pc.val (busy.map (·.val)) = none →
       ∃ t : State, exec (.hbmBurstGrant k pc busy) s = .next t ∧ t = s.withDev { s.dev with hbms := t.dev.hbms } ∧
         (t.dev.stk k.val).queue = x.queue ∧ (t.dev.stk k.val).issued = x.issued)) ∧
   (∀ (x : Stack) (pc i : Nat) (busy : List Nat) (r : HbmReq), x.grant pc busy = some i → x.queue[i]? = some r →
     x.pcOf r.sector = pc ∧ x.bankOf r.sector ∉ busy ∧
     (mget 0 x.p3wait pc < 7 → mget 0 x.p4wait pc < 255 → ∀ q ∈ x.queue, x.pcOf q.sector = pc → x.bankOf q.sector ∉ busy → q.cls < 5 →
       r.cls ≤ q.cls)) ∧
   (∀ (s : State) (k : StackId) (i onDie : Nat) (errs : List SymErrs), let x := s.dev.stk k.val
     (x.mapping.isSome = true ∨ x.issued[i]? = none) → exec (.hbmReadComplete k i errs onDie) s = .next s) ∧
   (∀ (s : State) (k : StackId) (i onDie : Nat) (e : SymErrs) (r : HbmReq), let x := s.dev.stk k.val
     let d1 := (s.dev.setStk k.val { x with issued := x.issued.eraseIdx i }).bump 0x2C00 (0x80 + k.val) onDie
     x.mapping = none → x.issued[i]? = some r → r.count = 1 →
     (∀ w d2, d1.decodeSector s.time k.val (r.part 0) e r.job = (some w, d2) →
       exec (.hbmReadComplete k i [e] onDie) s = .next (s.withDev (d2.readDelivers k.val r [w]))) ∧
     (∀ d2, d1.decodeSector s.time k.val (r.part 0) e r.job = (none, d2) →
       exec (.hbmReadComplete k i [e] onDie) s = .next (s.withDev (d2.readFails k.val r)))) ∧
   (∀ (s : State) (k : StackId) (i onDie : Nat) (r : HbmReq), let x := s.dev.stk k.val
     x.mapping = none → x.issued[i]? = some r → r.bad = [] → r.data.length = r.count →
     exec (.hbmReadComplete k i [] onDie) s = .next (s.withDev
       (((s.dev.setStk k.val { x with issued := x.issued.eraseIdx i }).bump 0x2C00 (0x80 + k.val) onDie).readDelivers k.val r r.data)))) ∧
  ((∀ (s : State) (k : StackId), let x := s.dev.stk k.val
     x.mapping = none → x.scrub < x.sectors → exec (.hbmScrubRead k) s = .next (s.withDev
       ((s.dev.setStk k.val { x with scrub := x.scrub + 1 }).pushReq k.val
         { cls := 4, sector := x.scrub, data := [x.rd x.scrub], who := .scrubber, reply := .scrub,
           bad := if x.poison.contains x.scrub then [0] else [] }))) ∧
   (∀ (s : State) (k : StackId), let x := s.dev.stk k.val
     ((x.mapping.isSome = true ∨ x.sectors ≤ x.scrub) → exec (.hbmScrubRead k) s = .next s) ∧
     ((x.scrub < x.sectors ∨ ∃ r ∈ x.queue ++ x.issued, r.reply = .scrub) → exec (.hbmScrubPassEnd k) s = .next s)) ∧
   (∀ (s : State) (k : StackId), let x := s.dev.stk k.val
     x.sectors ≤ x.scrub → (∀ r ∈ x.queue ++ x.issued, r.reply ≠ .scrub) →
     exec (.hbmScrubPassEnd k) s = .next (s.withDev ((s.dev.setStk k.val { x with scrub := 0 }).bump 0x2C00 7 1))) ∧
   (∀ (s : State) (k : StackId) (c : W16), c.toInt ≤ 105 →
     ∃ t : State, exec (.hbmTempSample k c) s = .next t ∧
       t = s.withDev { s.dev with hbms := t.dev.hbms, ctr := t.dev.ctr, log := t.dev.log } ∧ (t.dev.stk k.val).refreshSet = refreshOf (s.dev.stk k.val).refreshSet c.toInt ∧
       (t.dev.stk k.val).refresh = (s.dev.stk k.val).refresh ∧ (95 ≤ c.toInt → (t.dev.stk k.val).refreshSet = 4) ∧
       (85 ≤ c.toInt → c.toInt < 95 → (s.dev.stk k.val).refreshSet ≠ 4 → (t.dev.stk k.val).refreshSet = 2) ∧
       (c.toInt ≤ 82 → (t.dev.stk k.val).refreshSet = 1)) ∧
   (∀ (s : State) (k : StackId) (c : W16), 105 < c.toInt → s.dev.pu.state ≠ .fault →
     ∃ t : State, exec (.hbmTempSample k c) s = .next t ∧ t.dev.pu.state = .fault) ∧
   (∀ (s : State) (k : StackId), exec (.hbmRefresh k) s = .next (s.withDev
     (s.dev.setStk k.val { s.dev.stk k.val with refresh := (s.dev.stk k.val).refreshSet })))) ∧
  ((∀ (s : State) (k : StackId) (g : Fin 256), let x := s.dev.stk k.val
     let d1 := s.dev.setStk k.val { x with
       zeroing := x.zeroing.filter fun r => decide (r ≠ g.val), queue := x.queue.filter fun r => decide (r.reply ≠ .zero g.val) }
     let keyed (d : Dev) : Dev := d.slots.foldl (fun d e => d.keyProgress s.time e.1) d1
     (s.dev.planRegion k.val g.val = none → exec (.regionZeroFillEnd k g) s = .next (s.withDev (keyed s.dev))) ∧
     (∀ j p r, s.dev.planRegion k.val g.val = some (j, p, r) →
       (g.val ∈ x.zeroing → (s.dev.job j).trans = 2 → (s.dev.job j).saved = false →
         exec (.regionZeroFillEnd k g) s = .next (s.withDev ((keyed s.dev).fillRegion j p r))) ∧
       ((g.val ∉ x.zeroing ∨ (s.dev.job j).trans ≠ 2 ∨ (s.dev.job j).saved = true) →
         exec (.regionZeroFillEnd k g) s = .next (s.withDev (keyed s.dev))))) ∧
   (∀ (d : Dev) (t : TimeBase) (n : Nat), (d.slot n).keyNext = none → d.keyProgress t n = d) ∧
   (∀ (s : State) (k : StackId) (c : Fin 16), let x := s.dev.stk k.val
     (x.chan c.val).failing = true → x.active.getLsbD c.val = true → x.mapping = none →
     (∀ j ∈ s.dev.jobsInStack k.val, (s.dev.job j).state = 0 ∨ (s.dev.job j).state = 6 ∧ (s.dev.job j).stopping = false) →
     ∃ t : State, exec (.channelMapOut k c) s = .next t ∧
       t = s.withDev { s.dev with hbms := t.dev.hbms, jobs := t.dev.jobs, nv := t.dev.nv } ∧ (t.dev.stk k.val).mapping = some c.val ∧
       (t.dev.stk k.val).active = x.active &&& ~~~(BitVec.twoPow 16 c.val) ∧ (t.dev.stk k.val).mem = [] ∧
       (t.dev.stk k.val).poison = [] ∧ ((t.dev.stk k.val).chan c.val).failing = false) ∧
   (∀ (s : State) (k : StackId) (c : Fin 16), let x := s.dev.stk k.val
     ((x.chan c.val).failing = false ∨ x.active.getLsbD c.val = false ∨ x.mapping.isSome = true ∨
       (∃ j ∈ s.dev.jobsInStack k.val, (s.dev.job j).state ≠ 0 ∧ ((s.dev.job j).state ≠ 6 ∨ (s.dev.job j).stopping = true))) →
     exec (.channelMapOut k c) s = .next s) ∧
   (∀ (s : State) (k : StackId), (s.dev.stk k.val).mapping = none → exec (.channelMapOutEnd k) s = .next s) ∧
   (∀ (s : State) (k : StackId) (c : Nat), (s.dev.stk k.val).mapping = some c → exec (.channelMapOutEnd k) s = .next (s.withDev
     ((s.dev.setStk k.val { s.dev.stk k.val with mapping := none }).logErr s.time 0x3003 (die := 4 + k.val) (unit := 2) (wh := c)))))

/-- R154, R182, R183, R218, R223, R240: a token that reaches a window is taken only by the row of the window's mode; one of a stopped job or of
another epoch, damaged, or of a kind that the mode does not take, and one whose extent lies outside the stack or in a region that does not
admit it, is taken and ends in its error; while the region is zero-filled it waits. R241 to R243: a write token of a window's epoch, admitted by the window's region, writes its valid words into the sector of its tag
and sequence; every other sector of the stack reads as before. A read token holds its replies' places and asks for its sectors, and
waits while the reorder buffer or a narrow queue has no room; an extent outside the window ends in 0x3004. A partial write or an operation
whose sector the decoder cannot correct has no effect on it. R244
to R250: the accumulate operations of a window on a sound sector: atomics replace its first word, combine and clear its AA word and
count the contributions, deposits on sound sectors go to the words of their valid values;
sectors not named read as before; an operation code that is none is taken without effect. R246, R248: what one operation does to one word,
buffered or not. R250: a wait for a counter joins the 64 that the AU holds, or stays; it is answered once the count is reached, not
before. States that these complete: NARROW_WRITE, NARROW_READ, ATOMIC_ADD, ATOMIC_COMPARE_REPLACE, AU_COMBINE, AU_CLEAR,
AU_DEPOSIT_FP32, AU_DEPOSIT_INT32, COUNTER_WAIT, COUNTER_WAIT_REPLY. -/
def Obligations.WindowOperations : Prop :=
  ((∀ (s : State) (k : StackId) (p : Port) (c : Cls) (e : SymErrs) (es : List SymErrs),
     s.WinGated k p c (.narrowRead k p c) 1 [0] ∧ s.WinGated k p c (.narrowWrite k p c e) 2 [0] ∧ s.WinGated k p c (.atomicAdd k p c e) 3 [0] ∧
     s.WinGated k p c (.atomicCompareReplace k p c e) 3 [0] ∧ s.WinGated k p c (.auCombine k p c e) 4 [0, 3] ∧
     s.WinGated k p c (.auClear k p c) 4 [0, 3] ∧ s.WinGated k p c (.auDepositFp32 k p c es) 5 [0] ∧
     s.WinGated k p c (.auDepositInt32 k p c es) 6 [0] ∧ s.WinGated k p c (.counterWait k p c) 7 [0]) ∧
   (∀ (s : State) (k : StackId) (p : Port) (c : Cls) (e : SymErrs) (es : List SymErrs) (f : Flit), let w := (s.dev.stk k.val).win f.queue
     let q := payWord f.payload 0
     (s.dev.AtWindow k.val p c f 2 → f.kind = 0 → s.WinRefuses k p c (.narrowWrite k p c e) f (w.base + w.entry f.tag f.seq) 1 true) ∧
     (s.dev.AtWindow k.val p c f 1 → f.kind = 0 → bits q 31 0 + (bits q 34 32 + 1) ≤ w.slots * w.per →
       s.WinRefuses k p c (.narrowRead k p c) f (w.base + bits q 31 0) (bits q 34 32 + 1) false) ∧
     (s.dev.AtWindow k.val p c f 3 → f.kind = 0 →
       (bits q 35 32 = 0 → s.WinRefuses k p c (.atomicAdd k p c e) f (w.base + bits q 31 0) 1 true) ∧
       (bits q 35 32 = 1 → s.WinRefuses k p c (.atomicCompareReplace k p c e) f (w.base + bits q 31 0) 1 true) ∧
       (bits q 35 32 ≠ 0 → bits q 35 32 < 2 → exec (.atomicAdd k p c e) s = .next s) ∧
       (bits q 35 32 ≠ 1 → bits q 35 32 < 2 → exec (.atomicCompareReplace k p c e) s = .next s) ∧
       (2 ≤ bits q 35 32 →
         exec (.atomicAdd k p c e) s = .next (s.withDev (s.dev.takeFlit (hbmNode k.val) p c)) ∧
         exec (.atomicCompareReplace k p c e) s = .next (s.withDev (s.dev.takeFlit (hbmNode k.val) p c)))) ∧
     (s.dev.AtWindow k.val p c f 4 →
       (f.kind = 3 → s.WinRefuses k p c (.auCombine k p c e) f (w.base + w.entry f.tag f.aaSeq) 1 true ∧ exec (.auClear k p c) s = .next s) ∧
       (f.kind = 0 → s.WinRefuses k p c (.auClear k p c) f (w.base + w.entry f.tag f.seq) 1 true ∧ exec (.auCombine k p c e) s = .next s)) ∧
     (f.kind = 0 →
       (s.dev.AtWindow k.val p c f 5 → s.WinRefuses k p c (.auDepositFp32 k p c es) f (w.base + w.entry f.tag f.seq * 8) 8 true) ∧
       (s.dev.AtWindow k.val p c f 6 → s.WinRefuses k p c (.auDepositInt32 k p c es) f (w.base + w.entry f.tag f.seq * 8) 8 true))) ∧
   (∀ (s : State) (k : StackId) (p : Port) (c : Cls) (e : SymErrs) (f : Flit), let x := s.dev.stk k.val
     let w := x.win f.queue
     let d := s.dev.takeFlit (hbmNode k.val) p c
     (∀ d1, let sec := w.base + w.entry f.tag f.seq
       s.dev.AtWindow k.val p c f 2 → f.kind = 0 → f.hi4 ≠ 15 → x.verdict (.job w.slot w.job) sec 1 true = .ok →
       d.readSector s.time k.val sec e (some w.job) = (none, d1) → exec (.narrowWrite k p c e) s = .next (s.withDev d1)) ∧
     (∀ old d1, let sec := w.base + w.entry f.tag f.seq
       s.dev.AtWindow k.val p c f 2 → f.kind = 0 → f.hi4 ≠ 15 → x.verdict (.job w.slot w.job) sec 1 true = .ok →
       d.readSector s.time k.val sec e (some w.job) = (some old, d1) → exec (.narrowWrite k p c e) s =
         .next (s.withDev ((d1.setStk k.val ((d1.stk k.val).modify sec (mergeWords f.hi4 old f.payload))).pushReq k.val
           { cls := 3, sector := sec, write := true, slots := 2, job := some w.job }))) ∧
     (∀ d1, let q := payWord f.payload 0
       let sec := w.base + bits q 31 0
       s.dev.AtWindow k.val p c f 3 → f.kind = 0 → x.verdict (.job w.slot w.job) sec 1 true = .ok → x.narrowRoom sec 1 = true →
       d.readSector s.time k.val sec e (some w.job) = (none, d1) →
       (bits q 35 32 = 0 → exec (.atomicAdd k p c e) s = .next (s.withDev d1)) ∧
       (bits q 35 32 = 1 → exec (.atomicCompareReplace k p c e) s = .next (s.withDev d1))) ∧
     (let q := payWord f.payload 0
       let sec := w.base + bits q 31 0
       s.dev.AtWindow k.val p c f 3 → f.kind = 0 → x.verdict (.job w.slot w.job) sec 1 true = .ok → x.narrowRoom sec 1 = false →
       (bits q 35 32 = 0 → exec (.atomicAdd k p c e) s = .next s) ∧ (bits q 35 32 = 1 → exec (.atomicCompareReplace k p c e) s = .next s)) ∧
     (let q := payWord f.payload 0
       let n := bits q 34 32 + 1
       let sec := w.base + bits q 31 0
       s.dev.AtWindow k.val p c f 1 → f.kind = 0 →
       (w.slots * w.per < bits q 31 0 + n →
         exec (.narrowRead k p c) s = .next (s.withDev (d.hbmRefuse s.time k.val sec 0x3004 (some w.job)))) ∧
       (bits q 31 0 + n ≤ w.slots * w.per → x.verdict (.job w.slot w.job) sec n false = .ok → x.narrowRoom sec n = false →
         exec (.narrowRead k p c) s = .next s)) ∧
     (∀ r : Option Dev × Dev, let sec := w.base + w.entry f.tag f.aaSeq
       s.dev.AtWindow k.val p c f 4 → f.kind = 3 → x.verdict (.job w.slot w.job) sec 1 true = .ok →
       (d.auOp s.time k.val sec f.tag e w fun old => aaCombine old f.payload) = r →
       (r.1 = none → exec (.auCombine k p c e) s = .next (s.withDev r.2)) ∧
       (∀ d1, r.1 = some d1 → exec (.auCombine k p c e) s = .next (s.withDev (d1.auCount k.val w.counter f.contrib))))) ∧
   (∀ (d : Dev) (t : TimeBase) (k sec tag : Nat) (e : SymErrs) (w : Win) (op : W256 → W256 × AARep), let x := d.stk k
     (x.buffered sec = true →
       (d.auOp t k sec tag e w op).1 = some ((d.setStk k (x.auPut sec (op (x.rd sec)).1)).aaReport t (some w.job) (4 + k) 2 k tag
         (op (x.rd sec)).2 w.idx)) ∧
     (∀ d1, x.buffered sec = false → d.readSector t k sec e (some w.job) = (none, d1) → d.auOp t k sec tag e w op = (none, d1)) ∧
     (∀ old d1, x.buffered sec = false → d.readSector t k sec e (some w.job) = (some old, d1) →
       (d.auOp t k sec tag e w op).1 = some (((d1.setStk k ((d1.stk k).auPut sec (op old).1)).pushReq k
         { cls := 2, sector := sec, write := true, slots := 2, job := some w.job }).aaReport t (some w.job) (4 + k) 2 k tag (op old).2
           w.idx)))) ∧
  ((∀ (s : State) (k : StackId) (p : Port) (c : Cls) (e : SymErrs) (f : Flit), let x := s.dev.stk k.val
     let w := x.win f.queue
     let sec := w.base + w.entry f.tag f.seq
     s.dev.AtWindow k.val p c f 2 → f.kind = 0 → x.verdict (.job w.slot w.job) sec 1 true = .ok →
     (f.hi4 = 15 ∨ e = [] ∧ sec ∉ x.poison) →
     ∃ t : State, exec (.narrowWrite k p c e) s = .next t ∧
       t = s.withDev { s.dev with fabric := t.dev.fabric, hbms := t.dev.hbms } ∧
       (t.dev.stk k.val).rd sec = (if f.hi4 = 15 then f.payload else mergeWords f.hi4 (x.rd sec) f.payload) ∧
       (∀ a, a ≠ sec → (t.dev.stk k.val).rd a = x.rd a)) ∧
   (∀ (s : State) (k : StackId) (p : Port) (c : Cls) (f : Flit), let x := s.dev.stk k.val
     let w := x.win f.queue
     let q := payWord f.payload 0
     let n := bits q 34 32 + 1
     let sec := w.base + bits q 31 0
     s.dev.AtWindow k.val p c f 1 → f.kind = 0 → bits q 31 0 + n ≤ w.slots * w.per → x.verdict (.job w.slot w.job) sec n false = .ok →
     x.narrowRoom sec n = true →
     exec (.narrowRead k p c) s = .next (s.withDev ((s.dev.takeFlit (hbmNode k.val) p c).setStk k.val { x with
       ticket := x.ticket + n,
       reorder := x.reorder ++ (List.range n).map fun i =>
         { window := f.queue, tag := BitVec.ofNat 20 f.tag, seq := (bits q 44 35 + i) % 1024, ticket := x.ticket + i, req := x.ticket },
       accepted := x.accepted + n,
       queue := x.queue ++ (List.range n).map fun i =>
         { cls := 0, seq := x.accepted + i, sector := sec + i, data := [x.rd (sec + i)], who := .job w.slot w.job, job := some w.job,
           reply := .window f.queue (x.ticket + i), bad := if x.poison.contains (sec + i) then [0] else [] } })))) ∧
  ((∀ (s : State) (k : StackId) (p : Port) (c : Cls) (f : Flit), let x := s.dev.stk k.val
     let w := x.win f.queue
     let q := payWord f.payload 0
     let sec := w.base + bits q 31 0
     let old := x.rd sec
     let first (v : Nat) := payOf [v % 2 ^ 64, payWord old 1, payWord old 2, payWord old 3]
     s.dev.AtWindow k.val p c f 3 → f.kind = 0 → x.verdict (.job w.slot w.job) sec 1 true = .ok → x.narrowRoom sec 1 = true → sec ∉ x.poison →
     (bits q 35 32 = 0 → ∃ t : State, exec (.atomicAdd k p c []) s = .next t ∧
       t = s.withDev { s.dev with free := t.dev.free, fabric := t.dev.fabric, hbms := t.dev.hbms } ∧
       (t.dev.stk k.val).rd sec = first (payWord old 0 + payWord f.payload 1) ∧ (∀ a, a ≠ sec → (t.dev.stk k.val).rd a = x.rd a)) ∧
     (bits q 35 32 = 1 → ∃ t : State, exec (.atomicCompareReplace k p c []) s = .next t ∧
       t = s.withDev { s.dev with free := t.dev.free, fabric := t.dev.fabric, hbms := t.dev.hbms } ∧
       (t.dev.stk k.val).rd sec = first (if payWord old 0 = payWord f.payload 2 then payWord f.payload 3 else payWord old 0) ∧
       (∀ a, a ≠ sec → (t.dev.stk k.val).rd a = x.rd a))) ∧
   (∀ (s : State) (k : StackId) (p : Port) (c : Cls) (f : Flit), let x := s.dev.stk k.val
     let w := x.win f.queue
     s.dev.AtWindow k.val p c f 4 → x.LanesOk →
     (f.kind = 3 → let sec := w.base + w.entry f.tag f.aaSeq
       x.verdict (.job w.slot w.job) sec 1 true = .ok → sec ∉ x.poison →
       ∃ t : State, exec (.auCombine k p c []) s = .next t ∧
       t = s.withDev { s.dev with fabric := t.dev.fabric, hbms := t.dev.hbms, ctr := t.dev.ctr, log := t.dev.log } ∧ (t.dev.stk k.val).rd sec = (aaCombine (x.rd sec) f.payload).1 ∧
         mget 0 (t.dev.stk k.val).counters w.counter = mget 0 x.counters w.counter + BitVec.ofNat 32 f.contrib ∧
         (∀ a, a ≠ sec → (t.dev.stk k.val).rd a = x.rd a)) ∧
     (f.kind = 0 → let sec := w.base + w.entry f.tag f.seq
       x.verdict (.job w.slot w.job) sec 1 true = .ok →
       ∃ t : State, exec (.auClear k p c) s = .next t ∧
       t = s.withDev { s.dev with fabric := t.dev.fabric, hbms := t.dev.hbms } ∧ (t.dev.stk k.val).rd sec = aaZero ∧ sec ∉ (t.dev.stk k.val).poison ∧
         (t.dev.stk k.val).counters = x.counters ∧ (∀ a, a ≠ sec → (t.dev.stk k.val).rd a = x.rd a))) ∧
   (∀ (s : State) (k : StackId) (p : Port) (c : Cls) (f : Flit), let x := s.dev.stk k.val
     let w := x.win f.queue
     let sec := w.base + w.entry f.tag f.seq * 8
     let deposited (t : State) (val : W32 → Fp) : Prop :=
       (∀ j, j < 8 → bit f.hi4 (j / 2) = true →
         (t.dev.stk k.val).rd (sec + j) = (aaDeposit (x.rd (sec + j)) [val (f.payload.extractLsb' (32 * j) 32)]).1) ∧
       (∀ a, (∀ j, j < 8 → bit f.hi4 (j / 2) = true → a ≠ sec + j) → (t.dev.stk k.val).rd a = x.rd a) ∧
       mget 0 (t.dev.stk k.val).counters w.counter = mget 0 x.counters w.counter + 1
     x.LanesOk → f.kind = 0 → x.verdict (.job w.slot w.job) sec 8 true = .ok → (∀ j, j < 8 → sec + j ∉ x.poison) →
     (s.dev.AtWindow k.val p c f 5 → ∃ t : State, exec (.auDepositFp32 k p c []) s = .next t ∧
       t = s.withDev { s.dev with fabric := t.dev.fabric, hbms := t.dev.hbms, ctr := t.dev.ctr, log := t.dev.log } ∧ deposited t ofFp32) ∧
     (s.dev.AtWindow k.val p c f 6 → ∃ t : State, exec (.auDepositInt32 k p c []) s = .next t ∧
       t = s.withDev { s.dev with fabric := t.dev.fabric, hbms := t.dev.hbms, ctr := t.dev.ctr, log := t.dev.log } ∧ deposited t fun v => fpOfInt v.toInt 0)) ∧
   (∀ (s : State) (k : StackId) (p : Port) (c : Cls) (f : Flit), let x := s.dev.stk k.val
     s.dev.AtWindow k.val p c f 7 → f.kind = 0 →
     (64 ≤ x.waits.length → exec (.counterWait k p c) s = .next s) ∧
     (x.waits.length < 64 → exec (.counterWait k p c) s = .next (s.withDev ((s.dev.takeFlit (hbmNode k.val) p c).setStk k.val { x with waits := x.waits ++
       [{ window := f.queue, tag := BitVec.ofNat 20 f.tag, target := BitVec.ofNat 32 (payWord f.payload 0 / 2 ^ 32) }] })))) ∧
   (∀ (s : State) (k : StackId) (i : Fin 64), (s.dev.stk k.val).waits[i.val]? = none → exec (.counterWaitReply k i) s = .next s) ∧
   (∀ (s : State) (k : StackId) (i : Fin 64) (a : AuWait), let x := s.dev.stk k.val
     let v := x.counterOf a.window
     x.waits[i.val]? = some a →
     ((v - a.target).toNat < 2 ^ 31 → exec (.counterWaitReply k i) s = .next (s.withDev
       ((s.dev.setStk k.val { x with waits := x.waits.eraseIdx i.val }).inject (hbmNode k.val)
         { hdr := routeHdr (mget {} x.windows a.window).w2 (mget 0 x.epochs a.window) a.tag.toNat 0 (dataLow 1 0),
           payload := payOf [v.toNat] }))) ∧
     (2 ^ 31 ≤ (v - a.target).toNat → exec (.counterWaitReply k i) s = .next s)))

/-! ### Streams -/

/-- R267 to R275, R288: blocks of a stream. A block that may start, when no eligible block comes before it, takes one from the count it
tests and joins the blocks in progress; any other does not start. A granule read goes into its slot of the pool, or as tokens to the
route, in address order; one that has not come, or is not the next of a route, changes nothing. A whole block at the head is delivered,
and raises the full count; a write block raises the empty count; a block of a stopped stream ends without a count; else nothing changes. An
arbiter whose streams of a draining job have nothing outstanding reports drained, and not before. States that these complete: BLOCK_START,
GRANULE_COMPLETE, BLOCK_DELIVERED, WRITE_BLOCK_COMPLETE, STREAMS_DRAINED. -/
def Obligations.StreamBlocks : Prop :=
  (∀ (s : State) (i : IsleId) (sid : Fin 256) (r q : Nat) (w : List W64), let st := (s.dev.arb i.val).stream sid.val
    s.dev.MayStart i.val sid.val r q w →
    ∃ t : State, exec (.blockStart i { val := sid }) s = .next t ∧
      t = s.withDev { s.dev with lagoons := t.dev.lagoons, arbs := t.dev.arbs, hbms := t.dev.hbms, ctr := t.dev.ctr } ∧
      ((t.dev.arb i.val).stream sid.val).inprog.length = st.inprog.length + 1 ∧
      (st.d.dir = 3 → (t.dev.pair r q).full + 1 = (s.dev.pair r q).full ∧ (t.dev.pair r q).empty = (s.dev.pair r q).empty) ∧
      (st.d.dir ≠ 3 → (t.dev.pair r q).empty + 1 = (s.dev.pair r q).empty ∧ (t.dev.pair r q).full = (s.dev.pair r q).full) ∧
      (st.next + 1 = st.d.nblk → ((t.dev.arb i.val).stream sid.val).next = 0 ∧ ((t.dev.arb i.val).stream sid.val).pass = st.pass + 1) ∧
      (st.next + 1 ≠ st.d.nblk → ((t.dev.arb i.val).stream sid.val).next = st.next + 1 ∧
        ((t.dev.arb i.val).stream sid.val).pass = st.pass)) ∧
  (∀ (s : State) (i : IsleId) (sid : Fin 256) (e : Ecc), let a := s.dev.arb i.val
    (s.dev.mayStart i.val sid.val = false ∨ s.dev.startsBefore i.val (a.nextDeadline (a.stream sid.val)) sid.val = true) →
    exec (.blockStart i { val := sid, ecc := e }) s = .next s) ∧
  (∀ (s : State) (i : IsleId) (sid : Fin 256) (blk : Fin 2) (g : Nat) (e : Ecc), let st := (s.dev.arb i.val).stream sid.val
    (∀ b, st.inprog[blk.val]? = some b → b.got.find? (fun e => e.1 = g) = none) →
    exec (.granuleComplete i sid blk { val := g, ecc := e }) s = .next s) ∧
  (∀ (s : State) (i : IsleId) (sid : Fin 256) (blk : Fin 2) (g : Nat) (b : InBlock) (data : List W256) (ec : Ecc),
    let st := (s.dev.arb i.val).stream sid.val
    let r := i.val * 36 + st.d.poolReef
    st.inprog[blk.val]? = some b → b.got.find? (fun e => e.1 = g) = some (g, data) → st.d.dir = 1 → st.stopped = false →
    exec (.granuleComplete i sid blk { val := g, ecc := ec }) s = .next (s.withDev
      (let d1 := s.dev.setBlock i.val sid.val { b with got := mdel b.got g, doneCount := b.doneCount + 1 }
       let d2 := d1.setLag r ((List.range data.length).foldl (fun (l : Lagoon) e =>
         l.putEntry (st.d.slotEntry b.slot + 8 * g + e) (data.getD e 0)) (d1.lag r))
       (if b.doneCount + 1 = (blockOf b.words).granules ∧ b.deadline < s.time.ns then d2.streamLate s.time i.val sid.val else d2).pump
         s.time i.val ec 1024))) ∧
  (∀ (s : State) (i : IsleId) (sid : Fin 256) (blk : Fin 2) (g : Nat) (b : InBlock) (data : List W256) (ec : Ecc),
    let a := s.dev.arb i.val
    let st := a.stream sid.val
    let d1 := s.dev.setBlock i.val sid.val { b with got := mdel b.got g, doneCount := b.doneCount + 1 }
    let epoch := (s.dev.lag ((s.dev.pairAt i.val st.d.pair).elim (i.val * 36) (·.1))).epoch.toNat
    st.inprog[blk.val]? = some b → b.got.find? (fun e => e.1 = g) = some (g, data) →
    let cmd : Instr := .granuleComplete i sid blk { val := g, ecc := ec }
    (st.d.dir = 2 → g ≠ b.doneCount → exec cmd s = .next s) ∧
    (st.d.dir = 2 → g = b.doneCount → st.stopped = false → exec cmd s = .next (s.withDev
      (let d2 := (List.range data.length).foldl (fun (x : Dev) e => x.inject (stopNode i.val (stopOfDy 9))
         { hdr := routeHdr (mget 0 a.routes st.d.route) epoch b.tag.toNat 0 (dataLow 15 (8 * g + e)), payload := data.getD e 0 }) d1
       (if b.doneCount + 1 = (blockOf b.words).granules ∧ b.deadline < s.time.ns then d2.streamLate s.time i.val sid.val else d2).pump
         s.time i.val ec 1024))) ∧
    (st.d.dir = 3 ∨ (st.stopped = true ∧ (st.d.dir = 2 → g = b.doneCount)) →
      exec cmd s = .next (s.withDev (d1.pump s.time i.val ec 1024)))) ∧
  (∀ (s : State) (i : IsleId) (sid : Fin 256) (r q : Nat) (b : InBlock), let st := (s.dev.arb i.val).stream sid.val
    st.inprog.head? = some b → s.dev.pairAt i.val st.d.pair = some (r, q) → b.complete st.stopped = true → st.d.dir ≠ 3 → st.stopped = false →
    ∃ t : State, exec (.blockDelivered i sid) s = .next t ∧
      t = s.withDev { s.dev with lagoons := t.dev.lagoons, arbs := t.dev.arbs, ctr := t.dev.ctr, log := t.dev.log } ∧
      (t.dev.pair r q).full.toNat = min 65535 ((s.dev.pair r q).full.toNat + 1) ∧
      (t.dev.pair r q).empty = (s.dev.pair r q).empty ∧
      (t.dev.pair r q).delivered = (s.dev.pair r q).delivered ++
        (if st.d.dir = 1 then [{ pos := b.pos, slot := b.slot, tag := b.tag, entries := (blockOf b.words).granules * 8 }] else []) ∧
      ((t.dev.arb i.val).stream sid.val).inprog = st.inprog.filter fun y => decide (y.pos ≠ b.pos)) ∧
  (∀ (s : State) (i : IsleId) (sid : Fin 256) (r q : Nat) (b : InBlock), let st := (s.dev.arb i.val).stream sid.val
    st.inprog.find? (·.complete st.stopped) = some b → s.dev.pairAt i.val st.d.pair = some (r, q) → st.d.dir = 3 → st.stopped = false →
    exec (.writeBlockComplete i sid) s = .next (s.withDev
      ((s.dev.setArb i.val ((s.dev.arb i.val).setStream sid.val (st.endBlock b.pos))).addPair s.time r q false 1))) ∧
  (∀ (s : State) (i : IsleId) (sid : Fin 256), let a := s.dev.arb i.val
    let st := a.stream sid.val
    (∀ b r q, st.inprog.head? = some b → s.dev.pairAt i.val st.d.pair = some (r, q) → b.complete st.stopped = true → st.d.dir ≠ 3 →
      st.stopped = true → exec (.blockDelivered i sid) s = .next (s.withDev (s.dev.setArb i.val (a.setStream sid.val (st.endBlock b.pos))))) ∧
    ((st.d.dir = 3 ∨ s.dev.pairAt i.val st.d.pair = none ∨ ∀ b, st.inprog.head? = some b → b.complete st.stopped = false) →
      exec (.blockDelivered i sid) s = .next s) ∧
    (∀ b r q, st.inprog.find? (·.complete st.stopped) = some b → s.dev.pairAt i.val st.d.pair = some (r, q) → st.d.dir = 3 →
      st.stopped = true → exec (.writeBlockComplete i sid) s = .next (s.withDev (s.dev.setArb i.val (a.setStream sid.val (st.endBlock b.pos))))) ∧
    ((st.d.dir ≠ 3 ∨ s.dev.pairAt i.val st.d.pair = none ∨ st.inprog.find? (·.complete st.stopped) = none) →
      exec (.writeBlockComplete i sid) s = .next s)) ∧
  (∀ (s : State) (i : IsleId) (j : JobId), ((s.dev.job j.val).drainAt = none ∨ s.dev.streamsQuiet i.val j.val = false) →
    exec (.streamsDrained i j) s = .next s) ∧
  (∀ (s : State) (i : IsleId) (j : JobId), (s.dev.job j.val).drainAt.isSome = true → s.dev.streamsQuiet i.val j.val = true →
    exec (.streamsDrained i j) s = .next (s.withDev (s.dev.setJob j.val
      { s.dev.job j.val with drained := insNat (s.dev.job j.val).drained (arbiterUnit i.val) })))

/-- R284 to R289: a cycle of space-blocked streams that lasted 4 µs makes the arbiter write its victim's oldest delivered block into a
free chunk, unless an escape is under way, no victim or no chunk is found, or a word of the block is uncorrectable; when the writes are
accepted the block's slot is free and the empty count rises, and a block released meanwhile gives its chunk back; a cycle without a way out
for 100 ms stops its jobs with STREAM_CYCLE_UNRESOLVED; else only the timing of the cycles goes on. R192: a granule that waits for a
lagoon is delivered from a line of its set and makes
it the most recent; one that is missing is fetched once; the line fetched takes the place of the least recent and is delivered to
all that wait for it; a stopped stream's granule, and one that does not wait for the line, are not served. States that these complete:
STREAM_ESCAPE, ESCAPE_SPILL_COMPLETE, STREAM_CYCLE_UNRESOLVED, LAGOON_CACHE_READ, LAGOON_CACHE_FILL. -/
def Obligations.StreamEscapeAndCache : Prop :=
  ((∀ (s : State) (i : IsleId) (sid c : Nat) (b : Block),
     let d := s.dev.trackCycles s.time i.val
     let a := d.arb i.val
     a.escape = none →
     (a.cycles.filter fun x => decide (x.since + 4000 ≤ s.time.ns)).findSome? (fun x => d.victim i.val x.set) = some (sid, b) →
     d.freeChunkAt i.val = some c →
     ∃ t : State, exec (.streamEscape { val := i }) s = .next t ∧
       t = s.withDev { s.dev with arbs := t.dev.arbs, hbms := t.dev.hbms, ctr := t.dev.ctr, jobs := t.dev.jobs } ∧ (t.dev.arb i.val).escape = some { sid := sid, block := b, chunk := c } ∧
       t.dev.chunkOwner i.val c = (a.stream sid).slot * 256 + (a.stream sid).job + 1 ∧
       (t.dev.stk (chunkAt i.val c).1).arriving.length = (d.stk (chunkAt i.val c).1).arriving.length + b.entries / 8) ∧
   (∀ (s : State) (i : IsleId) (e : Escape) (r q : Nat), let a := s.dev.arb i.val
     let p := s.dev.pair r q
     a.escape = some e → e.block.entries / 8 ≤ e.accepted → s.dev.pairAt i.val (a.stream e.sid).d.pair = some (r, q) →
     (p.delivered ++ p.acquired).any (fun b => decide (b.pos = e.block.pos)) = true →
     ∃ t : State, exec (.escapeSpillComplete i) s = .next t ∧
       t = s.withDev { s.dev with arbs := t.dev.arbs, lagoons := t.dev.lagoons, ctr := t.dev.ctr, log := t.dev.log } ∧ (t.dev.arb i.val).escape = none ∧
       (t.dev.pair r q).empty.toNat = min 65535 (p.empty.toNat + 1) ∧ (t.dev.pair r q).full = p.full ∧
       e.block.slot ∉ ((t.dev.arb i.val).stream e.sid).used) ∧
   (∀ (s : State) (i : IsleId), let a := s.dev.arb i.val
     ((∀ e, a.escape = some e → e.accepted < e.block.entries / 8) → exec (.escapeSpillComplete i) s = .next s) ∧
     (∀ e, a.escape = some e → e.block.entries / 8 ≤ e.accepted →
       (∀ r q, s.dev.pairAt i.val (a.stream e.sid).d.pair = some (r, q) →
         ((s.dev.pair r q).delivered ++ (s.dev.pair r q).acquired).any (fun b => decide (b.pos = e.block.pos)) = false) →
       exec (.escapeSpillComplete i) s = .next (s.withDev ((s.dev.setArb i.val { a with
         escape := none, cycles := a.cycles.map fun c => { c with since := s.time.ns, counted := false } }).freeChunk i.val e.chunk)))) ∧
   (∀ (s : State) (i : IsleId) (e : Ecc),
     let d := s.dev.trackCycles s.time i.val
     let a := d.arb i.val
     let found := (a.cycles.filter fun x => decide (x.since + 4000 ≤ s.time.ns)).findSome? (fun x => d.victim i.val x.set)
     ((a.escape.isSome = true ∨ found = none ∨ d.freeChunkAt i.val = none) →
       exec (.streamEscape { val := i, ecc := e }) s = .next (s.withDev d)) ∧
     (∀ sid b, a.escape = none → found = some (sid, b) → (d.freeChunkAt i.val).isSome = true → e.bad = true →
       exec (.streamEscape { val := i, ecc := e }) s =
         .next (s.withDev (d.lagError s.time (i.val * 36 + (a.stream sid).d.poolReef) 0x8005 0xFFFFFFFF)))) ∧
   (∀ (s : State) (i : IsleId), let d := s.dev.trackCycles s.time i.val
     ((d.arb i.val).cycles.find? fun x => x.stuck.any fun e => decide (e + 100000000 ≤ s.time.ns)) = none →
     exec (.streamCycleUnresolved i) s = .next (s.withDev d)) ∧
   (∀ (s : State) (i : IsleId) (c : Cycle),
     let d := s.dev.trackCycles s.time i.val
     let a := d.arb i.val
     (a.cycles.find? fun x => x.stuck.any fun e => decide (e + 100000000 ≤ s.time.ns)) = some c →
     exec (.streamCycleUnresolved i) s = .next (s.withDev
       (c.jobs.foldl (fun (x : Dev) j => x.jobError s.time j 0x2011 i.val 3 9)
         (d.setArb i.val { a with cycles := a.cycles.filter fun x => decide (x.set ≠ c.set) }))))) ∧
  ((∀ (s : State) (r : ReefId) (sid : Fin 256) (line : BitVec 32) (b : InBlock) (g key : Nat),
     let isle := r.val / 36
     let st := (s.dev.arb isle).stream sid.val
     let l := s.dev.lag r.val
     let d1 := s.dev.setBlock isle sid.val { b with cached := b.cached.filter fun x => decide (x ≠ g) }
     let set := mget [] l.cache key
     (st.inprog.findSome? fun y =>
       (y.cached.find? fun x => granuleHa st.d (blockOf y.words) y.pass x / 256 = line.toNat).map fun x => (y, x)) = some (b, g) →
     l.cacheSet st.slot line.toNat = some key →
     (st.stopped = true → ∀ e, exec (.lagoonCacheRead r sid line e) s = .next s) ∧
     (st.stopped = false →
     (∀ c, set.find? (fun x => x.line = line.toNat) = some c →
       let d2 := d1.setLag r.val { l with cache := mput [] l.cache key (c :: set.filter fun x => decide (x.line ≠ line.toNat)) }
       ∀ e : Ecc,
         (e.bad = false → exec (.lagoonCacheRead r sid line e) s =
           .next (s.withDev ((d2.lagEcc s.time r.val e).2.streamGot isle sid.val b.pos g c.data))) ∧
         (e.bad = true → exec (.lagoonCacheRead r sid line e) s = .next (s.withDev (d2.lagError s.time r.val 0x8005 0xFFFFFFFF)))) ∧
     (set.find? (fun x => x.line = line.toNat) = none → (∃ f ∈ l.fills, f.1 = line.toNat) →
       ∀ e, exec (.lagoonCacheRead r sid line e) s = .next (s.withDev
         (d1.setLag r.val { l with fills := l.fills ++ [(line.toNat, sid.val, b.pos, g)] }))) ∧
     (set.find? (fun x => x.line = line.toNat) = none → (∀ f ∈ l.fills, f.1 ≠ line.toNat) →
       ∀ e, ∃ (t : State) (q : HbmReq), exec (.lagoonCacheRead r sid line e) s = .next t ∧
       t = s.withDev { s.dev with arbs := t.dev.arbs, lagoons := t.dev.lagoons, hbms := t.dev.hbms } ∧
         (t.dev.lag r.val).fills = l.fills ++ [(line.toNat, sid.val, b.pos, g)] ∧
         (t.dev.stk (line.toNat / 2 ^ 28)).arriving = (s.dev.stk (line.toNat / 2 ^ 28)).arriving ++ [q] ∧
         q.cls = 1 ∧ q.sector = line.toNat % 2 ^ 28 * 8 ∧ q.count = 8 ∧ q.write = false))) ∧
   (∀ (s : State) (r : ReefId) (sid : Fin 256) (line : BitVec 32) (e : Ecc), let st := (s.dev.arb (r.val / 36)).stream sid.val
     ((∀ y ∈ st.inprog, ∀ x ∈ y.cached, granuleHa st.d (blockOf y.words) y.pass x / 256 ≠ line.toNat) ∨
       (s.dev.lag r.val).cacheSet st.slot line.toNat = none) → exec (.lagoonCacheRead r sid line e) s = .next s) ∧
   (∀ (s : State) (r : ReefId) (line : BitVec 32), (s.dev.lag r.val).fillData.find? (fun e => e.1 = line.toNat) = none →
     exec (.lagoonCacheFill r line) s = .next s) ∧
   (∀ (s : State) (r : ReefId) (line : BitVec 32) (data : List W256), let l := s.dev.lag r.val
     l.fillData.find? (fun e => e.1 = line.toNat) = some (line.toNat, data) →
     ∃ t : State, exec (.lagoonCacheFill r line) s = .next t ∧
       t = s.withDev { s.dev with lagoons := t.dev.lagoons, arbs := t.dev.arbs } ∧
       (t.dev.lag r.val).fills = l.fills.filter (fun f => decide (f.1 ≠ line.toNat)) ∧
       (t.dev.lag r.val).fillData = mdel l.fillData line.toNat ∧
       (∀ f key, (l.fills.filter fun f => decide (f.1 = line.toNat)).head? = some f →
         l.cacheSet ((s.dev.arb (r.val / 36)).stream f.2.1).slot line.toNat = some key →
         (mget [] (t.dev.lag r.val).cache key).head? = some { line := line.toNat, data := data })))

/-! ### Plans, drains, epochs and context switches -/

/-- R29, R291, R299, R300, R516, Table 9-11: the end of a plan fetch. A plan whose tag or checks fail is rejected with the code of the first
failing check and the job returns to the state it came from, without a plan or a partition; an accepted plan passed every check, and
the job has it and its partition, and waits for its transition or, in a group, in state 5. While no fetch is due or the host link is down
nothing happens. A change of the good-site map of the partition before the epoch begins rejects the load; any other does not. States that
these complete: PLAN_FETCH_COMPLETE, GOOD_SITE_MAP_CHANGE. -/
def Obligations.PlanFetchAcceptsOrRejects : Prop :=
  (∀ (s : State) (j : JobId) (image : List Byte) (tagOk sigOk : Bool), let b := s.dev.job j.val
    b.state = 1 → b.staged ≠ 0 → s.dev.pcie (s.dev.objN (0x4000 + j.val) 0x1B) = true →
    let cmd := exec (.planFetchComplete j image tagOk sigOk) s
    let clear := fieldAt (s.dev.obj (0x4000 + j.val) 0x1A) 0 1 ≠ 1 ∨ tagOk = true
    (¬ clear → cmd = .next (s.withDev (s.dev.rejectLoad s.time j.val 0x5004 (0, 0)))) ∧
    (∀ code w, clear → s.dev.checkPlan j.val image sigOk = .reject code w → cmd = .next (s.withDev (s.dev.rejectLoad s.time j.val code w))) ∧
    (∀ p, clear → s.dev.checkPlan j.val image sigOk = .accept p → cmd = .next (s.withDev (s.dev.acceptPlan s.time j.val p)))) ∧
  (∀ (s : State) (j : JobId) (image : List Byte) (tagOk sigOk : Bool), let b := s.dev.job j.val
    (b.state ≠ 1 ∨ b.staged = 0 ∨ s.dev.pcie (s.dev.objN (0x4000 + j.val) 0x1B) = false) →
    exec (.planFetchComplete j image tagOk sigOk) s = .next s) ∧
  (∀ (d : Dev) (t : TimeBase) (j code : Nat) (w : Where), j < 256 → let e := d.rejectLoad t j code w
    (e.job j).state = (d.job j).fromState ∧ (e.job j).plan = none ∧ (e.job j).reefs = [] ∧ (e.job j).staged = 0 ∧
      e.ctrN (0x4000 + j) 0x11 = code ∧ e.ctrN (0x4000 + j) 0x12 = w.1 + 256 * w.2) ∧
  (∀ (d : Dev) (t : TimeBase) (j : Nat) (p : Plan), j < 256 → let e := d.acceptPlan t j p
    (e.job j).plan = some p ∧ (e.job j).reefs = p.partition ∧ (e.job j).staged = 0 ∧
      (d.groupOf j = none → (e.job j).trans = 1 ∧ (e.job j).state = (d.job j).state) ∧
      (∀ g, d.groupOf j = some g → (e.job j).state = 5)) ∧
  (∀ (d : Dev) (j : Nat) (img : List Byte) (sigOk : Bool) (p : Plan), d.checkPlan j img sigOk = .accept p →
    p.image = img ∧ d.place j img = some (p.rho, p.shift) ∧ checkFormat img = none ∧ d.checkSignature img sigOk = none ∧
      d.checkPartition j img = none ∧ d.checkHeld j p = none ∧ d.checkBuffers j p = none ∧ checkAlignment img = none ∧
      d.checkDescriptors j p = none ∧ checkCacheable img = none ∧ checkCleared img = none ∧ checkCounts img = none ∧
      checkDepths img = none ∧ checkTiles img = none ∧ d.checkRoutes p = none ∧ checkGuards img = none) ∧
  (∀ (s : State) (j : JobId), let b := s.dev.job j.val
    let d := s.dev.rejectLoad s.time j.val 0x1015 (0, 0)
    b.placing = true → (∃ r ∈ b.reefs, b.mapGen < mget 0 s.dev.health.reefGen r) →
    (b.state = 1 → exec (.goodSiteMapChange j) s = .next (s.withDev d)) ∧
    (∀ g, b.state = 5 → s.dev.groupOf j.val = some g →
      exec (.goodSiteMapChange j) s = .next (s.withDev ((d.leaveGroup j.val g).groupStart s.time g))) ∧
    (b.state = 5 → s.dev.groupOf j.val = none → exec (.goodSiteMapChange j) s = .next (s.withDev d))) ∧
  (∀ (s : State) (j : JobId), let b := s.dev.job j.val
    (b.placing = false ∨ ∀ r ∈ b.reefs, mget 0 s.dev.health.reefGen r ≤ b.mapGen) → exec (.goodSiteMapChange j) s = .next s)

/-- R307, R308: a token of a reporter is counted for its stage; any other that perimeter control takes has no effect, but for the errors
of its job (R154, R182, R183), and a status token is none of them; a tide point takes one from each reporter of the stage, counts, and
gives the arbiters the time at which its last token was accepted; that of the plan's tide stage is the job's; without a token from each
there is none. R309, R312, R585: drains. When every unit has reported, the lane buffers are written back and what the drain was for
follows: the end of a stop, a switch-out, or the drained state; before that nothing happens; a drain that lasts longer than its limit
stops the job, and a stop code that waited stands. R311: the forced quiet time of a stop counts while the network holds no flit of the job
(assumption 137); then the discards are added and the stop ends. States that these complete: TIDE_REPORT, TIDE_POINT,
PARTITION_DRAINED, DRAIN_TIMEOUT, FORCED_QUIET_END. -/
def Obligations.TidePointsAndDrains : Prop :=
  ((∀ (s : State) (i : IsleId) (p : Port) (c : Cls) (tr : Transit) (k : SiteId) (j : Nat), let b := s.dev.job j
     let stage := payWord tr.flit.payload 0 % 256
     s.dev.arrived (pcNode i.val) p c = some tr → tr.answer = false → tr.src = .site k → tr.bad = false → s.dev.jobOfSite k.val = some j →
     s.dev.jobStopped j = false → tr.flit.epoch = s.dev.ctrN (0x4000 + j) 0x13 → tr.flit.kind = 0 → tr.flit.queue = 0 →
     b.plan.any (fun q => (q.reporters stage).contains k.val) = true →
     exec (.tideReport i p c) s = .next (s.withDev ((s.dev.takeFlit (pcNode i.val) p c).setJob j { b with
       reports := mput 0 b.reports (stage * 36864 + k.val) (mget 0 b.reports (stage * 36864 + k.val) + 1),
       tideStamps :=
         if (b.plan.elim [] fun q => q.reporters stage).all fun r => (mget [] b.tideStamps stage).length <
             mget 0 (mput 0 b.reports (stage * 36864 + k.val) (mget 0 b.reports (stage * 36864 + k.val) + 1)) (stage * 36864 + r)
         then mput [] b.tideStamps stage (mget [] b.tideStamps stage ++ [(s.time.ns, s.time.elapsed)]) else b.tideStamps }))) ∧
   (∀ (s : State) (i : IsleId) (p : Port) (c : Cls), let d := s.dev.takeFlit (pcNode i.val) p c
     let cmd := exec (.tideReport i p c) s
     (s.dev.arrived (pcNode i.val) p c = none → cmd = .next s) ∧
     (∀ tr, s.dev.arrived (pcNode i.val) p c = some tr → let f := tr.flit
       (tr.answer = true → cmd = .next s) ∧
       (tr.answer = false → (∀ k, tr.src ≠ .site k) → cmd = .next (s.withDev d)) ∧
       (∀ k : SiteId, tr.answer = false → tr.src = .site k →
         (s.dev.jobOfSite k.val = none → cmd = .next (s.withDev d)) ∧
         (∀ j, s.dev.jobOfSite k.val = some j → let ep := s.dev.ctrN (0x4000 + j) 0x13
           (s.dev.jobStopped j = true ∨ f.epoch ≠ ep ∧ s.dev.jobForced j = true → cmd = .next (s.withDev (d.countDiscard j 1))) ∧
           (s.dev.jobStopped j = false → f.epoch ≠ ep → s.dev.jobForced j = false →
             cmd = .next (s.withDev (d.jobError s.time j 0x2002 i.val 3 10 f.queue))) ∧
           (s.dev.jobStopped j = false → f.epoch = ep → tr.bad = true →
             cmd = .next (s.withDev (d.jobError s.time j 0x8005 i.val 3 10 f.queue))) ∧
           (s.dev.jobStopped j = false → f.epoch = ep → tr.bad = false →
             (f.kind ≠ 0 ∨ f.queue ≠ 0 ∨
               (s.dev.job j).plan.any (fun q => (q.reporters (payWord f.payload 0 % 256)).contains k.val) = false) →
             cmd = .next (s.withDev d)))))) ∧
   (∀ (s : State) (j : JobId) (errs : HbmErrs) (stage : Byte), let b := s.dev.job j.val
     (∀ p, b.plan = some p → p.reporters stage.toNat = [] ∨ (b.state ≠ 2 ∧ b.state ≠ 3) ∨ b.stopping = true ∨
       ∃ r ∈ p.reporters stage.toNat, mget 0 b.reports (stage.toNat * 36864 + r) = 0) →
     exec (.tidePoint { val := j, errs := errs } stage) s = .next s) ∧
   (∀ (s : State) (j : JobId) (errs : HbmErrs) (stage : Byte) (p : Plan), let b := s.dev.job j.val
     let rs := p.reporters stage.toNat
     let n := mget 0 b.stageTides stage.toNat + 1
     b.plan = some p → rs ≠ [] → (b.state = 2 ∨ b.state = 3) → b.stopping = false →
     (∀ r ∈ rs, mget 0 b.reports (stage.toNat * 36864 + r) ≠ 0) →
     exec (.tidePoint { val := j, errs := errs } stage) s = .next (s.withDev
       (let d1 := s.dev.setJob j.val { b with
          reports := rs.foldl (fun m r => mput 0 m (stage.toNat * 36864 + r) (mget 0 m (stage.toNat * 36864 + r) - 1)) b.reports,
          tideStamps := mput [] b.tideStamps stage.toNat ((mget [] b.tideStamps stage.toNat).drop 1),
          stageTides := mput 0 b.stageTides stage.toNat n }
        let stamp := (mget [] b.tideStamps stage.toNat).headD (s.time.ns, s.time.elapsed)
        let d2 := d1.stampTide s.time j.val stage.toNat n stamp.1
        let d3 := ((stageRecs p.image).find? fun r => decide (r.stage = stage.toNat)).elim d2 fun r => d2.isleTide (rotIsle p.rho r.isle)
        if stage.toNat = p.tideStage then d3.jobTide s.time j.val stamp errs else d3)))) ∧
  ((∀ (s : State) (j : JobId), let b := s.dev.job j.val
     let d0 := (s.dev.flushJob j.val).chargeDrain s.time j.val
     let d1 := if b.drainLeft = 0 then d0 else d0.forceNext j.val
     let d2 := d1.setJob j.val { d1.job j.val with drainAt := none, atTide := if b.atTide = 3 ∧ b.stopWait.isNone then 3 else 0 }
     b.state = 3 → b.drainAt.isSome = true → b.stopping = false → s.dev.isDrained j.val = true →
     ((b.stopWait.isSome = true ∨ b.atTide = 2) →
       exec (.partitionDrained j) s = .next (s.withDev ((d2.endStop s.time j.val).startGroupOf s.time j.val))) ∧
     (b.stopWait = none → b.atTide = 3 → exec (.partitionDrained j) s = .next (s.withDev d2)) ∧
     (b.stopWait = none → b.atTide ≠ 2 → b.atTide ≠ 3 → b.atTide ≠ 4 →
       exec (.partitionDrained j) s = .next (s.withDev (d2.jobTo s.time j.val 4 0))) ∧
     (b.stopWait = none → b.atTide = 4 → ∃ t : State, exec (.partitionDrained j) s = .next t ∧
       t = s.withDev { s.dev with
         hbms := t.dev.hbms, lagoons := t.dev.lagoons, jobs := t.dev.jobs, rings := t.dev.rings, ctr := t.dev.ctr,
         log := t.dev.log, pu := t.dev.pu } ∧ (b.drainLeft ≠ 0 → ∀ r ∈ b.reefs, (t.dev.lag r).mustForce = true) ∧ j.val ∈ t.dev.pu.held ∧
       (t.dev.job j.val).state = 4)) ∧
   (∀ (s : State) (j : JobId), let b := s.dev.job j.val
     (b.state ≠ 3 ∨ b.drainAt = none ∨ b.stopping = true ∨ s.dev.isDrained j.val = false) → exec (.partitionDrained j) s = .next s) ∧
   (∀ (s : State) (j : JobId) (e : Nat), let b := s.dev.job j.val
     let d1 := (s.dev.logErr s.time 0x1020 (job := j.val)).stopNow s.time j.val 0x1020
     b.drainAt = some e → b.state = 3 → e + b.drainLimit ≤ s.time.elapsed →
     ((b.stopWait = none ∨ b.stopWait = some 0) → exec (.drainTimeout j) s = .next (s.withDev d1)) ∧
     (∀ c, b.stopWait = some c → c ≠ 0 → exec (.drainTimeout j) s = .next (s.withDev (d1.setCtr (0x4000 + j.val) 0x1C c.toNat)))) ∧
   (∀ (s : State) (j : JobId), let b := s.dev.job j.val
     ((∀ e, b.drainAt = some e → b.state ≠ 3 ∨ s.time.elapsed < e + b.drainLimit) → exec (.drainTimeout j) s = .next s) ∧
     ((b.quietAt = none ∨ b.stopping = false) → exec (.forcedQuietEnd j) s = .next s)) ∧
   (∀ (s : State) (j : JobId), let b := s.dev.job j.val
     b.quietAt.isSome = true → b.stopping = true →
     (s.dev.networkHolds j.val = true →
       exec (.forcedQuietEnd j) s = .next (s.withDev (s.dev.setJob j.val { b with emptyAt := none }))) ∧
     (s.dev.networkHolds j.val = false → b.emptyAt = none →
       exec (.forcedQuietEnd j) s = .next (s.withDev (s.dev.setJob j.val { b with emptyAt := some s.time.elapsed }))) ∧
     (∀ e, s.dev.networkHolds j.val = false → b.emptyAt = some e → s.time.elapsed < e + b.quietFor → exec (.forcedQuietEnd j) s = .next s) ∧
     (∀ e, s.dev.networkHolds j.val = false → b.emptyAt = some e → e + b.quietFor ≤ s.time.elapsed →
       let d2 := (s.dev.collectDiscards s.time j.val).forceNext j.val
       let d3 := d2.endStop s.time j.val
       ((∀ g, d2.groupOf j.val = some g → (d2.group g).running ≠ some j.val) → exec (.forcedQuietEnd j) s = .next (s.withDev d3)) ∧
       (∀ g, d2.groupOf j.val = some g → (d2.group g).running = some j.val → exec (.forcedQuietEnd j) s = .next (s.withDev
         ((d3.setGroup g { d3.group g with blocked := some (j.val, 1, d3.ctrN (0x4000 + j.val) 0x1C) }).groupStart s.time g))))))

/-- R188, R298, R310: an epoch transition. Clearing and zeroing start together; once they have ended everywhere the units of the partition hold the
next epoch and the job runs in it; a switched-out job's saved regions are restored first; with no transition due nothing happens. R298: a
site that has run the clearing program is cleared, any other not. R315: at a switch-out the lagoon regions go to their save areas and the
partition to the next job of the group, or to the one the group starts; a word that is uncorrectable ends it; without a drained
partition that waits for its switch-out nothing happens. States that these complete: EPOCH_TRANSITION, CLEARING_PROGRAM_END,
CONTEXT_SWITCH_OUT. -/
def Obligations.EpochTransition : Prop :=
  (∀ (s : State) (j : JobId) (errs : HbmErrs) (p : Plan), let b := s.dev.job j.val
    let cmd := exec (.epochTransition { val := j, errs := errs }) s
    b.plan = some p →
    (b.trans = 1 → ∃ t : State, cmd = .next t ∧
      t = s.withDev { s.dev with lagoons := t.dev.lagoons, hbms := t.dev.hbms, jobs := t.dev.jobs } ∧ (t.dev.job j.val).trans = 2 ∧
      (b.saved = false → ∀ r ∈ b.regions, r.2.2.2.2.1 ∈ (t.dev.stk r.2.1).zeroing)) ∧
    (b.trans = 2 → s.dev.transitionReady j.val = true → b.saved = false →
      cmd = .next (s.withDev (s.dev.transitionEnd s.time j.val p errs))) ∧
    (∀ d, b.trans = 2 → s.dev.transitionReady j.val = true → b.saved = true →
      (s.dev.restoreSaves s.time j.val p errs = (true, d) → cmd = .next (s.withDev (d.transitionEnd s.time j.val p errs))) ∧
      (s.dev.restoreSaves s.time j.val p errs = (false, d) → cmd = .next (s.withDev d))) ∧
    (b.trans = 2 → s.dev.transitionReady j.val = false → cmd = .next s) ∧ (b.trans ≠ 1 → b.trans ≠ 2 → cmd = .next s)) ∧
  (∀ (s : State) (j : JobId) (errs : HbmErrs), (s.dev.job j.val).plan = none → exec (.epochTransition { val := j, errs := errs }) s = .next s) ∧
  (∀ (s : State) (i : SiteId), (s.dev.jobs.find? fun e => e.2.clearing.contains i.val) = none →
    exec (.clearingProgramEnd i) s = .next s) ∧
  (∀ (s : State) (j : JobId) (e : Ecc), let b := s.dev.job j.val
    let cmd := exec (.contextSwitchOut { val := j, ecc := e }) s
    ((b.plan = none ∨ s.dev.groupOf j.val = none ∨ b.state ≠ 3 ∨ b.drainAt.isSome = true ∨ b.atTide ≠ 3 ∨ b.stopping = true) →
      cmd = .next s) ∧
    (∀ p g d1, b.plan = some p → s.dev.groupOf j.val = some g → b.state = 3 → b.drainAt = none → b.atTide = 3 → b.stopping = false →
      (s.dev.saveLagoons s.time j.val p e = (false, d1) → cmd = .next (s.withDev d1)) ∧
      (s.dev.saveLagoons s.time j.val p e = (true, d1) →
        let d2 := d1.setJob j.val { d1.job j.val with saved := true, atTide := 0 }
        let d3 := p.partition.foldl (fun d r => d.repairReef r) ((d2.jobTo s.time j.val 5 0).bump 0x2600 6 1)
        let d4 := d3.setGroup g { d3.group g with blocked := d3.switchDelay g j.val }
        ((d4.group g).next = none →
          cmd = .next (s.withDev ((d4.setGroup g { d4.group g with running := none }).groupStart s.time g))) ∧
        (∀ k, (d4.group g).next = some k → cmd = .next (s.withDev (d4.switchIn s.time g k)))))) ∧
  (∀ (s : State) (j : JobId) (p : Plan) (errs : HbmErrs), let b := s.dev.job j.val
    let t := s.dev.transitionEnd s.time j.val p errs
    b.memNext = none →
    t.ctrN (0x4000 + j.val) 0x13 = s.dev.nextEpoch j.val ∧ (t.job j.val).begun = true ∧ (t.job j.val).state = 2 ∧
      (t.job j.val).saved = false ∧
      (∀ k ∈ b.sites, (t.site k).epoch = BitVec.ofNat 4 (s.dev.nextEpoch j.val)) ∧
      (∀ r ∈ b.reefs, (t.lag r).epoch = BitVec.ofNat 4 (s.dev.nextEpoch j.val))) ∧
  (∀ (s : State) (i : SiteId) (j : Nat) (b : Job), (s.dev.jobs.find? fun e => e.2.clearing.contains i.val) = some (j, b) →
    exec (.clearingProgramEnd i) s = .next (s.withDev
      ((s.dev.setSite i.val ((s.dev.site i.val).cleared (BitVec.ofNat 4 (s.dev.nextEpoch j)))).setJob j
        { b with clearing := b.clearing.filter fun x => decide (x ≠ i.val) }))) ∧
  (∀ (s : State) (j : JobId) (p : Plan) (g k : Nat), let b := s.dev.job j.val
    b.plan = some p → s.dev.groupOf j.val = some g → b.state = 3 → b.drainAt = none → b.atTide = 3 → b.stopping = false →
    b.drainSpill = none → (s.dev.group g).next = some k → k ≠ j.val →
    ∃ t : State, exec (.contextSwitchOut { val := j }) s = .next t ∧
      t = s.withDev { s.dev with
          hbms := t.dev.hbms, jobs := t.dev.jobs, rings := t.dev.rings, ctr := t.dev.ctr, log := t.dev.log, health := t.dev.health,
          nv := t.dev.nv, groups := t.dev.groups } ∧ (t.dev.job j.val).state = 5 ∧ (t.dev.job j.val).saved = true ∧
      (t.dev.job k).trans = 1 ∧ (t.dev.group g).running = some k ∧ (t.dev.group g).next = none)

/-- R34, R305, R306, R497: the oldest iteration at the guards is refused, which names a guard and a dimension, or accepted in one to 4,096
chunks, which take the next tags; in one, where no extent exceeds its planned maximum. While the job does not run or holds, a guard cannot
send, or none waits, nothing happens. R305: the token of a guard is an empty token with the lowest dimension that is zero, else a shape
token with its extents. States that GUARD_ITERATION completes. States that these complete: GUARD_ITERATION. -/
def Obligations.GuardIterations : Prop :=
  (∀ (s : State) (j : JobId) (p : Plan) (exts : List (Nat × List Nat)) (rest : List (List (Nat × List Nat))),
    let b := s.dev.job j.val
    b.guardQ = exts :: rest → b.plan = some p → b.state = 2 → s.dev.guardsReady p = true → s.dev.jobHolds j.val = false →
    (∀ n sp, guardEval (guardRecs p.image) exts = .ok (n, sp) →
      ∃ t : State, exec (.guardIteration j) s = .next t ∧
      t = s.withDev { s.dev with fabric := t.dev.fabric, jobs := t.dev.jobs } ∧ (t.dev.job j.val).guardQ = rest ∧ (t.dev.job j.val).tag = (b.tag + n) % 2 ^ 20) ∧
    (∀ g dm, guardEval (guardRecs p.image) exts = .error (g, dm) →
      let k := b.dispatched.findIdx fun i => decide (i.chunks = 0)
      exec (.guardIteration j) s = .next (s.withDev
        (((s.dev.setJob j.val { b with guardQ := rest, dispatched := b.dispatched.eraseIdx k }).logErr s.time 0x2001 (job := j.val)).ingressRecord_
          s.time j.val 0x2001 { b.dispatched.getD k {} with tag := b.tag, guard := g, dim := dm })))) ∧
  (∀ (s : State) (j : JobId), let b := s.dev.job j.val
    (b.guardQ = [] ∨ b.state ≠ 2 ∨ s.dev.jobHolds j.val = true ∨ (∀ p, b.plan = some p → s.dev.guardsReady p = false)) →
    exec (.guardIteration j) s = .next s) ∧
  (∀ (gs : List GuardRec) (exts : List (Nat × List Nat)) (n : Nat) (sp : List Nat), guardEval gs exts = .ok (n, sp) →
    1 ≤ n ∧ n ≤ 4096 ∧ ((∀ g ∈ gs, g.over_ (extsOf exts g.id) = []) → n = 1 ∧ sp = [])) ∧
  (∀ (g : GuardRec) (e : List Nat) (splits : Bool) (c n : Nat),
    (∀ k, g.zeroDim e = some k → g.token e splits c n = (4, k * 1024, 0)) ∧
    (g.zeroDim e = none → (g.token e splits c n).1 = 5 ∧ ∀ k, k < 4 → k < g.ndim → (splits = false ∨ k ≠ g.splitDim) →
      ((g.token e splits c n).2.2.extractLsb' (32 * k) 32).toNat = e.getD k 0 % 2 ^ 32))

/-! ### Causeway -/

/-- R154, R182, R183, R346 to R351, R353, R355, R356: tokens of a causeway. One that the unit cannot take ends in its error; one that is out
of its key sequence, or whose queues' keys differ, stops the job with 0x2013, an empty token that does not begin a key, or a key that is
empty on one queue and not on another, with 0x2015, a label or a record that does not fit with 0x2014. A logit token in sequence is placed
in the staging slot of its row, or waits for one, a label token gives its labels to its rows, a token of a record joins what is
held of the record, and waits while the ring has no room; an empty token marks its key. R352, R353, R358 to R361: rows of a causeway.
The next whole teacher row becomes its record, which leaves, and is counted, a NaN row with its own count and one log entry; a whole student row with its
label and record gives its gradient and its losses, and after the last row of a key the two loss words leave and the key is finished; an
uncorrectable word of the record stops the job; an ignored label gives zeros; a row that is not ready lets only empty keys go on. Each
command counts the waits of R364. A record names its row, `K` and the vocabulary. States that these complete: CAUSEWAY_LOGIT,
CAUSEWAY_LABEL, SOFT_TARGET_RECORD, REDUCE_ROW, MATCH_ROW. -/
def Obligations.CausewayInputsAndRows : Prop :=
  (∀ (s : State) (i : IsleId) (p : Port) (cl : Cls),
     s.CwGated i p cl (.causewayLogit i p cl) (fun q => decide (q < 62)) ∧ s.CwGated i p cl (.causewayLabel i p cl) (fun q => decide (q = 62)) ∧
     s.CwGated i p cl (.softTargetRecord i p cl) (fun q => decide (q = 63))) ∧
  (∀ (s : State) (i : IsleId) (p : Port) (cl : Cls) (f : Flit) (j : Nat), s.dev.AtCauseway i.val p cl f j →
     let u := s.dev.cw i.val
     let c := cwRecOf u.record
     let q := f.queue
     let role := c.role q
     let key := f.tag / 2 ^ c.shift role
     let d := s.dev.takeFlit (cwNode i.val) p cl
     let fin (d : Dev) : Host.Outcome State Fault Refusal := .next (s.withDev (d.cwClock s.time i.val))
     (q < 62 → ∀ n start, u.keyStep c q key = some (n, start) →
       let cmd := exec (.causewayLogit i p cl) s
       let u1 : Causeway := if start then u.beginKey c q key n else u
       let u2 : Causeway := if f.kind = 4 ∧ start then
         (u1.setQ q { u1.q q with empty := true, tags := (u1.q q).tags ++ [(n, 0, BitVec.ofNat 20 f.tag)] }).addEmpty n role q else u1
       let full : Bool := decide (role = 1) && c.matcher && decide (c.slots ≤ n - u.nM)
       let clash : Bool := decide (f.kind = 4) && !start || u2.emptyClash c n
       (u2.rolesDiffer c = true → cmd = fin (d.cwErr s.time i.val 0x2013 q)) ∧
       (u2.rolesDiffer c = false → clash = true → cmd = fin (d.cwErr s.time i.val 0x2015 q)) ∧
       (u2.rolesDiffer c = false → clash = false → full = true → cmd = fin s.dev) ∧
       (u2.rolesDiffer c = false → clash = false → full = false →
         (f.kind = 4 → cmd = fin ((d.setCw i.val u2).cwGo i.val j)) ∧
         (f.kind = 0 → u2.slotFor c role n (u2.q q).row = none → cmd = fin s.dev))) ∧
     (q = 62 → (u.keyStep c 62 (f.tag / 2 ^ c.shS) = none →
         exec (.causewayLabel i p cl) s = fin (d.cwErr s.time i.val 0x2013 62)) ∧
       ∀ n start, u.keyStep c 62 (f.tag / 2 ^ c.shS) = some (n, start) →
       let cmd := exec (.causewayLabel i p cl) s
       let u1 : Causeway := if start then u.beginKey c 62 (f.tag / 2 ^ c.shS) n else u
       let u2 : Causeway := if f.kind = 4 ∧ start then (u1.setQ 62 { u1.q 62 with empty := true }).addEmpty n 2 62 else u1
       let clash : Bool := decide (f.kind = 4) && !start || u2.emptyClash c n
       let labels := ((List.range 8).map fun k => (8 * (u2.q 62).tok + k, (f.payload.extractLsb' (32 * k) 32).toNat)).filter fun e => decide (e.1 < c.r)
       (u2.rolesDiffer c = true → cmd = fin (d.cwErr s.time i.val 0x2013 62)) ∧
       (u2.rolesDiffer c = false → clash = true → cmd = fin (d.cwErr s.time i.val 0x2015 62)) ∧
       (u2.rolesDiffer c = false → clash = false → f.kind = 4 → cmd = fin ((d.setCw i.val u2).cwGo i.val j)) ∧
       (u2.rolesDiffer c = false → clash = false → f.kind = 0 → (∃ e ∈ labels, c.v ≤ e.2 ∧ e.2 ≠ 0xFFFFFFFF) →
         cmd = fin (d.cwErr s.time i.val 0x2014 62))) ∧
     (q = 63 → (u.keyStep c 63 (f.tag / 2 ^ c.shT) = none →
         exec (.softTargetRecord i p cl) s = fin (d.cwErr s.time i.val 0x2013 63)) ∧
       ∀ n start, u.keyStep c 63 (f.tag / 2 ^ c.shT) = some (n, start) →
       let cmd := exec (.softTargetRecord i p cl) s
       let u1 : Causeway := if start then u.beginKey c 63 (f.tag / 2 ^ c.shT) n else u
       let b := u1.partialRec ++ payBytes f.payload
       let u2 : Causeway :=
         ({ u1.setQ 63 { u1.q 63 with row := (u1.q 63).row + 1, empty := true } with partialRec := [] } : Causeway).addEmpty n 3 63
       (u1.rolesDiffer c = true → cmd = fin (d.cwErr s.time i.val 0x2013 63)) ∧
       (u1.rolesDiffer c = false → c.slots ≤ n - u.nM → cmd = fin s.dev) ∧
       (u1.rolesDiffer c = false → n - u.nM < c.slots → f.kind = 4 →
         (u2.emptyClash c n = true ∨ start = false → cmd = fin (d.cwErr s.time i.val 0x2015 63)) ∧
         (u2.emptyClash c n = false → start = true → cmd = fin ((d.setCw i.val u2).cwGo i.val j))) ∧
       (u1.rolesDiffer c = false → n - u.nM < c.slots → f.kind = 0 → bit (fieldAt b 6 2) 1 = true →
         (c.recordOk b (u1.q 63).row = false → cmd = fin (d.cwErr s.time i.val 0x2014 63)) ∧
         (c.recordOk b (u1.q 63).row = true → (u2.emptyClash c n = true ∨ start = false) → cmd = fin (d.cwErr s.time i.val 0x2015 63)) ∧
         (c.recordOk b (u1.q 63).row = true → u2.emptyClash c n = false → start = true →
           cmd = fin (((d.setCw i.val u2).ringStore i.val c n (u1.q 63).row b).cwGo i.val j))))) ∧
  (∀ (s : State) (i : IsleId) (p : Port) (cl : Cls) (f : Flit) (j : Nat), s.dev.AtCauseway i.val p cl f j →
     let u := s.dev.cw i.val
     let c := cwRecOf u.record
     let q := f.queue
     let d := s.dev.takeFlit (cwNode i.val) p cl
     let seq (start : Bool) (n : Nat) : Causeway := if start then u.beginKey c q (f.tag / 2 ^ c.shift (c.role q)) n else u
     (q < 62 → u.keyStep c q (f.tag / 2 ^ c.shift (c.role q)) = none →
       exec (.causewayLogit i p cl) s = .next (s.withDev ((d.cwErr s.time i.val 0x2013 q).cwClock s.time i.val))) ∧
     (∀ n start k, q < 62 → u.keyStep c q (f.tag / 2 ^ c.shift (c.role q)) = some (n, start) → f.kind = 0 →
       (seq start n).rolesDiffer c = false → (seq start n).emptyClash c n = false → (c.role q = 1 → c.matcher = true → n - u.nM < c.slots) →
       (seq start n).slotFor c (c.role q) n ((seq start n).q q).row = some k →
       exec (.causewayLogit i p cl) s = .next (s.withDev ((d.setCw i.val ((seq start n).place c (c.role q) q n k f)).cwClock s.time i.val))) ∧
     (∀ n start, q = 62 → u.keyStep c q (f.tag / 2 ^ c.shS) = some (n, start) → f.kind = 0 →
       let v : Causeway := if start then u.beginKey c 62 (f.tag / 2 ^ c.shS) n else u
       let labels := ((List.range 8).map fun k => (8 * (v.q 62).tok + k, (f.payload.extractLsb' (32 * k) 32).toNat)).filter fun e => decide (e.1 < c.r)
       v.rolesDiffer c = false → v.emptyClash c n = false → (∀ e ∈ labels, e.2 < c.v ∨ e.2 = 0xFFFFFFFF) →
       ∃ d' : Dev, exec (.causewayLabel i p cl) s = .next (s.withDev (d'.cwClock s.time i.val)) ∧
         d' = { s.dev with fabric := d'.fabric, cause := d'.cause } ∧
         (d'.cw i.val).labels = labels.foldl (fun m e => mput 0 m (n * 16384 + e.1) (e.2 + 1)) v.labels ∧
         mget 0 (d'.cw i.val).labelToks n = (v.q 62).tok + 1 ∧ ((d'.cw i.val).q 62).tok = (v.q 62).tok + 1) ∧
     (∀ n start, q = 63 → u.keyStep c q (f.tag / 2 ^ c.shT) = some (n, start) → f.kind = 0 →
       let v : Causeway := if start then u.beginKey c 63 (f.tag / 2 ^ c.shT) n else u
       let b := v.partialRec ++ payBytes f.payload
       v.rolesDiffer c = false → n - u.nM < c.slots → bit (fieldAt b 6 2) 1 = false →
       (b.length < c.recBytes → exec (.softTargetRecord i p cl) s = .next (s.withDev ((d.setCw i.val { v with partialRec := b }).cwClock s.time i.val))) ∧
       (c.recBytes ≤ b.length → c.recordOk b (v.q 63).row = false →
         exec (.softTargetRecord i p cl) s = .next (s.withDev ((d.cwErr s.time i.val 0x2014 63).cwClock s.time i.val))) ∧
       (c.recBytes ≤ b.length → c.recordOk b (v.q 63).row = true →
         let w : Causeway := { v.setQ 63 { v.q 63 with row := (v.q 63).row + 1, empty := false } with partialRec := [] }
         w.emptyClash c n = false →
         exec (.softTargetRecord i p cl) s = .next (s.withDev ((((d.setCw i.val w).ringStore i.val c n (v.q 63).row b).cwGo i.val j).cwClock s.time i.val))))) ∧
  ((∀ (s : State) (i : IsleId) (k : Fin 4) (j : Nat), let u := s.dev.cw i.val
     let c := cwRecOf u.record
     let g := mget {} u.slots k.val
     let row := reduceRow c g.row (g.row16 c.v)
     u.job = some j → g.role = 1 → c.v / 16 ≤ g.got → g.key = u.nextKey → g.row = u.nextRow → s.dev.jobStopped j = false →
     s.dev.recordReady i.val j c = true → row.2 = false →
     let d1 := (s.dev.recordOut i.val j c g.key g.row row.1).bump 0x2A00 (0x10 + i.val) 1
     exec (.reduceRow i k) s = .next (s.withDev (((d1.setCw i.val { d1.cw i.val with
       slots := mput {} (d1.cw i.val).slots k.val {}, nextRow := if c.r ≤ g.row + 1 then 0 else g.row + 1,
       nextKey := if c.r ≤ g.row + 1 then g.key + 1 else g.key }).cwGo i.val j).cwClock s.time i.val))) ∧
   (∀ (s : State) (i : IsleId) (k : Fin 4) (j : Nat), let u := s.dev.cw i.val
     let c := cwRecOf u.record
     let g := mget {} u.slots k.val
     let row := reduceRow c g.row (g.row16 c.v)
     u.job = some j → g.role = 1 → c.v / 16 ≤ g.got → g.key = u.nextKey → g.row = u.nextRow → s.dev.jobStopped j = false →
     s.dev.recordReady i.val j c = true → row.2 = true →
     let d1 := (s.dev.recordOut i.val j c g.key g.row row.1).bump 0x2A00 (0x10 + i.val) 1
     let d3 := (d1.setCw i.val { d1.cw i.val with
       slots := mput {} (d1.cw i.val).slots k.val {}, nextRow := if c.r ≤ g.row + 1 then 0 else g.row + 1,
       nextKey := if c.r ≤ g.row + 1 then g.key + 1 else g.key, nanLogged := true }).bump 0x2A00 (0x18 + i.val) 1
     (u.nanLogged = true → exec (.reduceRow i k) s = .next (s.withDev ((d3.cwGo i.val j).cwClock s.time i.val))) ∧
     (u.nanLogged = false → exec (.reduceRow i k) s = .next (s.withDev
       (((d3.logErr s.time 0x0160 (job := j) (die := i.val) (unit := 3) (wh := 6)).cwGo i.val j).cwClock s.time i.val)))) ∧
   (∀ (s : State) (i : IsleId) (k : Fin 4), let u := s.dev.cw i.val
     let c := cwRecOf u.record
     let g := mget {} u.slots k.val
     (u.job = none → exec (.reduceRow i k) s = .next (s.withDev (s.dev.cwClock s.time i.val))) ∧
     (∀ j, u.job = some j → s.dev.jobStopped j = true → exec (.reduceRow i k) s = .next (s.withDev (s.dev.cwClock s.time i.val))) ∧
     (∀ j, u.job = some j → s.dev.jobStopped j = false →
       (g.role ≠ 1 ∨ g.got < c.v / 16 ∨ g.key ≠ u.nextKey ∨ g.row ≠ u.nextRow ∨ s.dev.recordReady i.val j c = false) →
       exec (.reduceRow i k) s = .next (s.withDev ((s.dev.cwGo i.val j).cwClock s.time i.val)))) ∧
   (∀ (s : State) (i : IsleId) (k : Fin 4) (e : Ecc), let u := s.dev.cw i.val
     s.dev.matchReady i.val k.val = false →
     (u.job.any s.dev.jobStopped = true →
       exec (.matchRow i { val := k, ecc := e }) s = .next (s.withDev (s.dev.cwClock s.time i.val))) ∧
     (u.job.any s.dev.jobStopped = false →
       exec (.matchRow i { val := k, ecc := e }) s = .next (s.withDev ((s.dev.cwGo i.val (u.job.getD 0)).cwClock s.time i.val)))) ∧
   (∀ (c : CwRec) (row : Nat) (z : List W16), c.k ≤ z.length → c.k < 2 ^ 16 → row < 2 ^ 32 → c.v < 2 ^ 32 →
     (reduceRow c row z).1.length = c.recBytes ∧ fieldAt (reduceRow c row z).1 0 4 = row ∧ fieldAt (reduceRow c row z).1 4 2 = c.k ∧
       fieldAt (reduceRow c row z).1 16 4 = c.v) ∧
   (∀ (s : State) (i : IsleId) (k : Fin 4) (e : Ecc), let u := s.dev.cw i.val
     let c := cwRecOf u.record
     let g := mget {} u.slots k.val
     let y := mget 0 u.labels (g.key * 16384 + g.row) - 1
     let tag := u.tagOf (c.dzQueues.headD 0) g.key g.row
     let cmd := exec (.matchRow i { val := k, ecc := e }) s
     let lagoon := (s.dev.ringEntryOf i.val c (g.key % max 1 c.slots) g.row).1
     let word (d : Dev) (sq : Nat) (w : W256) : Dev := d.cwSend i.val (c.routes.getD c.lroute 0) (u.lossTag c) 3 (16 + sq) w
     let ended (d : Dev) : Dev :=
       if g.row + 1 < c.r then d
       else let d4 := word (word d 0 (d.cw i.val).kl) 1 (d.cw i.val).ce
            (d4.setCw i.val ((d4.cw i.val).finishKey c)).cwGo i.val (u.job.getD 0)
     s.dev.matchReady i.val k.val = true →
     (y ≠ 0xFFFFFFFF → e.bad = false →
       let d0 := (s.dev.lagEcc s.time lagoon e).2
       let m := matchRow c (g.row16 c.v) y (d0.ringLoad i.val c g.key g.row) u.kl u.ce
       let d := (((d0.sendDz i.val c g.key g.row m.1).bump 0x2A00 (0x14 + i.val) 1).aaReport s.time (some (u.job.getD 0)) i.val 3 6 tag
         m.2.2.2)
       cmd = .next (s.withDev ((ended (d.setCw i.val { d.cw i.val with
         slots := mput {} (d.cw i.val).slots k.val {}, rowsDone := g.row + 1, kl := m.2.1, ce := m.2.2.1 })).cwClock s.time i.val))) ∧
     (y ≠ 0xFFFFFFFF → e.bad = true →
       cmd = .next (s.withDev ((s.dev.lagError s.time lagoon 0x8005 0xFFFFFFFF).cwClock s.time i.val))) ∧
     (y = 0xFFFFFFFF →
       let d := ((s.dev.sendDz i.val c g.key g.row (List.replicate c.v 0)).bump 0x2A00 (0x14 + i.val) 1).bump 0x2A00 (0x1C + i.val) 1
       cmd = .next (s.withDev ((ended (d.setCw i.val { d.cw i.val with
         slots := mput {} (d.cw i.val).slots k.val {}, rowsDone := g.row + 1, kl := u.kl, ce := u.ce })).cwClock s.time i.val)))))

/-! ### Serving -/

/-- R367 to R370, R381, R393: entries of a submission ring, which a cancellation is too. One that is refused waits with its code for the
next boundary; a cancellation marks its request; an accepted submission makes its request, queued in the order of acceptance; where the
ring gives no entry, or the device is not in OP or leaves it, nothing happens. The walk of the oldest queued request takes the nodes it
matches; one whose reads do not all deliver takes none. R371 to R374, R384, R385: forming and staging. A step that forms takes at most
`BUDGET` rows and the next number; where no row results the allocations stay, where none may form nothing happens. A logit token takes
its 16 lanes of its row, or waits for a staging slot; one that the engine cannot take ends in 0x2014, and a stopped job's, one of
another epoch and one with a damaged payload as R154, R182 and R183 say. The mask of a staged row is fetched once. States that these
complete: SUBMIT, CANCEL, PREFIX_WALK, FORM_BATCH_STEP, MASK_LOGIT_TOKEN, MASK_FETCH. -/
def Obligations.ServingAdmissionAndSteps : Prop :=
  ((∀ (s : State) (r : RingId) (desc buf : List Byte) (gcmOk : Bool),
     let cmd := exec (.submit r desc buf gcmOk) s
     let j := s.dev.objN (0x2710 + r.val) 5
     let v := (s.dev.job j).srv
     let n := fieldAt desc 4 4
     let owe (c : Nat) : Owed := { stamp := s.time.ns, session := fieldAt desc 2 1, req := n, code := c }
     exec (.cancel r desc) s = exec (.submit r desc [] true) s ∧
     ((s.dev.takeEntry r.val 4 = none ∨ s.dev.pu.state ≠ .op ∨ s.dev.pu.toSafeop = true) → cmd = .next s) ∧
     ∀ d1, s.dev.takeEntry r.val 4 = some d1 → s.dev.pu.state = .op → s.dev.pu.toSafeop = false →
     (∀ c, s.dev.refusalOf j desc buf gcmOk = some c →
       cmd = .next (s.withDev ((d1.setServing j { v with owed := v.owed ++ [owe c] }).bump 0x2900 0x16 1))) ∧
     (s.dev.refusalOf j desc buf gcmOk = none →
       (bits (fieldAt desc 0 1) 3 0 = 1 ∨ bits (fieldAt desc 0 1) 3 0 = 2) ∧
       (bits (fieldAt desc 0 1) 3 0 = 1 → cmd = .next (s.withDev (d1.serve j fun d =>
         d.setServing j { v.setReq n (s.dev.newRequest s.time j desc buf) with nextOrder := v.nextOrder + 1 }))) ∧
       (bits (fieldAt desc 0 1) 3 0 = 2 → cmd = .next (s.withDev
         (d1.setServing j { v.setReq n { v.req n with cancel := true } with owed := v.owed ++ [owe 0] }))))) ∧
   (∀ (s : State) (j : JobId) (n : BitVec 18) (errs : HbmErrs), let v := (s.dev.job j.val).srv
     let q := v.req n.toNat
     let cmd := exec (.prefixWalk j { val := n, errs := errs }) s
     (s.dev.srvOf j.val = none ∨ q.state ≠ .queued ∨ v.reqs.any (fun e => decide (e.2.state = .queued ∧ e.2.order < q.order)) = true →
       cmd = .next s) ∧
     ∀ r, s.dev.srvOf j.val = some r → q.state = .queued → v.reqs.any (fun e => decide (e.2.state = .queued ∧ e.2.order < q.order)) = false →
     let reads := s.dev.readAll s.time j.val errs (v.walkReads r n.toNat q.tokens 0 0 ((q.plen - 1) / 16))
     (reads.1 = false → cmd = .next (s.withDev reads.2)) ∧
     (reads.1 = true → ∃ t : State, cmd = .next t ∧
       t = s.withDev { reads.2 with
           jobs := t.dev.jobs, hbms := t.dev.hbms, ctr := t.dev.ctr, groups := t.dev.groups, rings := t.dev.rings, log := t.dev.log,
           fabric := t.dev.fabric } ∧
       ((t.dev.job j.val).srv.req n.toNat).state = .prefill ∧
       ((t.dev.job j.val).srv.req n.toNat).nodes = v.walk r q.tokens 0 0 ((q.plen - 1) / 16) ∧
       ((t.dev.job j.val).srv.req n.toNat).kv = 16 * (v.walk r q.tokens 0 0 ((q.plen - 1) / 16)).length))) ∧
  ((∀ (s : State) (j : JobId), let b := s.dev.job j.val
     let cmd := exec (.formBatchStep j) s
     (b.plan = none ∨ s.dev.srvOf j.val = none ∨ s.dev.mayDispatch j.val = false ∨ s.dev.nv.backlog = true → cmd = .next s) ∧
     ∀ (r : SrvRec) (p : Plan), b.plan = some p → s.dev.srvOf j.val = some r → s.dev.mayDispatch j.val = true → s.dev.nv.backlog = false →
     let on : Bool := p.flag 0 && decide (s.dev.objN 0x2900 0x20 = 1)
     let dec := b.srv.ranked fun q => decide (q.state = .decode) && !q.inFlight && !q.paused
     let pre := b.srv.ranked fun q => decide (q.state = .prefill) && !q.inFlight
     let f := pre.foldl (fun f n => f.prefill r n) (dec.foldl (fun f n => f.decode r on n) ({ v := b.srv, left := r.budget } : Forming))
     (r.inflight ≤ b.srv.steps.length ∨ s.dev.guardsReady p = false → cmd = .next s) ∧
     (b.srv.steps.length < r.inflight → s.dev.guardsReady p = true → f.rows = [] →
       cmd = .next (s.withDev (((s.dev.setServing j.val f.v).bump 0x2900 0x17 f.evicted).syncTables j.val b.srv))) ∧
     (b.srv.steps.length < r.inflight → s.dev.guardsReady p = true → f.rows ≠ [] →
       ∃ (t : State) (st : BatchStep), cmd = .next t ∧
         t = s.withDev { s.dev with jobs := t.dev.jobs, ctr := t.dev.ctr, hbms := t.dev.hbms, masks := t.dev.masks, fabric := t.dev.fabric } ∧
         (t.dev.job j.val).srv.steps = f.v.steps ++ [st] ∧ st.step = f.v.nextStep ∧ (t.dev.job j.val).srv.nextStep = f.v.nextStep + 1 ∧
         st.rows.length = f.rows.length ∧ st.rows.length ≤ r.budget ∧ st.tag = b.tag)) ∧
   (∀ (s : State) (i : IsleId) (p : Port) (c : Cls), let u := s.dev.mask i.val
     let cmd := exec (.maskLogitToken i p c) s
     (s.dev.arrived (maskNode i.val) p c = none → cmd = .next s) ∧
     ∀ tr : Transit, s.dev.arrived (maskNode i.val) p c = some tr →
     let f := tr.flit
     let d := s.dev.takeFlit (maskNode i.val) p c
     let row := mget 0 u.queueRow f.queue
     let tok := mget 0 u.queueTok f.queue
     (u.job = none → cmd = .next (s.withDev (d.logErr s.time 0x2014 (die := i.val) (unit := 3) (wh := 7) (tag := f.queue)))) ∧
     ∀ j, u.job = some j →
     let stale : Bool := decide (f.epoch ≠ s.dev.ctrN (0x4000 + j) 0x13)
     let own : Bool := (s.dev.engineAt j i.val).any fun x => decide (f.queue < x.2.1) && decide (f.kind = 0) && decide (f.hi4 = 15)
     (s.dev.jobStopped j = true ∨ (stale = true ∧ s.dev.jobForced j = true) → cmd = .next (s.withDev (d.countDiscard j 1))) ∧
     (s.dev.jobStopped j = false → stale = true → s.dev.jobForced j = false →
       cmd = .next (s.withDev (d.jobError s.time j 0x2002 i.val 3 7 f.queue))) ∧
     (s.dev.jobStopped j = false → stale = false →
       (tr.bad = true → cmd = .next (s.withDev (d.jobError s.time j 0x8005 i.val 3 7 f.queue))) ∧
       (tr.bad = false → own = false → cmd = .next (s.withDev (d.jobError s.time j 0x2014 i.val 3 7 f.queue))) ∧
       (tr.bad = false → own = true → ∀ e nq r, s.dev.engineAt j i.val = some (e, nq, r) →
         let last : Bool := decide (r.v / max 1 nq / 16 ≤ tok + 1)
         let place := ((List.range 4).find? fun k => let x := mget ({} : Staging) u.slots k
                                                     decide (x.role = 1) && decide (x.row = row)).orElse fun _ =>
           (List.range 4).find? fun k => decide ((mget ({} : Staging) u.slots k).role = 0)
         (place = none → cmd = .next s) ∧
         (∀ k, place = some k → let g := mget ({} : Staging) u.slots k
           cmd = .next (s.withDev (d.setMask i.val { u with
             slots := mput {} u.slots k { g with
               role := 1, row := row, got := g.got + 1,
               logits := mputs 0 g.logits (f.queue * (r.v / max 1 nq) + 16 * tok) ((List.range 16).map fun l => f.payload.extractLsb' (16 * l) 16) },
             queueTok := mput 0 u.queueTok f.queue (if last then 0 else tok + 1),
             queueRow := mput 0 u.queueRow f.queue (if last then row + 1 else row) })))))) ∧
   (∀ (s : State) (i : IsleId) (k : Reads (Fin 4)), let u := s.dev.mask i.val
     let g := mget ({} : Staging) u.slots k.val.val
     let cmd := exec (.maskFetch i k) s
     (u.job = none ∨ g.role = 0 ∨ g.row ∈ u.masks → cmd = .next s) ∧
     ∀ j, u.job = some j → g.role ≠ 0 → g.row ∉ u.masks →
     (s.dev.jobStopped j = true ∨ s.dev.engineAt j i.val = none → cmd = .next s) ∧
     ∀ e nq r, s.dev.jobStopped j = false → s.dev.engineAt j i.val = some (e, nq, r) →
     let v := (s.dev.job j).srv
     (v.sampleRow e g.row = none → cmd = .next s) ∧
     ∀ n x, v.sampleRow e g.row = some (n, x) →
     let rows := (v.steps.getD n {}).rows
     let row := rows.getD x {}
     let q := v.req row.req
     let pa := (r.masks.getD (fieldAt q.params 21 1) (0, 0, 0)).1
     let m := s.dev.maskParts j r q (s.dev.rowState j r q rows row.req x)
     let size := ceilDiv r.v 256 * 32
     let key (o : Nat) : Nat := ((s.dev.job j).ha pa + o) / 32
     let miss : List (Nat × Nat) := m.2.elim [] fun o => if u.cache.contains (key o) then [] else [(o, size)]
     let reads := s.dev.readAll s.time j k.errs ((m.1 ++ miss).map fun x => (pa, x))
     (reads.1 = false → cmd = .next (s.withDev reads.2)) ∧
     (reads.1 = true → cmd = .next (s.withDev (reads.2.setMask i.val { u with
       masks := u.masks ++ [g.row],
       cache := m.2.elim u.cache fun o => (key o :: u.cache.filter fun a => decide (a ≠ key o)).take (262144 / size) })))))

/-- R375, R386, R389 to R392: sampling and completion. A sample row that is whole, has its mask and is the next of its engine is verified
into the entry of its request, which its last row writes; any other waits. A complete step of a job that is not stopping leaves, its
number is recorded; a step that is not complete stays. A boundary with no step in flight answers every refusal that waits; with one in
flight, or while the job stops, it does nothing. States that these complete: SAMPLE_ROW, STEP_COMPLETE, BOUNDARY. -/
def Obligations.ServingResults : Prop :=
  (∀ (s : State) (i : IsleId) (k : Fin 4), let u := s.dev.mask i.val
    let g := mget ({} : Staging) u.slots k.val
    let cmd := exec (.sampleRow i k) s
    (u.job = none ∨ g.role = 0 ∨ g.row ∉ u.masks → cmd = .next s) ∧
    ∀ j, u.job = some j → (s.dev.engineAt j i.val = none ∨ s.dev.jobStopped j = true → cmd = .next s) ∧
    ∀ e nq r, s.dev.engineAt j i.val = some (e, nq, r) →
    let v := (s.dev.job j).srv
    (v.sampleRow e g.row = none ∨ g.got < r.v / 16 ∨ (g.row ≠ 0 ∧ v.sampleRow e (g.row - 1) ≠ none) → cmd = .next s) ∧
    ∀ n x, v.sampleRow e g.row = some (n, x) → g.role ≠ 0 → r.v / 16 ≤ g.got →
    (g.row ≠ 0 → v.sampleRow e (g.row - 1) = none) → g.row ∈ u.masks → s.dev.jobStopped j = false →
    let st := v.steps.getD n {}
    let row := st.rows.getD x {}
    let at_ := st.results.findIdx fun y => decide (y.req = row.req)
    let y := s.dev.verifyRow j r (v.req row.req) (st.results.getD at_ {}) row st.rows[x + 1]? (g.row16 r.v)
    let rows := listSet st.rows x { row with done := true }
    let d1 := (s.dev.setServing j { v with steps := listSet v.steps n { st with
      rows := rows, results := listSet st.results at_ y, sampled := st.sampled + 1, lastAt := s.time.ns } }).setMask i.val { u with
        slots := mput {} u.slots k.val {}, masks := u.masks.filter fun m => decide (m ≠ g.row) }
    let last := rows.all fun z => z.done || !z.sample || decide (z.req ≠ row.req)
    (last = false → cmd = .next (s.withDev d1)) ∧
    (last = true → cmd = .next (s.withDev
      (d1.jobWrite s.time j (r.addr 4) ((st.step % max 1 r.inflight * r.budget + at_) * 64) y.bytes)))) ∧
  (∀ (s : State) (j : JobId), let b := s.dev.job j.val
    (b.srv.steps = [] ∨ s.dev.srvOf j.val = none ∨ b.stopping = true ∨ ¬ (2 ≤ b.state ∧ b.state ≤ 5) → exec (.stepComplete j) s = .next s) ∧
    ∀ st rest, b.srv.steps = st :: rest →
    (st.complete = false → exec (.stepComplete j) s = .next s) ∧
    ∀ r, s.dev.srvOf j.val = some r → st.complete = true → b.stopping = false → 2 ≤ b.state → b.state ≤ 5 →
    ∃ (t : State) (more : List BatchStep), exec (.stepComplete j) s = .next t ∧
      t = s.withDev { s.dev with
          free := t.dev.free, ctr := t.dev.ctr, rings := t.dev.rings, nv := t.dev.nv, log := t.dev.log, jobs := t.dev.jobs,
          hbms := t.dev.hbms, masks := t.dev.masks, fabric := t.dev.fabric } ∧ (t.dev.job j.val).srv.steps = rest ++ more ∧
      t.dev.ctrN (0x4000 + j.val) 0x44 = st.step) ∧
  (∀ (s : State) (j : JobId), let b := s.dev.job j.val
    (b.srv.steps ≠ [] ∨ b.stopping = true → exec (.boundary j) s = .next s) ∧
    (b.srv.steps = [] → b.stopping = false →
    ∃ t : State, exec (.boundary j) s = .next t ∧
      t = s.withDev { s.dev with
          free := t.dev.free, ctr := t.dev.ctr, rings := t.dev.rings, nv := t.dev.nv, log := t.dev.log, jobs := t.dev.jobs,
          hbms := t.dev.hbms, masks := t.dev.masks, fabric := t.dev.fabric } ∧ ∀ o ∈ (t.dev.job j.val).srv.owed, o.code = 0))

/-- R386: the token of a row is one that its mask allows and whose logit is a number above minus infinity; there is none only where no id is such; with `INVT` 0 it is one of the highest logit. -/
def Obligations.SampledTokenIsAllowed : Prop :=
  ∀ (z : List W16) (mask : List Bool) (p : List Byte) (pos : Nat),
    let ok (id : Nat) : Prop := mask[id]? = some true ∧ ∃ x, z[id]? = some x ∧ x.toNat % 2 ^ 15 ≤ 0x7F80 ∧ x ≠ 0xFF80
    (∀ id, sampleToken z mask p pos = some id → ok id) ∧ (sampleToken z mask p pos = none ↔ ∀ id, ¬ ok id) ∧
    (∀ id k, fieldAt p 8 4 = 0 → sampleToken z mask p pos = some id → ok k → rankOf (z.getD k 0) ≤ rankOf (z.getD id 0))

/-! ### Straits -/

/-- R403 to R408, R410, R411, R413, R549: strait links. A frame that fails its tag, or has a codeword that the code cannot correct, and the
first that is not the one expected, are answered with a NAK; the expected one advances the sequence, and what it holds of a record that is
not whole is kept; a record in the stream is read back as it was written. A NAK resends, the eighth retrains; the third retrain, or one that
fails, loses the link; one failing lane is spared, a second loses the link; a rekey takes the next key set; a link that trains with its
session is up, and offers the slots of its pools; one whose session fails stays down. On a link that is not up, and where there is nothing to
do, a command leaves everything but the error counters of a frame. States that these complete: STRAIT_FRAME_RECEIVE, STRAIT_NAK,
STRAIT_RETRAIN_END, STRAIT_LANE_FAIL, STRAIT_REKEY, STRAIT_LINK_TRAINED. -/
def Obligations.StraitLinks : Prop :=
  (∀ (s : State) (l : LinkId) (f : StraitFrame) (tagOk : Bool) (errs : List (List (Fin 544))) (map : Option (Fin 9)),
    let es := errs.map fun c => c.map (·.val)
    let k := s.dev.lnk l.val
    let d1 := (s.dev.bump 0x2B00 (0x30 + l.val) (fixedWords es).length).bump 0x2B00 (0x40 + l.val) (badWords es)
    let d := if badWords es = 0 then d1.setLnk l.val { k with txSpared := (map.map (·.val)).getD 15 } else d1
    (k.state ≠ .up ∨ k.prbs = true → exec (.straitFrameReceive l f tagOk errs map) s = .next (s.withDev d1)) ∧
    (k.state = .up → k.prbs = false →
    ((tagOk = false ∨ badWords es ≠ 0) → exec (.straitFrameReceive l f tagOk errs map) s = .next (s.withDev
      (((d.setLnk l.val { d.lnk l.val with nakOut := true, discarding := true }).flushLink l.val).laneErrors s.time l.val (fixedWords es)))) ∧
    (tagOk = true → badWords es = 0 → f.fseq.toNat ≠ k.expect → exec (.straitFrameReceive l f tagOk errs map) s = .next (s.withDev
      (((d.setLnk l.val { d.lnk l.val with nakOut := k.nakOut || !k.discarding, discarding := true }).flushLink l.val).laneErrors s.time
        l.val (fixedWords es)))) ∧
    (tagOk = true → badWords es = 0 → f.fseq.toNat = k.expect →
      ∃ t : State, exec (.straitFrameReceive l f tagOk errs map) s = .next (t.withDev (t.dev.laneErrors s.time l.val (fixedWords es))) ∧
      t = s.withDev { s.dev with
        ctr := t.dev.ctr, links := t.dev.links, jobs := t.dev.jobs, log := t.dev.log, fabric := t.dev.fabric, cause := t.dev.cause,
        free := t.dev.free } ∧
      (t.dev.lnk l.val).expect = (k.expect + 1) % 4096 ∧ (t.dev.lnk l.val).rxc = f.txc.toNat ∧
      (t.dev.lnk l.val).txSpared = (map.map (·.val)).getD 15 ∧ (t.dev.lnk l.val).rkeysel = f.keysel ∧
      (t.dev.lnk l.val).rxPart = (takeRecords 256 (k.rxPart ++ f.payload)).2 ∧
      (t.dev.lnk l.val).discarding = false ∧ (t.dev.lnk l.val).state = .up))) ∧
  (∀ (d : Dev) (t : TimeBase) (l : Nat), d.laneErrors t l [] = d) ∧
  (∀ (r : StraitRecord) (l : List StraitBeat), 1 ≤ r.payloads.length → r.payloads.length ≤ 256 → r.rt ≠ 15 →
    takeRecords 256 (recordBeats r ++ l) = (r :: (takeRecords 255 l).1, (takeRecords 255 l).2)) ∧
  (∀ (s : State) (l : LinkId), let k := s.dev.lnk l.val
    (k.nakIn = false ∨ k.retraining.isSome = true ∨ k.state ≠ .up → exec (.straitNak l) s = .next s) ∧
    (k.nakIn = true → k.retraining = none → k.state = .up →
    (k.naks + 1 < 8 → exec (.straitNak l) s = .next (s.withDev
      ((s.dev.setLnk l.val { k with nakIn := false, naks := k.naks + 1 }).resend l.val))) ∧
    (8 ≤ k.naks + 1 → exec (.straitNak l) s = .next (s.withDev
      (s.dev.setLnk l.val { k with nakIn := false, naks := 0, retraining := some s.time.elapsed }))))) ∧
  (∀ (s : State) (l : LinkId) (ok : Bool), let k := s.dev.lnk l.val
    (k.retraining = none → exec (.straitRetrainEnd l ok) s = .next s) ∧
    (k.retraining.isSome = true →
    (ok = false ∨ 3 ≤ k.retrains + 1 → exec (.straitRetrainEnd l ok) s = .next (s.withDev (s.dev.linkDown s.time l.val))) ∧
    (ok = true → k.retrains + 1 < 3 → exec (.straitRetrainEnd l ok) s = .next (s.withDev
      (((s.dev.setLnk l.val { k with retraining := none, retrains := k.retrains + 1 }).resend l.val).flushLink l.val))))) ∧
  (∀ (s : State) (l : LinkId) (lane : Fin 9), let k := s.dev.lnk l.val
    (k.state ≠ .up ∨ k.spared = lane.val → exec (.straitLaneFail l lane) s = .next s) ∧
    (k.state = .up →
    (k.spared = 15 → exec (.straitLaneFail l lane) s = .next (s.withDev
      (((s.dev.setLnk l.val { k with spared := lane.val }).setRails).logErr s.time 0x4001 (die := linkDie l.val) (unit := 6) (wh := l.val)
        (detail := lane.val)))) ∧
    (k.spared ≠ 15 → k.spared ≠ lane.val → exec (.straitLaneFail l lane) s = .next (s.withDev (s.dev.linkDown s.time l.val))))) ∧
  (∀ (s : State) (l : LinkId), let k := s.dev.lnk l.val
    (k.state ≠ .up ∨ k.txc < k.rekeyAt → exec (.straitRekey l) s = .next s) ∧
    (k.state = .up → k.rekeyAt ≤ k.txc → ∃ v : BitVec 384, exec (.straitRekey l) s = .next (s.withDev ((s.dev.fresh 384).2.setLnk l.val { k with
      keysel := !k.keysel, keySet := k.keySet + 1, txc := 0, rekeyAt := s.dev.objN 0x2B00 5, secret := v })))) ∧
  (∀ (s : State) (l : LinkId) (lanes : List (Fin 9)) (peer : List Byte), let k := s.dev.lnk l.val
    (k.state = .up ∨ k.prbs = true → ∀ ok, exec (.straitLinkTrained l lanes ok peer) s = .next s) ∧
    (k.state ≠ .up → k.prbs = false →
    (2 ≤ lanes.length → ∀ ok, exec (.straitLinkTrained l lanes ok peer) s = .next (s.withDev
      ((s.dev.setLnk l.val { k with state := .down }).setRails))) ∧
    (lanes.length ≤ 1 → ∃ t : State, exec (.straitLinkTrained l lanes true peer) s = .next t ∧
      t = s.withDev { s.dev with links := t.dev.links, ctr := t.dev.ctr, free := t.dev.free, fabric := t.dev.fabric } ∧
      (t.dev.lnk l.val).state = .up ∧ (t.dev.lnk l.val).peer = padTo 48 peer ∧ (t.dev.lnk l.val).expect = 0 ∧
      (t.dev.lnk l.val).held = k.held ∧ (t.dev.lnk l.val).spared = (lanes.head?.map (·.val)).getD 15 ∧
      (∀ q ∈ s.dev.inPools, q.2 ≤ mget 0 (t.dev.lnk l.val).offered q.1)) ∧
    (lanes.length ≤ 1 → exec (.straitLinkTrained l lanes false peer) s = .next (s.withDev
      ((((s.dev.setLnk l.val { k with state := .down }).setRails).logErr s.time 0x5001 (die := linkDie l.val) (unit := 6)
        (wh := l.val)).bump 0x2500 6 1)))))

/-- R419, R420, R422 to R425, R427, R429, R430: channels and collectives. A flit at U0 that no plan uses, that the gates of R154 and R183
turn away, or of a kind that its queue does not accept, ends as they say. A channel token leaves as one record on the link of its flow, or
waits; a command starts its instance, or waits for what it lacks; one of a bucket that is not here, or of a permute bucket, starts
none. The first collective record of a link that can be taken is: one of a bucket that the plan does not have is discarded, and stops
the job as a header does; one of a started instance is applied, one that comes before goes to `STAGE`; one past its bucket's tag is
discarded; else it waits. A backup copy is used when the primary is late; a whole instance ends with its completion token; one that lacks
a contribution for too long stops the job; a permute that is whole copies `STAGE` into `DST`; before its time each of these does
nothing. States that these complete: U0_CHANNEL_TOKEN, COLLECTIVE_COMMAND, COLLECTIVE_RECORD, BKP_WAIT_EXPIRY, COLLECTIVE_COMPLETE,
COLLECTIVE_TIMEOUT, PERMUTE_COMPLETE. -/
def Obligations.ChannelsAndCollectives : Prop :=
  (∀ (s : State) (i : IsleId) (p : Port) (c : Cls), s.U0Gated i p c (.u0ChannelToken i p c) (fun q => decide (q < 48)) [0, 3, 4, 5] ∧
    ∀ errs, s.U0Gated i p c (.collectiveCommand { val := i, errs := errs } p c) (fun q => decide (48 ≤ q) && decide (q ≤ 61)) [0]) ∧
  (∀ (s : State) (i : IsleId) (p : Port) (c : Cls) (f : Flit) (j : Nat) (pl : Plan) (cr : CollRec),
    let m := (s.dev.job j).mem
    let cmd := exec (.u0ChannelToken i p c) s
    let out := cr.outs.find? fun x => decide (rotIsle pl.rho x.isle = i.val ∧ x.queue = f.queue)
    s.dev.AtU0 i.val p c f j pl cr → f.queue < 48 → (f.kind = 0 ∨ f.kind = 3 ∨ f.kind = 4 ∨ f.kind = 5) →
    (out = none ∨ m.own pl.meas = none ∨ m.d = 0 ∨ (m.own pl.meas).any (fun x => decide (x.role = 2)) = true → cmd = .next s) ∧
    ∀ o own, out = some o → m.own pl.meas = some own → m.d ≠ 0 → own.role ≠ 2 →
    let r := channelRecord m o.ch f
    let way := ((cr.peers[o.peer]?).bind fun e => m.idOf (peerRank m own.at_ e)).bind fun id => s.dev.flowLink i.val id r 0 (o.ch + m.fjh)
    (way = none → cmd = .next s) ∧
    ∀ l d1, way = some (l, d1) →
      (d1.canLeave i.val l r = false → cmd = .next s) ∧
      (d1.canLeave i.val l r = true → cmd = .next (s.withDev ((d1.takeFlit (u0Node i.val) p c).queueAt i.val l [r])))) ∧
  (∀ (s : State) (i : IsleId) (errs : HbmErrs) (p : Port) (c : Cls) (f : Flit) (j : Nat) (pl : Plan) (cr : CollRec),
    let bucket := bits (payWord f.payload 0) 15 0
    let x := s.dev.job j
    let cmd := exec (.collectiveCommand { val := i, errs := errs } p c) s
    let d := (s.dev.setJob j { x with collTags := mput 0 x.collTags bucket (f.tag % 2 ^ 20 + 1) }).takeFlit (u0Node i.val) p c
    s.dev.AtU0 i.val p c f j pl cr → 48 ≤ f.queue → f.queue ≤ 61 → f.kind = 0 →
    (pl.bucket bucket = none → cmd = .next (s.withDev (s.dev.takeFlit (u0Node i.val) p c))) ∧
    ∀ b, pl.bucket bucket = some b →
    (b.op = 4 ∨ rotIsle pl.rho b.isle ≠ i.val → cmd = .next (s.withDev (s.dev.takeFlit (u0Node i.val) p c))) ∧
    (b.op ≠ 4 → rotIsle pl.rho b.isle = i.val →
      let may : Prop := x.mem.d ≠ 0 ∧ s.dev.regionsOpen j b = true ∧
        ∃ own, x.mem.own pl.meas = some own ∧ own.role ≠ 2 ∧ s.dev.startRoom j b x.mem own = true
      let fresh : Instance := { job := j, bucket := bucket, tag := BitVec.ofNat 20 f.tag }
      (s.dev.permuting j = true → cmd = .next (s.withDev (s.dev.permuteDue s.time j errs))) ∧
      (s.dev.permuting j = false → ¬ may → cmd = .next s) ∧
      (s.dev.permuting j = false → may →
        (s.dev.findInst j bucket f.tag = none → s.dev.freeInst i.val = none → cmd = .next s) ∧
        (∀ n, s.dev.findInst j bucket f.tag = none → s.dev.freeInst i.val = some n →
          cmd = .next (s.withDev (d.collStart s.time n fresh errs))) ∧
        (∀ n y, s.dev.findInst j bucket f.tag = some (n, y) →
          (y.done = true → cmd = .next (s.withDev (d.collStart s.time n fresh errs))) ∧
          (y.done = false → y.started.isSome = true → cmd = .next s) ∧
          (y.done = false → y.started = none → cmd = .next (s.withDev (d.collStart s.time n y errs))))))) ∧
  (∀ (s : State) (l : LinkId) (errs : HbmErrs),
    let d := s.dev.settle s.time l.val
    ((∀ i, i < (d.lnk l.val).held.length → d.collTakes s.time l.val errs i = none) →
      exec (.collectiveRecord { val := l, errs := errs }) s = .next (s.withDev d)) ∧
    (∀ i d1, d.collTakes s.time l.val errs i = some d1 → (∀ k, k < i → d.collTakes s.time l.val errs k = none) →
      exec (.collectiveRecord { val := l, errs := errs }) s = .next (s.withDev (d1.flushLink l.val)))) ∧
  (∀ (d : Dev) (t : TimeBase) (l j i : Nat) (errs : HbmErrs) (r : StraitRecord) (p : Plan),
    let gone := d.recordGone l i r
    (p.bucket r.ch.toNat = none → r.phase ≠ 15 → d.recordAt t l j i r p errs = some gone) ∧
    (p.bucket r.ch.toNat = none → r.phase = 15 → d.recordAt t l j i r p errs = some (gone.jobError t j 0x4004 (linkDie l) 6 l r.tag.toNat)) ∧
    ∀ b, p.bucket r.ch.toNat = some b →
    (d.regionsOpen j b = false → d.recordAt t l j i r p errs = none) ∧
    (d.regionsOpen j b = true → d.instOf j b r = none → b.op ≠ 4 → (d.job j).tagPassed b.bucket r.tag = true →
      d.recordAt t l j i r p errs = some gone) ∧
    (∀ n x, d.regionsOpen j b = true → d.instOf j b r = some (n, x) →
      (r.phase = 15 → d.recordAt t l j i r p errs = some (gone.collHeader t n l j p r)) ∧
      (∀ e, r.phase ≠ 15 → x.started.isSome = true → gone.eng x errs = some e → gone.canApply e x (d.lnk l).peer r = true →
        d.recordAt t l j i r p errs = some (((gone.collApply t n (d.lnk l).peer r errs).drainEarly t n errs).reap n)) ∧
      (r.phase ≠ 15 → x.started = none → gone.stagePlace j b r.payloads.length = none → d.recordAt t l j i r p errs = none) ∧
      (∀ a e, r.phase ≠ 15 → x.started = none → gone.stagePlace j b r.payloads.length = some a →
        let d1 := (gone.stageClear j b r.payloads.length).setInst n (some { x with
          early := x.early ++ [{ r := { r with payloads := [] }, peer := (d.lnk l).peer, at_ := a, len := r.payloads.length }] })
        d1.eng x errs = some e → d.recordAt t l j i r p errs = some (d1.stageWrite t e a r.payloads)))) ∧
  (∀ (s : State) (n : Fin 4096) (errs : HbmErrs) (rank : W16),
    let late (x : Instance) (at_ : Nat) : Prop := (x.copy rank.toNat false).doneAt = none ∧ (x.copy rank.toNat true).doneAt = some at_ ∧
      at_ + x.wait * 1000 < s.time.elapsed ∧ (x.copy rank.toNat true).used = false
    (∀ x e at_, s.dev.inst n.val = some x → s.dev.eng x errs = some e → late x at_ →
      exec (.bkpWaitExpiry { val := n, errs := errs } rank) s = .next (s.withDev (s.dev.useCopy s.time e n.val rank.toNat true))) ∧
    ((¬ ∃ x e at_, s.dev.inst n.val = some x ∧ s.dev.eng x errs = some e ∧ late x at_) →
      exec (.bkpWaitExpiry { val := n, errs := errs } rank) s = .next s)) ∧
  (∀ (s : State) (n : Fin 4096),
    let whole (x : Instance) (e : Eng) : Prop := e.b.op ≠ 4 ∧ x.complete e = true ∧ s.dev.canInject (u0Node e.isle) 0 = true
    (∀ x e, s.dev.inst n.val = some x → s.dev.eng x = some e → whole x e →
      ∃ t : State, exec (.collectiveComplete n) s = .next t ∧
      t = s.withDev { s.dev with colls := t.dev.colls, flows := t.dev.flows, fabric := t.dev.fabric } ∧
      (x.awaits e = false → t.dev.inst n.val = none) ∧
      t.dev.fabric = (s.dev.inject (u0Node e.isle)
        { hdr := routeHdr (e.p.route e.b.croute) (s.dev.ctrN (0x4000 + e.j) 0x13) x.tag.toNat 0 (dataLow 1 0),
          payload := payOf [e.b.bucket + e.m.d * 65536] }).fabric) ∧
    ((¬ ∃ x e, s.dev.inst n.val = some x ∧ s.dev.eng x = some e ∧ whole x e) → exec (.collectiveComplete n) s = .next s)) ∧
  (∀ (s : State) (n : Fin 4096),
    let due (x : Instance) (e : Eng) (at_ : Nat) : Prop := x.started = some at_ ∧ at_ + x.limit * 1000000 ≤ s.time.elapsed ∧
      (e.b.op ≠ 4 → x.lacks e = true) ∧ (e.b.op = 4 → s.dev.permuted e x = false)
    (∀ x e at_, s.dev.inst n.val = some x → s.dev.eng x = some e → due x e at_ →
      exec (.collectiveTimeout n) s = .next (s.withDev
        (s.dev.jobError s.time e.j (if e.b.op = 4 then 0x4006 else 0x4007) (24 + e.isle) 6 e.isle x.tag.toNat))) ∧
    ((¬ ∃ x e at_, s.dev.inst n.val = some x ∧ s.dev.eng x = some e ∧ due x e at_) → exec (.collectiveTimeout n) s = .next s)) ∧
  (∀ (s : State) (n : Fin 4096) (errs : HbmErrs),
    let d := (s.dev.inst n.val).elim s.dev fun x => s.dev.permuteDue s.time x.job errs
    let may (x : Instance) (e : Eng) : Prop := e.b.op = 4 ∧ x.started.isSome = true ∧ d.permuted e x = true ∧ d.regionsOpen e.j e.b = true ∧
      (e.own.role = 0 → d.canInject (u0Node e.isle) 0 = true)
    (∀ x e, d.inst n.val = some x → d.eng x errs = some e → may x e →
      (∀ ws d1, d.unitsAt s.time e e.b.stage x.permAt x.permLen = (some ws, d1) →
        exec (.permuteComplete { val := n, errs := errs }) s = .next (s.withDev (((d1.collWrite s.time e e.b.dst (32 * e.lo e.own.rank)
          (ws.flatMap payBytes)).collEnd e n.val x (decide (e.own.role = 0))).permuteDue s.time e.j errs))) ∧
      (∀ d1, d.unitsAt s.time e e.b.stage x.permAt x.permLen = (none, d1) →
        exec (.permuteComplete { val := n, errs := errs }) s = .next (s.withDev d1))) ∧
    ((¬ ∃ x e, d.inst n.val = some x ∧ d.eng x errs = some e ∧ may x e) →
      exec (.permuteComplete { val := n, errs := errs }) s = .next (s.withDev d)))

/-! ### Admission and accounting -/

/-- R439, R440, R443, R445: the admission of a job. A request is decided by the first condition that fails; an admission that a power
cap keeps failing for 1 s is revoked; the next work unit of an admitted job is released when it is due and the job has work; where
there is no request, no such failure or no such unit, nothing happens. R448 to
R451, R468, R472: sample sets and windows. A set that closes is in transit; one that arrives is counted in its window, held for the
next, or counted late; 2,000 ns after its end, and not before, a window is sealed and the next begins where it ended, or at the window of
the present time. States that these complete: ADMISSION_DECISION, ADMISSION_REVOKE_TIMEOUT, WORK_UNIT_RELEASE, SAMPLE_SET_CLOSE,
SAMPLE_SET_ARRIVAL, WINDOW_SEAL. -/
def Obligations.AdmissionAndAccounting : Prop :=
  ((∀ (s : State) (j : JobId), let b := s.dev.job j.val
     (b.admitReq = false → exec (.admissionDecision j) s = .next s) ∧
     (b.admitReq = true →
     (s.dev.admFails j.val = none → exec (.admissionDecision j) s = .next (s.withDev ((s.dev.setJob j.val { b with
       admitReq := false, admSt := 1, admitAt := s.time.ns, units := 0, released := none, failSince := none }).setCtr (0x4000 + j.val) 0xE 0))) ∧
     (∀ c, s.dev.admFails j.val = some c → exec (.admissionDecision j) s = .next (s.withDev
       ((s.dev.setJob j.val { b with admitReq := false, admSt := 2 }).logErr s.time 0x6003 (job := j.val) (detail := c)))))) ∧
   (∀ (s : State) (j : JobId), let b := s.dev.job j.val
     let fails : Prop := b.admSt = 1 ∧ s.dev.capFails j.val = true ∧ ∃ e, b.failSince = some e ∧ e + 1000000000 ≤ s.time.elapsed
     (fails → exec (.admissionRevokeTimeout j) s = .next (s.withDev
       (((s.dev.setJob j.val { b with admSt := 3, released := none, failSince := none }).logErr s.time 0x6005
         (job := j.val)).startGroupOf s.time j.val))) ∧
     (¬ fails → exec (.admissionRevokeTimeout j) s = .next s)) ∧
   (∀ (s : State) (j : JobId), let b := s.dev.job j.val
     let due : Prop := b.admSt = 1 ∧ b.released = none ∧ b.admitAt + b.units * s.dev.jobN j.val 7 * 1000 ≤ s.time.ns ∧ b.hasWork = true
     (due → exec (.workUnitRelease j) s = .next (s.withDev
       ((s.dev.setJob j.val { b with released := some (s.time.ns + s.dev.jobN j.val 8 * 1000) }).groupWake s.time j.val))) ∧
     (¬ due → exec (.workUnitRelease j) s = .next s))) ∧
  ((∀ (s : State) (die : Fin 26) (energy overhead : Nat) (rows : List SampleRow),
     exec (.sampleSetClose die energy overhead rows) s = .next (s.withDev { s.dev with sched := { s.dev.sched with
       transit := s.dev.sched.transit ++
         [({ stamp := (s.time.ns / 1000000 - 1) * 1000000, die := die.val, energy := energy, overhead := overhead, rows := rows } :
           SampleSet)] } })) ∧
   (∀ (s : State) (k : Nat), s.dev.sched.transit[k]? = none → exec (.sampleSetArrival k) s = .next s) ∧
   (∀ (s : State) (k : Nat) (x : SampleSet), let w := s.dev.sched
     let d : Dev := { s.dev with sched := { w with transit := w.transit.eraseIdx k } }
     w.transit[k]? = some x →
     (w.wStart ≤ x.stamp → x.stamp < w.wEnd → exec (.sampleSetArrival k) s = .next (s.withDev (d.countSet x false))) ∧
     (w.wStart ≤ x.stamp → w.wEnd ≤ x.stamp →
       exec (.sampleSetArrival k) s = .next (s.withDev { d with sched := { d.sched with ahead := d.sched.ahead ++ [x] } })) ∧
     (x.stamp < w.wStart → ∃ t : State, exec (.sampleSetArrival k) s = .next t ∧
       t = s.withDev { s.dev with sched := t.dev.sched, jobs := t.dev.jobs, ctr := t.dev.ctr, log := t.dev.log } ∧ t.dev.sched.lateLogged = true ∧
       t.dev.sched.overhead.late = true)) ∧
   (∀ s : State, (s.dev.sched.passed.all fun e => decide (s.time.elapsed < e + 2000)) = true → exec .windowSeal s = .next s) ∧
   (∀ (s : State) (e : Nat), let w := s.dev.sched
     let len := s.dev.objN 0x2800 1 * 1000000
     let next := (w.wEnd / len + 1) * len
     w.passed = some e → e + 2000 ≤ s.time.elapsed →
     ∃ t : State, exec .windowSeal s = .next t ∧
       t = s.withDev { s.dev with sched := t.dev.sched, jobs := t.dev.jobs, rings := t.dev.rings, ctr := t.dev.ctr, log := t.dev.log, isles := t.dev.isles } ∧
       t.dev.sched.wStart = (if next ≤ s.time.ns then s.time.ns / len * len else w.wEnd) ∧
       t.dev.sched.wEnd = (if next ≤ s.time.ns then (s.time.ns / len + 1) * len else next) ∧ t.dev.sched.lateLogged = false ∧
       t.dev.sched.ahead = [] ∧ t.dev.sched.ended = []))

/-! ### Object dictionary -/

/-- R477, R483, R484, R502: an SDO service of a requester that is heard is answered by what the service does to the device that it
finds; one that is not heard, or whose DOE mailbox is busy, has no effect; a service of a mailbox whose length is out of range, or
that is busy, is rejected. R5, R9, R502: a write that fails one of checks 1 to 7 of Table 17-2, and a read that fails one of checks 1 to
4, changes nothing but the requester's answer, and its record when the access or the ticket is refused; so does each row that writes or
reads one object. R504, R571: a segmented transfer that waits 1 s for its next segment ends, with a load that it carries; else it goes
on. States that these complete: SDO_REQUEST, TENANT_SDO, MBX_GO, SEGMENT_TIMEOUT. -/
def Obligations.SdoServices : Prop :=
  ((∀ (s : State) (v : Via) (req : SdoReq),
     (¬ s.hears v → exec (.sdoRequest v req) s = .next s) ∧
     (s.hears v → let r := (s.asked v).sdo s.time v req (s.dev.client v).ticket
       exec (.sdoRequest v req) s = .next { s with time := r.2.1, dev := r.2.2.answer v r.1 })) ∧
   (∀ (s : State) (h : HostDie) (k : Fin 16) (req : SdoReq), let v : Via := .session h k
     (s.dev.doeBusy h.val = true ∨ ¬ s.hears v → exec (.tenantSdo h k req) s = .next s) ∧
     (s.dev.doeBusy h.val = false → s.hears v → let r := (s.asked v).sdo s.time v req (s.dev.client v).ticket
       exec (.tenantSdo h k req) s = .next { s with time := r.2.1, dev := r.2.2.answer v r.1 })) ∧
   (∀ (s : State) (h : HostDie) (len : BitVec 12) (seq : Byte) (req : SdoReq) (e : EndpointId), e.val = h.val + 1 →
     let cmd := exec (.mbxGo h len seq req) s
     let x : Endpoint := { s.dev.ep e.val with mbxLen := len, mbxSeq := seq }
     let s1 := s.withDev (s.dev.setEp e.val { x with busy := true, done := false, rejected := false })
     (s.dev.pcie h.val = false → cmd = .next s) ∧
     (s.dev.pcie h.val = true → ((s.dev.ep e.val).busy = true ∨ len.toNat < 6 ∨ 2048 < len.toNat) →
       cmd = .next (s.withDev (s.dev.setEp e.val { x with rejected := true }))) ∧
     (s.dev.pcie h.val = true → (s.dev.ep e.val).busy = false → 6 ≤ len.toNat → len.toNat ≤ 2048 →
       (¬ s1.hears (.endpoint e) → cmd = .next s1) ∧
       (s1.hears (.endpoint e) → let r := (s1.asked (.endpoint e)).sdo s.time (.endpoint e) req (s.dev.ep e.val).ticket
         cmd = .next { s with time := r.2.1, dev := r.2.2.answer (.endpoint e) r.1 }))) ∧
   (∀ (s : State) (v : Via), let load : Bool := s.dev.loadsBy v && decide (s.dev.fw.lastByte + 1000000000 ≤ s.time.elapsed)
     let seg : Bool := (s.dev.client v).seg.any fun x => decide (x.2.2.2 + 1000000000 ≤ s.time.elapsed)
     (load = true → exec (.segmentTimeout v) s = .next (s.replies v ((s.dev.endLoad 0x5011).endSeg v) (.abort 0x05040000))) ∧
     (load = false → seg = true → exec (.segmentTimeout v) s = .next (s.replies v (s.dev.endSeg v) (.abort 0x05040000))) ∧
     (load = false → seg = false → exec (.segmentTimeout v) s = .next s))) ∧
  ((∀ (s : State) (v : Via) (idx : W16) (sub : Byte) (data : List Byte) (r : Refused), s.hears v →
     ((s.asked v).endSeg v).checkWrite v (some (s.dev.client v).ticket) idx.toNat sub.toNat data = some r →
     let d := (s.asked v).endSeg v
     exec (.sdoRequest v (.write idx sub data)) s = .next (s.replies v (if r.auth then d.authFailed s.time v else d) (.abort r.code))) ∧
   (∀ (s : State) (v : Via) (idx sub : Nat) (val : List Byte) (sig : Bool),
     (¬ s.hears v → writeObj v idx sub val sig s = .next s ∧ readObj v idx sub s = .next s) ∧
     (∀ r, s.hears v → (s.asked v).checkWrite v (some (s.dev.client v).ticket) idx sub val = some r →
       writeObj v idx sub val sig s = .next (s.replies v (if r.auth then (s.asked v).authFailed s.time v else s.asked v) (.abort r.code))) ∧
     (∀ r, s.hears v → (s.asked v).checkRead v idx sub = some r →
       readObj v idx sub s = .next (s.replies v (if r.auth then (s.asked v).authFailed s.time v else s.asked v) (.abort r.code)))) ∧
   (∀ (s : State) (v : Via) (b : List Byte) (x : Byte) (ok : Bool) (r : RingId) (sub : Fin 33) (w : W32) (h : W16) (n : SlotId) (k : Fin 16)
      (j : JobId), let job := 0x4000 + j.val
     exec (.cpAuthNonce v) s = readObj v 0x2500 0x40 s ∧ exec (.journalRecord v) s = readObj v 0x2300 0x15 s ∧
     exec (.errlogEntry v) s = readObj v 0x2E00 6 s ∧ exec (.cpAuthResponse v b ok) s = writeObj v 0x2500 0x41 b ok s ∧
     exec (.cpWriteTicket v b ok) s = writeObj v 0x2500 0x44 b ok s ∧ exec (.cpLogout v) s = writeObj v 0x2500 0x43 [0] true s ∧
     exec (.deviceStateReq v x) s = writeObj v 0x2000 0x11 [x] true s ∧
     exec (.ringEnable v r x) s = writeObj v (0x2710 + r.val) 6 [x] true s ∧
     exec (.txpdoMap v sub w) s = writeObj v 0x1A00 sub.val (le (if sub.val = 0 then 1 else 4) w.toNat) true s ∧
     exec (.hbmChReturn v h) s = writeObj v 0x2C00 0x90 (le 2 h.toNat) true s ∧ exec (.diagPrbsLink v x) s = writeObj v 0x2F00 5 [x] true s ∧
     exec (.slotTenantKey v n b) s = writeObj v (0x3001 + 0x10 * n.val) 1 b true s ∧
     exec (.ownerKey v k b) s = writeObj v 0x2500 (0x10 + k.val) b true s ∧ exec (.jobSlot v j x) s = writeObj v job 1 [x] true s ∧
     exec (.jobAdmitReq v j x) s = writeObj v job 9 [x] true s ∧ exec (.jobMembership v j b ok) s = writeObj v job 0x50 b ok s ∧
     exec (.load v j) s = writeObj v job 2 [1] true s ∧ exec (.drain v j) s = writeObj v job 2 [2] true s ∧
     exec (.resume v j) s = writeObj v job 2 [3] true s ∧ exec (.stop v j) s = writeObj v job 2 [4] true s ∧
     exec (.unload v j) s = writeObj v job 2 [5] true s))

/-- R477, R482 to R484, R486: the roles of an endpoint. A read of the nonce gives a fresh one; a response, a ticket and a logout do what
R482 to R484 say: a login succeeds just when its signature verifies under a key that is present, over the current nonce, while no
lockout holds, and then gives the role named; a ticket is taken just when its signature verifies and its counter rises. An idle role and
a lockout end in time, and not before. States that these complete: CP_AUTH_NONCE, CP_AUTH_RESPONSE, CP_WRITE_TICKET, CP_LOGOUT,
IDLE_TIMEOUT, LOGIN_LOCKOUT_END. -/
def Obligations.EndpointRoles : Prop :=
  (∀ (s : State) (v : Via), s.MayRead v 0x2500 0x40 →
    let b := padTo 32 (Config.random 32 (s.asked v).free)
    exec (.cpAuthNonce v) s = .next (s.replies v (({ s.asked v with free := (s.asked v).free + 1 } : Dev).setClient v
      { (s.asked v).client v with nonce := some b }) (.data b))) ∧
  (∀ (s : State) (v : Via) (resp : List Byte) (ok : Bool), s.Passes v 0x2500 0x41 resp →
    let r := (s.asked v).login s.time v resp ok
    exec (.cpAuthResponse v resp ok) s = .next (s.replies v r.2 r.1)) ∧
  (∀ (d : Dev) (t : TimeBase) (e : EndpointId) (resp : List Byte) (ok : Bool), let v : Via := .endpoint e
    ((d.login t v resp ok).1 = .ok ↔
      ok = true ∧ (d.client v).nonce = some (bytesAt resp 4 32) ∧ emptyKey (d.roleKey (fieldAt resp 0 1) (fieldAt resp 1 1)) = false ∧
        ∀ l, (d.client v).lockout = some l → l ≤ t.elapsed) ∧
    ((d.login t v resp ok).1 = .ok → ((d.login t v resp ok).2.client v).role = fieldAt resp 0 1 ∧
      ((d.login t v resp ok).2.client v).nonce = none ∧ ((d.login t v resp ok).2.client v).ticketCtr = 0)) ∧
  (∀ (d : Dev) (t : TimeBase) (h : HostDie) (k : Fin 16) (resp : List Byte) (ok : Bool), (d.login t (.session h k) resp ok).1 ≠ .ok) ∧
  (∀ (s : State) (v : Via) (b : List Byte) (ok : Bool), s.Passes v 0x2500 0x44 b →
    let r := (s.asked v).takeTicket s.time v b ok
    exec (.cpWriteTicket v b ok) s = .next (s.replies v r.2 r.1) ∧
    (r.1 = .ok ↔ ok = true ∧ ((s.asked v).client v).ticketCtr < fieldAt b 8 8) ∧
    (r.1 = .ok → r.2 = (s.asked v).setClient v { (s.asked v).client v with
      ticketCtr := fieldAt b 8 8, ticket := some (fieldAt b 0 2, fieldAt b 2 1, bytesAt b 16 48) })) ∧
  (∀ (s : State) (v : Via), s.Passes v 0x2500 0x43 [0] → exec (.cpLogout v) s = .next (s.replies v ((s.asked v).logout v) .ok)) ∧
  (∀ (s : State) (e : EndpointId), let x := s.dev.ep e.val
    let idle : Prop := x.role ≠ 0 ∧ x.lastReq + s.dev.objN 0x2500 0x45 * 1000000000 ≤ s.time.elapsed
    (idle → exec (.idleTimeout e) s = .next (s.withDev (s.dev.setEp e.val x.logout))) ∧ (¬ idle → exec (.idleTimeout e) s = .next s)) ∧
  (∀ (s : State) (e : EndpointId), let x := s.dev.ep e.val
    let passed : Bool := x.lockout.any fun l => decide (l ≤ s.time.elapsed)
    (passed = true → exec (.loginLockoutEnd e) s = .next (s.withDev (s.dev.setEp e.val { x with lockout := none }))) ∧
    (passed = false → exec (.loginLockoutEnd e) s = .next s))

/-- R477, R478, R488, R490, R494, R508, R512, R517, R521 to R523: objects of the device. A write of the device state asks OP to fall to SAFEOP, or
enters OP from SAFEOP, and nothing else; a ring's enable starts both indices at 0, is refused as R490 says, and a disable drops the
backlog and counts it; the process-data map and a PRBS test are written as their own rules allow, else the write is aborted; key objects and
a channel's return wait for their commit, or are aborted; a read of the journal or of the error log takes the next entry of the
requester, or has none; AL_CONTROL and PDO_REFRESH drive the EtherCAT interface, within the limits of the device state, and once a
millisecond; with the last job drained the device is in SAFEOP. States that these complete: DEVICE_STATE_REQ, RING_ENABLE, TXPDO_MAP,
DIAG_PRBS_LINK, HBM_CH_RETURN, SLOT_TENANT_KEY, OWNER_KEY, JOURNAL_RECORD, ERRLOG_ENTRY, AL_CONTROL, PDO_REFRESH, HOLD_JOBS_DRAINED. -/
def Obligations.DeviceObjects : Prop :=
  (∀ (s : State) (v : Via) (x : Byte), s.Passes v 0x2000 0x11 [x] → let d := s.asked v
    (∀ y, d.writeStateReq s.time x.toNat = .ok y → exec (.deviceStateReq v x) s = .next (s.replies v y .ok)) ∧
    (∀ c, d.writeStateReq s.time x.toNat = .error c → exec (.deviceStateReq v x) s = .next (s.replies v d (.abort c))) ∧
    (d.pu.state = .op → x = 4 → d.writeStateReq s.time x.toNat = .ok (if d.pu.toSafeop then d else d.toSafeOp)) ∧
    (d.pu.state = .safeop → x = 8 → d.writeStateReq s.time x.toNat = .ok (d.toOp s.time)) ∧
    (¬ (d.pu.state = .op ∧ x = 4) → ¬ (d.pu.state = .safeop ∧ x = 8) → d.writeStateReq s.time x.toNat = .error 0x08000022)) ∧
  (∀ (s : State) (v : Via) (r : RingId) (x : Byte), s.Passes v (0x2710 + r.val) 6 [x] → let d := s.asked v
    (∀ y, d.writeRingEnable r.val x.toNat = .ok y → exec (.ringEnable v r x) s = .next (s.replies v y .ok)) ∧
    (∀ c, d.writeRingEnable r.val x.toNat = .error c → exec (.ringEnable v r x) s = .next (s.replies v d (.abort c)))) ∧
  (∀ (d : Dev) (r : RingId), let g := d.rng r.val
    (g.enabled = true → d.writeRingEnable r.val 1 = .ok d) ∧
    (g.enabled = false → d.enableBad r.val = true → d.writeRingEnable r.val 1 = .error 0x06090030) ∧
    (g.enabled = false → d.enableBad r.val = false → ∃ y, d.writeRingEnable r.val 1 = .ok y ∧ y.rng r.val = { enabled := true } ∧
      y.obj (0x2710 + r.val) 6 = [1]) ∧
    (d.objN (0x2710 + r.val) 1 = 2 → d.ringNamed r.val = true → d.writeRingEnable r.val 0 = .error 0x08000022) ∧
    (¬ (d.objN (0x2710 + r.val) 1 = 2 ∧ d.ringNamed r.val = true) → ∃ y, d.writeRingEnable r.val 0 = .ok y ∧
      y.rng r.val = { g with enabled := false, backlog := [], stalled := false } ∧
      y.ctr = (d.bump 0x2700 4 g.backlog.length).ctr)) ∧
  (∀ (s : State) (v : Via) (sub : Fin 33) (x : W32), let b := le (if sub.val = 0 then 1 else 4) x.toNat
    s.Passes v 0x1A00 sub.val b → let d := s.asked v
    (∀ y, d.writeMap sub.val b = .ok y → exec (.txpdoMap v sub x) s = .next (s.replies v y .ok)) ∧
    (∀ c, d.writeMap sub.val b = .error c → exec (.txpdoMap v sub x) s = .next (s.replies v d (.abort c)))) ∧
  (∀ (s : State) (v : Via) (x : Byte), s.Passes v 0x2F00 5 [x] → let d := s.asked v
    (∀ y, d.writePrbs x.toNat = .ok y → exec (.diagPrbsLink v x) s = .next (s.replies v y .ok)) ∧
    (∀ c, d.writePrbs x.toNat = .error c → exec (.diagPrbsLink v x) s = .next (s.replies v d (.abort c)))) ∧
  (∀ (s : State) (v : Via), let d := s.asked v
    let waits (i : Instr) (idx sub : Nat) (val : List Byte) : Prop :=
      s.Passes v idx sub val →
        (d.nvAllowed v idx sub val = true → exec i s = .next (s.replies v (d.queueNv s.time v idx sub val) .waiting)) ∧
        (d.nvAllowed v idx sub val = false → exec i s = .next (s.replies v d (.abort 0x08000022)))
    (∀ x, waits (.hbmChReturn v x) 0x2C00 0x90 (le 2 x.toNat)) ∧ (∀ n key, waits (.slotTenantKey v n key) (0x3001 + 0x10 * n.val) 1 key) ∧
    (∀ k key, waits (.ownerKey v k key) 0x2500 (0x10 + k.val) key)) ∧
  (∀ (s : State) (v : Via),
    (s.MayRead v 0x2300 0x15 → let r := (s.asked v).readJournal v
      exec (.journalRecord v) s = .next (s.replies v r.2 r.1)) ∧
    (s.MayRead v 0x2E00 6 → let r := (s.asked v).readErrLog v
      exec (.errlogEntry v) s = .next (s.replies v r.2 r.1))) ∧
  (∀ (d : Dev) (e : EndpointId), let v : Via := .endpoint e
    let m := d.nv.copy1
    let k := max (m.counter - m.held) ((d.client v).journalCursor.getD (m.counter - m.held))
    (k < m.counter → d.readJournal v = (.data (padTo 512 (mget [] m.recs (k % 32768))),
      d.setClient v { d.client v with journalCursor := some (k + 1) })) ∧
    (m.counter ≤ k → d.readJournal v = (.abort 0x08000024, d))) ∧
  (∀ (d : Dev) (v : Via), (d.readErrLog v).1 = .abort 0x08000024 ∧ (d.readErrLog v).2 = d ∨
    ∃ e ∈ d.log.entries, d.readErrLog v = (.data e.bytes, d.setClient v { d.client v with errCursor := some ((e.seq + 1) % 2 ^ 32) }) ∧
      ((d.client v).errFilter.getLsbD 15 = true → e.job = bits (d.client v).errFilter.toNat 7 0) ∧
      ∀ n, d.clientSlot v = some n → e.slot = n) ∧
  (∀ (s : State) (want : AlState), s.dev.pu.forwarding = false → exec (.alControl want) s = .next s) ∧
  (∀ (s : State) (want : AlState), s.dev.pu.forwarding = true →
    (want ≠ .boot → alRank want ≤ s.dev.pu.state.alLimit → ∃ t : State, exec (.alControl want) s = .next t ∧ t.dev.net.al = want ∧
      t.dev.net.alStatus = 0 ∧ t = s.withDev { s.dev with eps := t.dev.eps, net := t.dev.net }) ∧
    ((if want = .boot then s.dev.pu.state ≠ .boot else s.dev.pu.state.alLimit < alRank want) →
      exec (.alControl want) s = .next (s.withDev { s.dev with net := { s.dev.net with alStatus := 0x11 } })) ∧
    (want = .boot → s.dev.pu.state = .boot → ∃ t : State, exec (.alControl want) s = .next t ∧ t.dev.net.al = .boot ∧
      t.dev.net.alStatus = 0 ∧ t = s.withDev { s.dev with eps := t.dev.eps, net := t.dev.net })) ∧
  (∀ s : State, alRank s.dev.net.al < 2 ∨ s.dev.net.refreshed = s.time.ns / 1000000 → exec .pdoRefresh s = .next s) ∧
  (∀ s : State, 2 ≤ alRank s.dev.net.al → s.dev.net.refreshed ≠ s.time.ns / 1000000 →
    ∃ t : State, exec .pdoRefresh s = .next t ∧ t = s.withDev { s.dev with net := t.dev.net } ∧ 8 ≤ t.dev.net.sm3.length ∧
      t.dev.net.refreshed = s.time.ns / 1000000) ∧
  (∀ s : State, ¬ (s.dev.pu.state = .op ∧ s.dev.pu.toSafeop = true ∧ ∀ e ∈ s.dev.jobs, e.2.state ≠ 2 ∧ e.2.state ≠ 3) →
    exec .holdJobsDrained s = .next s) ∧
  (∀ s : State, s.dev.pu.state = .op → s.dev.pu.toSafeop = true → (∀ e ∈ s.dev.jobs, e.2.state ≠ 2 ∧ e.2.state ≠ 3) →
    ∃ t : State, exec .holdJobsDrained s = .next t ∧
      t = s.withDev { s.dev with pu := t.dev.pu, net := t.dev.net } ∧ t.dev.pu.state = .safeop ∧ t.dev.pu.toSafeop = false)

/-- R416, R434, R443, R515, R516, R585: objects of a job. A command of Table 17-12 that its state allows takes its effect, one that it does
not allow is aborted; the slot, the admission request and the membership record are written as their own rules allow: a slot that cannot
be taken is aborted, and a record that is refused is recorded; the first record of a running job applies at once. States that these
complete: LOAD, DRAIN, RESUME, STOP, UNLOAD, JOB_SLOT, JOB_ADMIT_REQ, JOB_MEMBERSHIP. -/
def Obligations.JobObjects : Prop :=
  ∀ (s : State) (v : Via) (j : JobId), let d := s.asked v
    let idx := 0x4000 + j.val
    let cmd (i : Instr) (n : Nat) (effect : Dev) : Prop := s.Passes v idx 2 [BitVec.ofNat 8 n] →
      (d.cmdAllowed j.val n = true → exec i s = .next (s.replies v effect .ok)) ∧
      (d.cmdAllowed j.val n = false → exec i s = .next (s.replies v d (.abort 0x08000022)))
    cmd (.load v j) 1 (d.cmdLoad s.time j.val) ∧ cmd (.drain v j) 2 (d.cmdDrain j.val) ∧ cmd (.resume v j) 3 (d.cmdResume s.time j.val) ∧
    cmd (.stop v j) 4 (d.cmdStop s.time j.val) ∧ cmd (.unload v j) 5 (d.cmdUnload s.time j.val) ∧
    (∀ x : Byte, s.Passes v idx 1 [x] →
      (∀ y, d.writeJobSlot j.val x.toNat = (none, y) → exec (.jobSlot v j x) s = .next (s.replies v y .ok)) ∧
      ((∃ c y, d.writeJobSlot j.val x.toNat = (some c, y)) → exec (.jobSlot v j x) s = .next (s.replies v d (.abort 0x08000022))) ∧
      ((d.job j.val).state ≠ 0 ∨ (x.toNat < 64 ∧ d.slotState x.toNat = 0) → ∃ c, d.writeJobSlot j.val x.toNat = (some c, d))) ∧
    (∀ x : Byte, s.Passes v idx 9 [x] → exec (.jobAdmitReq v j x) s = .next (s.replies v (d.writeAdmitReq s.time j.val x.toNat) .ok)) ∧
    (∀ (b : List Byte) (ok : Bool), s.Passes v idx 0x50 b →
      (d.membershipRefused j.val b ok = true → exec (.jobMembership v j b ok) s = .next
        (s.replies v (d.logErr s.time 0x4009 (job := j.val)) (.abort 0x06090030))) ∧
      (d.membershipRefused j.val b ok = false →
        let d1 := d.setJob j.val { d.job j.val with memNext := some (membershipOf b), memBytes := b }
        exec (.jobMembership v j b ok) s = .next
          (s.replies v (if (d.job j.val).mem.d = 0 ∧ (d.job j.val).state = 2 then d1.applyMembership s.time j.val [] else d1) .ok)))

/-! ### Rings -/

/-- R491, R492: the indices of a ring. A write of `HOST_IDX` in range is taken, another is recorded and ignored, one of a ring that is not
enabled or not of that host die is ignored; a read of BAR0 returns the two indices of a ring of that die, 0 for a ring of the other die and
0 for an access of another width (R479); a waiting record goes to the entry that the device index names, with the phase of its pass,
while the ring has room. R495 to R497, R544 to R547: DMA commands and ingress. A malformed command completes with 0x1002, one that the
region check refuses with 0x3006, one whose protection R545 or R546 refuses with 0x5005; any other becomes a transfer, for an outbound
one with the next counter of its key; the oldest transfer of a ring ends while its region serves requests: an inbound one writes its data,
or zeros where its tag fails, an outbound one counts what it read; a sound iteration waits for its fence, goes to the guards, and
completes at its tide point; a malformed one completes with 0x1002. States that these complete: HOST_IDX, DEVICE_RECORD_WRITE,
DMA_COMMAND, DMA_COMPLETE, INGRESS_RECORD, INGRESS_DISPATCH, INGRESS_COMPLETE. -/
def Obligations.RingsAndDma : Prop :=
  ((∀ (s : State) (h : HostDie) (r : RingId) (idx : W32), let g := s.dev.rng r.val
     let ok : Prop := if s.dev.objN (0x2710 + r.val) 1 ≤ 3 then (idx - g.host).toNat ≤ (g.dev - g.host).toNat
       else (idx - g.host).toNat < 2 ^ 31 ∧ (idx - g.dev).toNat ≤ s.dev.ringLen r.val
     let named : Prop := g.enabled = true ∧ s.dev.ringDie r.val = h.val ∧ s.dev.pcie h.val = true
     (¬ named → exec (.hostIdx h r idx) s = .next s) ∧
     (named → ok → exec (.hostIdx h r idx) s = .next (s.withDev (s.dev.setRng r.val { g with host := idx }))) ∧
     (named → ¬ ok → exec (.hostIdx h r idx) s = .next (s.withDev (s.dev.indexBad s.time r.val))) ∧
     (∀ t : TimeBase, s.dev.bar0 t h.val (0x2000 + 16 * r.val) 64 = (if s.dev.ringDie r.val = h.val then g.host.toNat else 0) ∧
       s.dev.bar0 t h.val (0x2008 + 16 * r.val) 64 = (if s.dev.ringDie r.val = h.val then g.dev.toNat else 0) ∧
       s.dev.bar0 t h.val (0x2000 + 16 * r.val) 32 = 0)) ∧
   (∀ (s : State) (r : RingId), let g := s.dev.rng r.val
     let n := s.dev.ringLen r.val
     let room : Prop := g.enabled = true ∧ s.dev.ringUp r.val = true ∧ (g.dev - g.host).toNat < n
     (g.backlog = [] ∨ ¬ room → exec (.deviceRecordWrite r) s = .next s) ∧
     ∀ b rest, g.backlog = b :: rest → room →
     ∃ t : State, exec (.deviceRecordWrite r) s = .next t ∧
       t = s.withDev { s.dev with rings := t.dev.rings, ctr := t.dev.ctr } ∧ (t.dev.rng r.val).dev = g.dev + 1 ∧ (t.dev.rng r.val).backlog = rest ∧
       (t.dev.rng r.val).host = g.host ∧ (b ≠ [] → mget [] (t.dev.rng r.val).written (g.dev.toNat % n) = phased g.dev.toNat n b) ∧
       ∀ k, k ≠ g.dev.toNat % n → mget [] (t.dev.rng r.val).written k = mget [] g.written k)) ∧
  ((∀ (s : State) (r : RingId) (e : List Byte),
     let cmd := exec (.dmaCommand r e) s
     let j := s.dev.objN (0x2710 + r.val) 5
     let n := s.dev.slotOf j
     let f := fieldAt e
     let ctx := bytesAt e 8 8
     let taken : Bool := (decide (s.dev.pu.state = .safeop) || decide (s.dev.pu.state = .op)) && (s.dev.slot n).keyNext.isNone
     (s.dev.takeEntry r.val 5 = none ∨ taken = false → cmd = .next s) ∧
     ∀ d1, s.dev.takeEntry r.val 5 = some d1 → taken = true →
     (dmaBad j e = true → cmd = .next (s.withDev (((d1.badEntry s.time r.val (f 2 1) fun d =>
       d.emit s.time (f 2 1) (complRec 7 0x1002 (f 2 1) (d.slotOf (f 2 1)) ctx s.time.ns (le 8 0))).settleDma r.val j).groupWake s.time j))) ∧
     ∀ a k sec, dmaBad j e = false → s.dev.dmaVerdict j (f 24 8) (f 4 4) (decide (f 0 1 = 1)) = (a, k, sec) →
     (a = .range ∨ a = .denied → cmd = .next (s.withDev (d1.dmaDenied s.time r.val j (f 24 8) ctx))) ∧
     (a = .ok ∨ a = .wait →
       let key := mget none (s.dev.slot n).keys (f 33 1)
       let x := key.getD {}
       let c : Dma := { ring := r.val, idx := s.dev.ctrN (0x2710 + r.val) 8, job := j, op := f 0 1, len := f 4 4, ctx := ctx,
                        pa := f 24 8, stack := k, off := sec * 32, pmode := f 32 1, piv := bytesAt e 36 12, ptag := bytesAt e 48 16,
                        key := if f 32 1 = 1 then x.key else 0, counter := x.counter }
       let d2 : Dev := { d1 with dmas := d1.dmas ++ [c] }
       let refused : Prop := if f 0 1 = 1 then f 32 1 = 1 ∧ (f 36 4 = 0xFFFFFFFF ∨ key = none)
         else f 32 1 = 0 ∨ ∀ y, key = some y → 2 ^ 64 ≤ y.counter
       (refused → cmd = .next (s.withDev (d1.dmaRecord s.time r.val j 0x5005 ctx 0))) ∧
       (¬ refused → f 0 1 = 1 → cmd = .next (s.withDev d2)) ∧
       (¬ refused → f 0 1 ≠ 1 → cmd = .next (s.withDev
         ((d2.pushReq k c.req).setSlot n { d2.slot n with keys := mput none (d2.slot n).keys (f 33 1) (some { x with counter := x.counter + 1 }) }))))) ∧
   (∀ (s : State) (r : RingId) (data : List Byte) (tagOk : Bool) (errs : HbmErrs),
     let cmd := exec (.dmaComplete r data tagOk errs) s
     let first := s.dev.dmas.find? fun x => decide (x.ring = r.val)
     (first = none ∨ s.dev.ringUp r.val = false → cmd = .next s) ∧
     ∀ x, first = some x → s.dev.ringUp r.val = true →
     let a := (s.dev.dmaVerdict x.job x.pa x.len (decide (x.op = 1))).1
     let d1 : Dev := { s.dev with dmas := s.dev.dmas.erase x }
     (a = .wait → cmd = .next s) ∧
     (a = .range ∨ a = .denied → cmd = .next (s.withDev
       (((d1.dmaServed x).dmaDenied s.time r.val x.job x.pa x.ctx).keyProgress s.time (s.dev.slotOf x.job)))) ∧
     (a = .ok → cmd = .next (s.withDev
       ((if x.op = 1 then d1.dmaIn s.time x data tagOk else d1.dmaOut s.time x errs).keyProgress s.time (s.dev.slotOf x.job))))) ∧
   (∀ (d : Dev) (t : TimeBase) (x : Dma) (data : List Byte), let w := d.dmaWrite x data
     (∀ ok, x.pmode = 0 → d.dmaIn t x data ok =
       (w.setJob x.job { w.job x.job with clearInput := true }).dmaRecord t x.ring x.job 0 x.ctx x.len) ∧
     (x.pmode ≠ 0 → d.dmaIn t x data true = (w.setJob x.job { w.job x.job with
       model := Config.sha384 ((w.job x.job).model ++ le 8 x.pa ++ le 4 x.len ++ padTo 12 x.piv ++ padTo 16 x.ptag) }).dmaRecord
         t x.ring x.job 0 x.ctx x.len) ∧
     (x.pmode ≠ 0 →
       d.dmaIn t x data false = (d.setStk x.stack (((d.stk x.stack).zero (x.off / 32) (x.len / 32)).accept x.req)).dmaRecord t x.ring x.job 0x5004 x.ctx x.len) ∧
     ∀ errs l i d1, (d.dmaServed x).readSectors t x.stack (x.off / 32) (x.len / 32) errs none = (l, i, d1) →
       (i = none → d.dmaOut t x errs = d1.dmaRecord t x.ring x.job 0 x.ctx x.len) ∧
       ∀ k, i = some k → d.dmaOut t x errs = d1.dmaRecord t x.ring x.job 0x3002 x.ctx (32 * k)) ∧
   (∀ (s : State) (r : RingId) (e exts : List Byte), let j := s.dev.objN (0x2710 + r.val) 5
     let q := fieldAt e 2 1
     (s.dev.takeEntry r.val 6 = none ∨ s.dev.pu.state ≠ .op ∨ s.dev.pu.toSafeop = true → exec (.ingressRecord r e exts) s = .next s) ∧
     ∀ d1, s.dev.takeEntry r.val 6 = some d1 → s.dev.pu.state = .op → s.dev.pu.toSafeop = false →
     (ingressBad j e exts = true → exec (.ingressRecord r e exts) s = .next (s.withDev (d1.badEntry s.time r.val q fun d =>
       d.ingressRecord_ s.time q 0x1002 { ctx := bytesAt e 8 8, tag := (d.job q).tag }))) ∧
     (ingressBad j e exts = false → exec (.ingressRecord r e exts) s = .next (s.withDev ((d1.setJob j { d1.job j with ingress := (d1.job j).ingress ++
       [({ ctx := bytesAt e 8 8, fence := if (s.dev.findRing 5 j).isSome then fieldAt e 4 4 else (d1.job j).dmaDone, tides := fieldAt e 18 2,
           exts := (extEntries e exts).map extEntry } : Ingress)] }).groupWake s.time j)))) ∧
   (∀ (s : State) (j : JobId), let b := s.dev.job j.val
     (b.ingress = [] ∨ b.ingressReady = false ∨ s.dev.mayDispatch j.val = false → exec (.ingressDispatch j) s = .next s) ∧
     ∀ i rest, b.ingress = i :: rest → b.ingressReady = true → s.dev.mayDispatch j.val = true →
     exec (.ingressDispatch j) s = .next (s.withDev (s.dev.setJob j.val { b with
       ingress := rest, guardQ := b.guardQ ++ [i.exts], dispatched := b.dispatched ++ [{ i with chunks := 0 }] }))) ∧
   (∀ (s : State) (j : JobId), let b := s.dev.job j.val
     let first := b.dispatched.find? fun i => decide (i.chunks ≠ 0) && decide (i.due ≤ s.dev.ctrN (0x4000 + j.val) 0x17)
     (first = none → exec (.ingressComplete j) s = .next s) ∧
     ∀ i, first = some i → exec (.ingressComplete j) s = .next (s.withDev
       ((s.dev.setJob j.val { b with dispatched := b.dispatched.erase i }).ingressRecord_ s.time j.val 0 i))))

/-! ### SPDM -/

/-- R535, R536, R538: requests before a session, in the order of the negotiation; one at another stage is answered UnexpectedRequest, one with a
value that the stage does not take InvalidRequest, or VersionMismatch; while the DOE mailbox serves no object nothing happens. R536,
R537, R548: sessions. A key exchange opens one in a free place, its ID different from every open one, or is answered
SessionLimitExceeded; FINISH fixes the binding by the key that authenticates, or ends the session; heartbeats, key updates, IDE keys, the
end of a session, its time-out and a DOE abort do what R535, R536 and R548 say; a message of a session that is not open, or whose binding
is not fixed, is answered UnexpectedRequest, an operation that its binding does not carry UnsupportedRequest. States that these
complete: SPDM_GET_VERSION, SPDM_GET_CAPABILITIES, SPDM_NEGOTIATE_ALGORITHMS, SPDM_GET_DIGESTS, SPDM_GET_CERTIFICATE, SPDM_CHALLENGE,
GET_MEASUREMENTS, KEY_EXCHANGE, FINISH, SPDM_HEARTBEAT, KEY_UPDATE, END_SESSION, IDE_KM, SESSION_HEARTBEAT_TIMEOUT, DOE_ABORT. -/
def Obligations.SpdmNegotiationAndSessions : Prop :=
  ((∀ (s : State) (h : HostDie) (ver slot index : Byte) (suite sign ok set rx : Bool) (off len req : W16) (k : Fin 16)
      (session : Option (Fin 16)) (peer : Option (List Byte)) (key : W256) (hbm : BitVec 512) (j : JobId) (sess ring : Byte) (out : Option W256),
     let staged (n : Nat) : List Instr := if n = 1 then [.spdmGetCapabilities h ver] else if n = 2 then [.spdmNegotiateAlgorithms h suite]
       else [.spdmGetDigests h, .spdmGetCertificate h slot off len, .spdmChallenge h slot, .keyExchange h req]
     let tenant : List Instr := [.setHbmKey h k hbm ok, .setTransferKey h k index key ok, .openServing h k j sess ring key out ok,
       .closeServing h k j sess]
     let within : List Instr := [.spdmHeartbeat h k, .keyUpdate h k, .endSession h k, .ideKm h k set rx key] ++ tenant
     let gives (d : Dev) (c : Byte) : Host.Outcome State Fault Refusal := .next (s.withDev (d.spdmRespond h.val [0x7F, c]))
     (¬ s.dev.DoeFree h.val → ∀ i ∈ [Instr.spdmGetVersion h, .getMeasurements h session index sign, .finish h k peer ok] ++ staged 1 ++
       staged 2 ++ staged 3 ++ within, exec i s = .next s) ∧
     (s.dev.DoeFree h.val →
       (∀ n, 1 ≤ n → n ≤ 3 → (s.dev.die h.val).stage ≠ n → ∀ i ∈ staged n, exec i s = gives s.dev 0x04) ∧
       (s.dev.sess h.val k.val = none ∨ (s.dev.sess h.val k.val).any (fun x => decide (x.binding = .pending)) = true →
         ∀ i ∈ within, exec i s = gives s.dev 0x04) ∧
       (∀ x, s.dev.sess h.val k.val = some x → x.binding ≠ .pending → let d := s.dev.hear s.time h.val k.val
         (x.binding.slotNo = none → ∀ i ∈ tenant, exec i s = gives d 0x07) ∧
         (x.binding ≠ .operator → exec (.ideKm h k set rx key) s = gives d 0x07) ∧
         exec (.finish h k peer ok) s = gives s.dev 0x04) ∧
       (s.dev.sess h.val k.val = none → exec (.finish h k peer ok) s = gives s.dev 0x04))) ∧
   (∀ (s : State) (h : HostDie), s.dev.DoeFree h.val → let d := s.dev
     let x := d.die h.val
     exec (.spdmGetVersion h) s = .next (s.withDev
       ((d.setDie h.val { x with stage := 1, version := 0 }).spdmRespond h.val ([0x04, 2] ++ le 2 0x1200 ++ le 2 0x1300))) ∧
     (∀ ver, x.stage = 1 →
       ((ver = 12 ∨ ver = 13) → exec (.spdmGetCapabilities h ver) s = .next (s.withDev
         ((d.setDie h.val { x with stage := 2, version := ver.toNat }).spdmRespond h.val ([0x61] ++ le 4 0x63F6)))) ∧
       (ver ≠ 12 → ver ≠ 13 → exec (.spdmGetCapabilities h ver) s = .next (s.withDev (d.spdmRespond h.val [0x7F, 0x41])))) ∧
     (x.stage = 2 → exec (.spdmNegotiateAlgorithms h true) s = .next (s.withDev
         ((d.setDie h.val { x with stage := 3 }).spdmRespond h.val [0x63])) ∧
       exec (.spdmNegotiateAlgorithms h false) s = .next (s.withDev (d.spdmRespond h.val [0x7F, 0x01]))) ∧
     (x.stage = 3 → exec (.spdmGetDigests h) s = .next (s.withDev
       (d.spdmRespond h.val ([0x01, 1] ++ Config.sha384 Config.certChain)))) ∧
     (∀ (slot : Byte) (off len : W16), x.stage = 3 → let b := (Config.certChain.drop off.toNat).take len.toNat
       (slot = 0 → off.toNat < Config.certChain.length → exec (.spdmGetCertificate h slot off len) s = .next (s.withDev
         (d.spdmRespond h.val ([0x02, 0] ++ le 2 b.length ++ le 2 (Config.certChain.length - off.toNat - b.length) ++ b)))) ∧
       (slot ≠ 0 ∨ Config.certChain.length ≤ off.toNat →
         exec (.spdmGetCertificate h slot off len) s = .next (s.withDev (d.spdmRespond h.val [0x7F, 0x01])))) ∧
     (x.stage = 3 → let b := Config.sha384 Config.certChain ++ padTo 32 (Config.random 32 d.free)
       exec (.spdmChallenge h 0) s = .next (s.withDev
         (({ d with free := d.free + 1 } : Dev).spdmRespond h.val ([0x03] ++ b ++ padTo 96 (Config.dikSign b)))) ∧
       ∀ slot, slot ≠ 0 → exec (.spdmChallenge h slot) s = .next (s.withDev (d.spdmRespond h.val [0x7F, 0x01]))) ∧
     (∀ (session : Option (Fin 16)) (index : Byte) (sign : Bool),
       let d1 := session.elim d fun k => d.hear s.time h.val k.val
       let slot := (session.bind fun k => d.sess h.val k.val).bind fun x => x.binding.slotNo
       let may : Prop := session.elim (x.stage = 3) fun k => ∃ y, d.sess h.val k.val = some y ∧ y.binding ≠ .pending ∧ y.binding ≠ .operator
       let blocks := [1, 2, 3, 4, 5, 6, 7, 8] ++ (if slot.isSome then [0x40] else [])
       let reply (b : List Byte) : Prop := exec (.getMeasurements h session index sign) s = .next (s.withDev
         (d1.spdmRespond h.val ([0x60] ++ b ++ (if sign then padTo 96 (Config.dikSign b) else []))))
       (¬ may → exec (.getMeasurements h session index sign) s = .next (s.withDev (d1.spdmRespond h.val [0x7F, 0x04]))) ∧
       (may → index = 0 → reply (le 1 blocks.length)) ∧ (may → index = 0xFF → reply (blocks.flatMap (d1.block slot))) ∧
       (may → index.toNat ∈ blocks → reply (d1.block slot index.toNat)) ∧
       (may → index ≠ 0 → index ≠ 0xFF → index.toNat ∉ blocks →
         exec (.getMeasurements h session index sign) s = .next (s.withDev (d1.spdmRespond h.val [0x7F, 0x01])))))) ∧
  ((∀ (s : State) (h : HostDie) (req : W16), s.dev.DoeFree h.val → (s.dev.die h.val).stage = 3 →
     let place := (List.range 16).find? fun k => (s.dev.sess h.val k).isNone
     (place = none → exec (.keyExchange h req) s = .next (s.withDev (s.dev.spdmRespond h.val [0x7F, 0x0A]))) ∧
     ∀ k, place = some k →
     ∃ (t : State) (x : SpdmSession), exec (.keyExchange h req) s = .next t ∧
       t = s.withDev { s.dev with spdm := t.dev.spdm, free := t.dev.free } ∧ t.dev.sess h.val k = some x ∧ x.reqHalf = req ∧
       x.binding = .pending ∧ x.lastMsg = s.time.elapsed) ∧
   (∀ (s : State) (h : HostDie) (k : Fin 16) (x : SpdmSession), s.dev.DoeFree h.val → s.dev.sess h.val k.val = some x → x.binding = .pending →
     let bad := (s.dev.setSess h.val k.val none).spdmRespond h.val [0x7F, 0x06]
     let failed := (bad.logErr s.time 0x5001 (die := 28 + h.val) (unit := 7) (wh := h.val)).bump 0x2500 6 1
     (exec (.finish h k none true) s = .next (s.withDev
       ((s.dev.setSess h.val k.val (some { x with binding := .nothing, lastMsg := s.time.elapsed })).spdmRespond h.val [0x65]))) ∧
     exec (.finish h k none false) s = .next (s.withDev bad) ∧
     (∀ key b, s.dev.bindingOf key = some b → exec (.finish h k (some key) true) s = .next (s.withDev
       ((s.dev.setSess h.val k.val (some { x with binding := b, lastMsg := s.time.elapsed })).spdmRespond h.val [0x65]))) ∧
     (∀ key, s.dev.bindingOf key = none → exec (.finish h k (some key) true) s = .next (s.withDev failed)) ∧
     (∀ key, exec (.finish h k (some key) false) s = .next (s.withDev failed))) ∧
   (∀ (s : State) (h : HostDie) (k : Fin 16) (x : SpdmSession), s.dev.InSession h.val k.val x →
     let y : SpdmSession := { x with lastMsg := s.time.elapsed }
     let d := s.dev.setSess h.val k.val (some y)
     exec (.spdmHeartbeat h k) s = .next (s.withDev (d.spdmRespond h.val [0x68])) ∧
     exec (.keyUpdate h k) s = .next (s.withDev ((d.setSess h.val k.val (some { y with updates := x.updates + 1 })).spdmRespond h.val [0x69])) ∧
     exec (.endSession h k) s = .next (s.withDev ((d.setSess h.val k.val none).spdmRespond h.val [0x6C])) ∧
     (∀ set rx key, x.binding = .operator → exec (.ideKm h k set rx key) s = .next (s.withDev
       ((d.setDie h.val { d.die h.val with ideKeys := mins (d.die h.val).ideKeys (2 * b2n set + b2n rx) key }).spdmRespond h.val [0x7E])))) ∧
   (∀ (s : State) (h : HostDie) (k : Fin 16), let old (x : SpdmSession) : Prop := x.lastMsg + 90000000000 ≤ s.time.elapsed
     ((∀ x, s.dev.sess h.val k.val = some x → ¬ old x) → exec (.sessionHeartbeatTimeout h k) s = .next s) ∧
     ∀ x, s.dev.sess h.val k.val = some x → old x →
     ∃ t : State, exec (.sessionHeartbeatTimeout h k) s = .next t ∧
       t = s.withDev { s.dev with spdm := t.dev.spdm } ∧ t.dev.sess h.val k.val = none) ∧
   (∀ (s : State) (h : HostDie), s.dev.pcie h.val = false → exec (.doeAbort h) s = .next s) ∧
   (∀ (s : State) (h : HostDie), s.dev.pcie h.val = true → ∃ t : State, exec (.doeAbort h) s = .next t ∧
       t = s.withDev { s.dev with spdm := t.dev.spdm, slots := t.dev.slots, jobs := t.dev.jobs } ∧ (t.dev.die h.val).object = false ∧
     (∀ k x, s.dev.sess h.val k = some x → ∃ y, t.dev.sess h.val k = some y ∧ y.binding = x.binding ∧ y.ep.answer ≠ .waiting)))

/-- R367, R539 to R545: operations of a session bound to a slot. A key for HBM of two unlike halves is taken for a slot whose jobs are
idle and waits for its installation, a further one waits for that; a transfer key stands at its index with its counter at 0; a serving
session is opened on a step ring of its job, and closing it cancels its requests; what an operation does not take is answered 0x5006
or 0x5007. States that these complete: SET_HBM_KEY, SET_TRANSFER_KEY, OPEN_SERVING, CLOSE_SERVING. -/
def Obligations.TenantKeysAndSessions : Prop :=
  ∀ (s : State) (h : HostDie) (k : Fin 16) (x : SpdmSession) (n : Nat), s.dev.InSession h.val k.val x → x.binding.slotNo = some n →
    let d := s.dev.setSess h.val k.val (some { x with lastMsg := s.time.elapsed })
    let done (op st : Nat) : Host.Outcome State Fault Refusal := .next (s.withDev (d.vendorDone h.val op st))
    ((∀ (key : BitVec 512) (ok : Bool), (s.dev.slot n).keyNext.isSome = true →
        exec (.setHbmKey h k key ok) s = .next (s.withDev (d.keyProgress s.time n))) ∧
     ∀ key : BitVec 512, (s.dev.slot n).keyNext = none →
      let idle : Prop := ∀ j ∈ s.dev.jobsOf n, (s.dev.job j).state ∉ [1, 2, 3, 5]
      exec (.setHbmKey h k key false) s = done 2 0x5006 ∧
      (¬ idle ∨ key.extractLsb' 0 256 = key.extractLsb' 256 256 → exec (.setHbmKey h k key true) s = done 2 0x5007) ∧
      (idle → key.extractLsb' 0 256 ≠ key.extractLsb' 256 256 → exec (.setHbmKey h k key true) s = .next (s.withDev
        (((d.setSlot n { d.slot n with keyNext := some key, keyFill := false, keyAns := some (h.val, k.val) }).vendorWaits h.val).keyProgress
          s.time n)))) ∧
    (∀ (i : Byte) (key : W256),
      (7 < i.toNat → ∀ ok, exec (.setTransferKey h k i key ok) s = done 3 0x5007) ∧
      (i.toNat ≤ 7 → exec (.setTransferKey h k i key false) s = done 3 0x5006 ∧ exec (.setTransferKey h k i key true) s = .next (s.withDev
        (((d.setSlot n { d.slot n with keys := mput none (d.slot n).keys i.toNat (some { key := key }) }).keyRecord s.time n 0xFF 6 i.toNat
          false false []).vendorDone h.val 3 0)))) ∧
    (∀ (j : JobId) (sess ring : Byte) (inKey : W256) (outKey : Option W256), let b := s.dev.job j.val
      let may : Prop := s.dev.slotOf j.val = n ∧ 2 ≤ b.state ∧ b.state ≤ 5 ∧ (s.dev.srvOf j.val).isSome = true ∧
        mget none b.srv.sessions sess.toNat = none ∧ ring.toNat < 32 ∧ (s.dev.rng ring.toNat).enabled = true ∧
        s.dev.objN (0x2710 + ring.toNat) 1 = 2 ∧ s.dev.objN (0x2710 + ring.toNat) 5 = j.val
      (¬ may → ∀ ok, exec (.openServing h k j sess ring inKey outKey ok) s = done 4 0x5007) ∧
      (may → exec (.openServing h k j sess ring inKey outKey false) s = done 4 0x5006 ∧
        exec (.openServing h k j sess ring inKey outKey true) s = .next (s.withDev
        (((d.setServing j.val { b.srv with
            sessions := mput none b.srv.sessions sess.toNat
              (some { inKey := inKey, outKey := outKey.getD 0, hasOut := outKey.isSome, ring := ring.toNat }) }).keyRecord s.time n j.val 7
          sess.toNat false false []).vendorDone h.val 4 0)))) ∧
    (∀ (j : JobId) (sess : Byte), let v := (s.dev.job j.val).srv
      (mget none v.sessions sess.toNat = none → exec (.closeServing h k j sess) s = done 5 0x5007) ∧
      ∀ y, mget none v.sessions sess.toNat = some y →
      (s.dev.slotOf j.val ≠ n ∨ y.closing = true → exec (.closeServing h k j sess) s = done 5 0x5007) ∧
      (s.dev.slotOf j.val = n → y.closing = false →
      let live := (v.reqs.filter fun e => decide (e.2.session = sess.toNat ∧ e.2.state ≠ .free ∧ e.2.state ≠ .closing) && !e.2.cancel).map (·.1)
      let v1 := live.foldl (fun v i => v.cancelOne s.time sess.toNat i) v
      exec (.closeServing h k j sess) s = .next (s.withDev
        (((d.setServing j.val { v1 with
            sessions := mput none v1.sessions sess.toNat (some { y with closing := true, closer := some (h.val, k.val) }) }).vendorWaits
          h.val).endClosing s.time))))
end

