-- ==== Sys2Proof/Laws/Store.lean ====
section
/-! SUPPORT. Laws of the sparse stores: a read after a write, reads elsewhere, and the canonical form that every write
keeps. -/
namespace Sys2Proof.Machine

@[simp] theorem mget_nil {α : Type} (d : α) (k : Nat) : mget d [] k = d := rfl

theorem mget_cons {α : Type} (d v : α) (j k : Nat) (r : Map α) : mget d ((j, v) :: r) k = if j = k then v else mget d r k := rfl

theorem mget_mdel {α : Type} (d : α) (m : Map α) (k k' : Nat) :
    mget d (mdel m k) k' = if k' = k then d else mget d m k' := by
  induction m with
  | nil => simp [mdel]
  | cons e r ih =>
    obtain ⟨j, v⟩ := e
    simp only [mdel] at ih
    by_cases h : j = k
    · subst h
      by_cases h' : k' = j
      · simpa [mdel, mget_cons, h'] using ih
      · have : ¬ j = k' := fun e => h' e.symm
        simpa [mdel, mget_cons, h', this] using ih
    · by_cases h' : j = k'
      · subst h'; simp [mdel, mget_cons, h]
      · simpa [mdel, mget_cons, h, h'] using ih

theorem mget_mins {α : Type} (d : α) (m : Map α) (k k' : Nat) (x : α) :
    mget d (mins m k x) k' = if k' = k then x else mget d m k' := by
  induction m with
  | nil => simp [mins, mget_cons, eq_comm]
  | cons e r ih =>
    obtain ⟨j, v⟩ := e
    simp only [mins]
    by_cases h1 : k < j
    · by_cases h' : k' = k
      · simp [h1, mget_cons, h']
      · have : ¬ k = k' := fun e => h' e.symm
        simp [h1, mget_cons, h', this]
    · by_cases h2 : k = j
      · subst h2
        by_cases h' : k' = k
        · simp [mget_cons, h']
        · have : ¬ k = k' := fun e => h' e.symm
          simp [mget_cons, h', this]
      · by_cases h' : j = k'
        · subst h'
          have : ¬ j = k := fun e => h2 e.symm
          simp [h1, h2, mget_cons, this]
        · simp [h1, h2, mget_cons, h', ih]

/-- A read after a write. -/
@[simp] theorem mget_mput {α : Type} [DecidableEq α] (d : α) (m : Map α) (k k' : Nat) (x : α) :
    mget d (mput d m k x) k' = if k' = k then x else mget d m k' := by
  unfold mput
  split
  · rename_i h; rw [mget_mdel, h]
  · rw [mget_mins]

theorem mget_mput_same {α : Type} [DecidableEq α] (d : α) (m : Map α) (k : Nat) (x : α) : mget d (mput d m k x) k = x := by
  simp

theorem mget_mput_other {α : Type} [DecidableEq α] (d : α) (m : Map α) (k k' : Nat) (x : α) (h : k' ≠ k) :
    mget d (mput d m k x) k' = mget d m k' := by simp [h]

/-- A read of a cell that consecutive writes do not reach. -/
theorem mget_mputs_outside {α : Type} [DecidableEq α] (d : α) (l : List α) (m : Map α) (k a : Nat)
    (h : a < k ∨ k + l.length ≤ a) : mget d (mputs d m k l) a = mget d m a := by
  induction l generalizing m k with
  | nil => rfl
  | cons x xs ih =>
    simp only [List.length_cons] at h
    rw [mputs, ih _ _ (by omega), mget_mput_other _ _ _ _ _ (by omega)]

/-- A read of a cell that consecutive writes reach. -/
theorem mget_mputs_inside {α : Type} [DecidableEq α] (d : α) (l : List α) (m : Map α) (k i : Nat) (h : i < l.length) :
    mget d (mputs d m k l) (k + i) = l[i] := by
  induction l generalizing m k i with
  | nil => simp at h
  | cons x xs ih =>
    rw [mputs]
    cases i with
    | zero => rw [mget_mputs_outside _ _ _ _ _ (by omega)]; simp
    | succ i =>
      have := ih (mput d m k x) (k + 1) i (by simpa using h)
      rw [show k + (i + 1) = k + 1 + i by omega, this]; rfl

/-! ### The canonical form -/

theorem mapOkFrom_weaken {α : Type} [DecidableEq α] (d : α) {lo hi : Nat} (m : Map α) (h : lo ≤ hi)
    (hm : mapOkFrom d hi m = true) : mapOkFrom d lo m = true := by
  cases m with
  | nil => rfl
  | cons e r =>
    simp only [mapOkFrom, Bool.and_eq_true, decide_eq_true_eq] at hm ⊢
    exact ⟨⟨by omega, hm.1.2⟩, hm.2⟩

theorem mapOkFrom_filter {α : Type} [DecidableEq α] (d : α) (p : Nat × α → Bool) (lo : Nat) (m : Map α)
    (hm : mapOkFrom d lo m = true) : mapOkFrom d lo (m.filter p) = true := by
  induction m generalizing lo with
  | nil => rfl
  | cons e r ih =>
    obtain ⟨j, v⟩ := e
    simp only [mapOkFrom, Bool.and_eq_true, decide_eq_true_eq] at hm
    by_cases hp : p (j, v) = true
    · rw [List.filter_cons_of_pos hp]
      simp only [mapOkFrom, Bool.and_eq_true, decide_eq_true_eq]
      exact ⟨hm.1, ih _ hm.2⟩
    · rw [List.filter_cons_of_neg hp]
      exact mapOkFrom_weaken d _ (by omega) (ih _ hm.2)

theorem mapOkFrom_mins {α : Type} [DecidableEq α] (d : α) (m : Map α) (lo k : Nat) (x : α) (hx : x ≠ d) (hk : lo ≤ k)
    (hm : mapOkFrom d lo m = true) : mapOkFrom d lo (mins m k x) = true := by
  induction m generalizing lo with
  | nil => simp [mins, mapOkFrom, hx, hk]
  | cons e r ih =>
    obtain ⟨j, v⟩ := e
    simp only [mapOkFrom, Bool.and_eq_true, decide_eq_true_eq] at hm
    simp only [mins]
    split
    · rename_i h
      simp only [mapOkFrom, Bool.and_eq_true, decide_eq_true_eq]
      exact ⟨⟨hk, by simp [hx]⟩, ⟨by omega, hm.1.2⟩, hm.2⟩
    · split
      · rename_i h1 h2
        simp only [mapOkFrom, Bool.and_eq_true, decide_eq_true_eq]
        exact ⟨⟨hk, by simp [hx]⟩, by rw [h2]; exact hm.2⟩
      · simp only [mapOkFrom, Bool.and_eq_true, decide_eq_true_eq]
        exact ⟨hm.1, ih _ (by omega) hm.2⟩

/-- A write keeps the canonical form. -/
theorem mapOk_mput {α : Type} [DecidableEq α] (d : α) (m : Map α) (k : Nat) (x : α) (hm : mapOk d m = true) :
    mapOk d (mput d m k x) = true := by
  unfold mput mapOk at *
  split
  · exact mapOkFrom_filter d _ 0 m hm
  · rename_i h; exact mapOkFrom_mins d m 0 k x h (Nat.zero_le _) hm

theorem mapOk_mdel {α : Type} [DecidableEq α] (d : α) (m : Map α) (k : Nat) (hm : mapOk d m = true) :
    mapOk d (mdel m k) = true := mapOkFrom_filter d _ 0 m hm

theorem mapOk_mdrop {α : Type} [DecidableEq α] (d : α) (p : Nat → Bool) (m : Map α) (hm : mapOk d m = true) :
    mapOk d (mdrop p m) = true := mapOkFrom_filter d _ 0 m hm

theorem mapOk_mputs {α : Type} [DecidableEq α] (d : α) (l : List α) (m : Map α) (k : Nat) (hm : mapOk d m = true) :
    mapOk d (mputs d m k l) = true := by
  induction l generalizing m k with
  | nil => exact hm
  | cons x xs ih => exact ih _ _ (mapOk_mput d m k x hm)

theorem mapOk_mmap {α : Type} [DecidableEq α] (d : α) (f : Nat → α → α) (m : Map α) (hm : mapOk d m = true) :
    mapOk d (mmap d f m) = true := by
  have key : ∀ (lo : Nat) (m : Map α), mapOkFrom d lo m = true → mapOkFrom d lo (mmap d f m) = true := by
    intro lo m
    induction m generalizing lo with
    | nil => intro _; rfl
    | cons e r ih =>
      obtain ⟨j, v⟩ := e
      intro h
      simp only [mapOkFrom, Bool.and_eq_true, decide_eq_true_eq] at h
      have hr := ih _ h.2
      unfold mmap at hr ⊢
      simp only [List.map_cons]
      by_cases hd : f j v = d
      · rw [List.filter_cons_of_neg (by simp [hd])]
        exact mapOkFrom_weaken d _ (by omega) hr
      · rw [List.filter_cons_of_pos (by simp [hd])]
        simp only [mapOkFrom, Bool.and_eq_true, decide_eq_true_eq]
        exact ⟨⟨h.1.1, by simp [hd]⟩, hr⟩
  exact key 0 m hm

/-- Two canonical stores that read alike at every key are the same data. -/
theorem mapOk_ext {α : Type} [DecidableEq α] (d : α) (m n : Map α) (hm : mapOk d m = true) (hn : mapOk d n = true)
    (h : ∀ k, mget d m k = mget d n k) : m = n := by
  have below : ∀ (lo : Nat) (m : Map α), mapOkFrom d lo m = true → ∀ k, k < lo → mget d m k = d := by
    intro lo m
    induction m generalizing lo with
    | nil => intros; rfl
    | cons e r ih =>
      obtain ⟨j, v⟩ := e
      intro h k hk
      simp only [mapOkFrom, Bool.and_eq_true, decide_eq_true_eq] at h
      rw [mget_cons, if_neg (by omega)]
      exact ih _ h.2 k (by omega)
  have key : ∀ (m n : Map α) (lo : Nat), mapOkFrom d lo m = true → mapOkFrom d lo n = true →
      (∀ k, mget d m k = mget d n k) → m = n := by
    intro m
    induction m with
    | nil =>
      intro n lo _ hn h
      cases n with
      | nil => rfl
      | cons e r =>
        obtain ⟨j, v⟩ := e
        simp only [mapOkFrom, Bool.and_eq_true, decide_eq_true_eq] at hn
        have := h j
        simp [mget_cons] at this
        simp [← this] at hn
    | cons e r ih =>
      obtain ⟨j, v⟩ := e
      intro n lo hm hn h
      simp only [mapOkFrom, Bool.and_eq_true, decide_eq_true_eq] at hm
      cases n with
      | nil =>
        have := h j
        simp [mget_cons] at this
        simp [this] at hm
      | cons e' r' =>
        obtain ⟨j', v'⟩ := e'
        simp only [mapOkFrom, Bool.and_eq_true, decide_eq_true_eq] at hn
        have hv : v ≠ d := by simpa using hm.1.2
        have hv' : v' ≠ d := by simpa using hn.1.2
        have hjj : j = j' := by
          rcases Nat.lt_trichotomy j j' with hlt | heq | hgt
          · have e1 := h j
            rw [mget_cons, mget_cons, if_pos rfl, if_neg (by omega), below _ _ hn.2 j (by omega)] at e1
            exact absurd e1 hv
          · exact heq
          · have e1 := h j'
            rw [mget_cons, mget_cons, if_pos rfl, if_neg (by omega), below _ _ hm.2 j' (by omega)] at e1
            exact absurd e1.symm hv'
        subst hjj
        have hvv : v = v' := by simpa [mget_cons] using h j
        subst hvv
        have hr : ∀ k, mget d r k = mget d r' k := by
          intro k
          by_cases hk : j = k
          · rw [← hk, below _ _ hm.2 j (by omega), below _ _ hn.2 j (by omega)]
          · have := h k
            rwa [mget_cons, mget_cons, if_neg hk, if_neg hk] at this
        rw [ih r' (j + 1) hm.2 hn.2 hr]
  exact key m n 0 hm hn h

end Sys2Proof.Machine
end

