-- ==== Sys2Proof/Laws/State.lean ====
section
/-! SUPPORT. Laws of the state's updates: for each update, what it reads back as and every field it leaves. -/
namespace Sys2Proof.Machine

@[simp] theorem Dev.setSite_site (d : Dev) (i k : Nat) (x : Site) : (d.setSite i x).site k = if k = i then x else d.site k := mget_mput ..
@[simp] theorem Dev.setSite_frame (d : Dev) (i : Nat) (x : Site) :
    (d.setSite i x).free = d.free ∧ (d.setSite i x).pu = d.pu ∧ (d.setSite i x).fw = d.fw ∧ (d.setSite i x).dict = d.dict ∧
    (d.setSite i x).ctr = d.ctr ∧ (d.setSite i x).eps = d.eps ∧ (d.setSite i x).net = d.net ∧
    (d.setSite i x).spdm = d.spdm ∧ (d.setSite i x).rings = d.rings ∧ (d.setSite i x).dmas = d.dmas ∧
    (d.setSite i x).nv = d.nv ∧ (d.setSite i x).log = d.log ∧ (d.setSite i x).power = d.power ∧
    (d.setSite i x).isles = d.isles ∧ (d.setSite i x).slots = d.slots ∧ (d.setSite i x).jobs = d.jobs ∧
    (d.setSite i x).groups = d.groups ∧ (d.setSite i x).sched = d.sched ∧ (d.setSite i x).health = d.health ∧
    (d.setSite i x).fabric = d.fabric ∧ (d.setSite i x).bridges = d.bridges ∧ (d.setSite i x).ring = d.ring ∧
    (d.setSite i x).lagoons = d.lagoons ∧ (d.setSite i x).hbms = d.hbms ∧ (d.setSite i x).arbs = d.arbs ∧
    (d.setSite i x).cause = d.cause ∧ (d.setSite i x).masks = d.masks ∧ (d.setSite i x).links = d.links ∧
    (d.setSite i x).colls = d.colls ∧ (d.setSite i x).flows = d.flows ∧ (d.setSite i x).lag = d.lag ∧
    (d.setSite i x).stk = d.stk ∧ (d.setSite i x).arb = d.arb ∧ (d.setSite i x).cw = d.cw ∧ (d.setSite i x).mask = d.mask ∧
    (d.setSite i x).lnk = d.lnk ∧ (d.setSite i x).inst = d.inst ∧ (d.setSite i x).isle = d.isle ∧
    (d.setSite i x).job = d.job ∧ (d.setSite i x).slot = d.slot ∧ (d.setSite i x).group = d.group ∧
    (d.setSite i x).rng = d.rng ∧ (d.setSite i x).die = d.die ∧ (d.setSite i x).bdir = d.bdir ∧
    (d.setSite i x).lgroup = d.lgroup ∧ (d.setSite i x).obj = d.obj ∧ (d.setSite i x).objN = d.objN ∧
    (d.setSite i x).ctrN = d.ctrN ∧ (d.setSite i x).slotOf = d.slotOf :=
    ⟨rfl, rfl, rfl, rfl, rfl, rfl, rfl, rfl, rfl, rfl, rfl, rfl, rfl, rfl, rfl, rfl, rfl, rfl, rfl, rfl, rfl, rfl, rfl, rfl,
     rfl, rfl, rfl, rfl, rfl, rfl, rfl, rfl, rfl, rfl, rfl, rfl, rfl, rfl, rfl, rfl, rfl, rfl, rfl, rfl, rfl, rfl, rfl,
     rfl, rfl⟩

@[simp] theorem Dev.setLag_lag (d : Dev) (i k : Nat) (x : Lagoon) : (d.setLag i x).lag k = if k = i then x else d.lag k := mget_mput ..
@[simp] theorem Dev.setLag_frame (d : Dev) (i : Nat) (x : Lagoon) :
    (d.setLag i x).free = d.free ∧ (d.setLag i x).pu = d.pu ∧ (d.setLag i x).fw = d.fw ∧ (d.setLag i x).dict = d.dict ∧
    (d.setLag i x).ctr = d.ctr ∧ (d.setLag i x).eps = d.eps ∧ (d.setLag i x).net = d.net ∧ (d.setLag i x).spdm = d.spdm ∧
    (d.setLag i x).rings = d.rings ∧ (d.setLag i x).dmas = d.dmas ∧ (d.setLag i x).nv = d.nv ∧ (d.setLag i x).log = d.log ∧
    (d.setLag i x).power = d.power ∧ (d.setLag i x).isles = d.isles ∧ (d.setLag i x).slots = d.slots ∧
    (d.setLag i x).jobs = d.jobs ∧ (d.setLag i x).groups = d.groups ∧ (d.setLag i x).sched = d.sched ∧
    (d.setLag i x).health = d.health ∧ (d.setLag i x).sites = d.sites ∧ (d.setLag i x).fabric = d.fabric ∧
    (d.setLag i x).bridges = d.bridges ∧ (d.setLag i x).ring = d.ring ∧ (d.setLag i x).hbms = d.hbms ∧
    (d.setLag i x).arbs = d.arbs ∧ (d.setLag i x).cause = d.cause ∧ (d.setLag i x).masks = d.masks ∧
    (d.setLag i x).links = d.links ∧ (d.setLag i x).colls = d.colls ∧ (d.setLag i x).flows = d.flows ∧
    (d.setLag i x).site = d.site ∧ (d.setLag i x).stk = d.stk ∧ (d.setLag i x).arb = d.arb ∧ (d.setLag i x).cw = d.cw ∧
    (d.setLag i x).mask = d.mask ∧ (d.setLag i x).lnk = d.lnk ∧ (d.setLag i x).inst = d.inst ∧
    (d.setLag i x).isle = d.isle ∧ (d.setLag i x).job = d.job ∧ (d.setLag i x).slot = d.slot ∧
    (d.setLag i x).group = d.group ∧ (d.setLag i x).rng = d.rng ∧ (d.setLag i x).die = d.die ∧
    (d.setLag i x).bdir = d.bdir ∧ (d.setLag i x).lgroup = d.lgroup ∧ (d.setLag i x).obj = d.obj ∧
    (d.setLag i x).objN = d.objN ∧ (d.setLag i x).ctrN = d.ctrN ∧ (d.setLag i x).slotOf = d.slotOf :=
    ⟨rfl, rfl, rfl, rfl, rfl, rfl, rfl, rfl, rfl, rfl, rfl, rfl, rfl, rfl, rfl, rfl, rfl, rfl, rfl, rfl, rfl, rfl, rfl, rfl,
     rfl, rfl, rfl, rfl, rfl, rfl, rfl, rfl, rfl, rfl, rfl, rfl, rfl, rfl, rfl, rfl, rfl, rfl, rfl, rfl, rfl, rfl, rfl,
     rfl, rfl⟩

@[simp] theorem Dev.setStk_stk (d : Dev) (i k : Nat) (x : Stack) : (d.setStk i x).stk k = if k = i then x else d.stk k := mget_mput ..
@[simp] theorem Dev.setStk_frame (d : Dev) (i : Nat) (x : Stack) :
    (d.setStk i x).free = d.free ∧ (d.setStk i x).pu = d.pu ∧ (d.setStk i x).fw = d.fw ∧ (d.setStk i x).dict = d.dict ∧
    (d.setStk i x).ctr = d.ctr ∧ (d.setStk i x).eps = d.eps ∧ (d.setStk i x).net = d.net ∧ (d.setStk i x).spdm = d.spdm ∧
    (d.setStk i x).rings = d.rings ∧ (d.setStk i x).dmas = d.dmas ∧ (d.setStk i x).nv = d.nv ∧ (d.setStk i x).log = d.log ∧
    (d.setStk i x).power = d.power ∧ (d.setStk i x).isles = d.isles ∧ (d.setStk i x).slots = d.slots ∧
    (d.setStk i x).jobs = d.jobs ∧ (d.setStk i x).groups = d.groups ∧ (d.setStk i x).sched = d.sched ∧
    (d.setStk i x).health = d.health ∧ (d.setStk i x).sites = d.sites ∧ (d.setStk i x).fabric = d.fabric ∧
    (d.setStk i x).bridges = d.bridges ∧ (d.setStk i x).ring = d.ring ∧ (d.setStk i x).lagoons = d.lagoons ∧
    (d.setStk i x).arbs = d.arbs ∧ (d.setStk i x).cause = d.cause ∧ (d.setStk i x).masks = d.masks ∧
    (d.setStk i x).links = d.links ∧ (d.setStk i x).colls = d.colls ∧ (d.setStk i x).flows = d.flows ∧
    (d.setStk i x).site = d.site ∧ (d.setStk i x).lag = d.lag ∧ (d.setStk i x).arb = d.arb ∧ (d.setStk i x).cw = d.cw ∧
    (d.setStk i x).mask = d.mask ∧ (d.setStk i x).lnk = d.lnk ∧ (d.setStk i x).inst = d.inst ∧
    (d.setStk i x).isle = d.isle ∧ (d.setStk i x).job = d.job ∧ (d.setStk i x).slot = d.slot ∧
    (d.setStk i x).group = d.group ∧ (d.setStk i x).rng = d.rng ∧ (d.setStk i x).die = d.die ∧
    (d.setStk i x).bdir = d.bdir ∧ (d.setStk i x).lgroup = d.lgroup ∧ (d.setStk i x).obj = d.obj ∧
    (d.setStk i x).objN = d.objN ∧ (d.setStk i x).ctrN = d.ctrN ∧ (d.setStk i x).slotOf = d.slotOf :=
    ⟨rfl, rfl, rfl, rfl, rfl, rfl, rfl, rfl, rfl, rfl, rfl, rfl, rfl, rfl, rfl, rfl, rfl, rfl, rfl, rfl, rfl, rfl, rfl, rfl,
     rfl, rfl, rfl, rfl, rfl, rfl, rfl, rfl, rfl, rfl, rfl, rfl, rfl, rfl, rfl, rfl, rfl, rfl, rfl, rfl, rfl, rfl, rfl,
     rfl, rfl⟩

@[simp] theorem Dev.setArb_arb (d : Dev) (i k : Nat) (x : Arbiter) : (d.setArb i x).arb k = if k = i then x else d.arb k := mget_mput ..
@[simp] theorem Dev.setArb_frame (d : Dev) (i : Nat) (x : Arbiter) :
    (d.setArb i x).free = d.free ∧ (d.setArb i x).pu = d.pu ∧ (d.setArb i x).fw = d.fw ∧ (d.setArb i x).dict = d.dict ∧
    (d.setArb i x).ctr = d.ctr ∧ (d.setArb i x).eps = d.eps ∧ (d.setArb i x).net = d.net ∧ (d.setArb i x).spdm = d.spdm ∧
    (d.setArb i x).rings = d.rings ∧ (d.setArb i x).dmas = d.dmas ∧ (d.setArb i x).nv = d.nv ∧ (d.setArb i x).log = d.log ∧
    (d.setArb i x).power = d.power ∧ (d.setArb i x).isles = d.isles ∧ (d.setArb i x).slots = d.slots ∧
    (d.setArb i x).jobs = d.jobs ∧ (d.setArb i x).groups = d.groups ∧ (d.setArb i x).sched = d.sched ∧
    (d.setArb i x).health = d.health ∧ (d.setArb i x).sites = d.sites ∧ (d.setArb i x).fabric = d.fabric ∧
    (d.setArb i x).bridges = d.bridges ∧ (d.setArb i x).ring = d.ring ∧ (d.setArb i x).lagoons = d.lagoons ∧
    (d.setArb i x).hbms = d.hbms ∧ (d.setArb i x).cause = d.cause ∧ (d.setArb i x).masks = d.masks ∧
    (d.setArb i x).links = d.links ∧ (d.setArb i x).colls = d.colls ∧ (d.setArb i x).flows = d.flows ∧
    (d.setArb i x).site = d.site ∧ (d.setArb i x).lag = d.lag ∧ (d.setArb i x).stk = d.stk ∧ (d.setArb i x).cw = d.cw ∧
    (d.setArb i x).mask = d.mask ∧ (d.setArb i x).lnk = d.lnk ∧ (d.setArb i x).inst = d.inst ∧
    (d.setArb i x).isle = d.isle ∧ (d.setArb i x).job = d.job ∧ (d.setArb i x).slot = d.slot ∧
    (d.setArb i x).group = d.group ∧ (d.setArb i x).rng = d.rng ∧ (d.setArb i x).die = d.die ∧
    (d.setArb i x).bdir = d.bdir ∧ (d.setArb i x).lgroup = d.lgroup ∧ (d.setArb i x).obj = d.obj ∧
    (d.setArb i x).objN = d.objN ∧ (d.setArb i x).ctrN = d.ctrN ∧ (d.setArb i x).slotOf = d.slotOf :=
    ⟨rfl, rfl, rfl, rfl, rfl, rfl, rfl, rfl, rfl, rfl, rfl, rfl, rfl, rfl, rfl, rfl, rfl, rfl, rfl, rfl, rfl, rfl, rfl, rfl,
     rfl, rfl, rfl, rfl, rfl, rfl, rfl, rfl, rfl, rfl, rfl, rfl, rfl, rfl, rfl, rfl, rfl, rfl, rfl, rfl, rfl, rfl, rfl,
     rfl, rfl⟩

@[simp] theorem Dev.setCw_cw (d : Dev) (i k : Nat) (x : Causeway) : (d.setCw i x).cw k = if k = i then x else d.cw k := mget_mput ..
@[simp] theorem Dev.setCw_frame (d : Dev) (i : Nat) (x : Causeway) :
    (d.setCw i x).free = d.free ∧ (d.setCw i x).pu = d.pu ∧ (d.setCw i x).fw = d.fw ∧ (d.setCw i x).dict = d.dict ∧
    (d.setCw i x).ctr = d.ctr ∧ (d.setCw i x).eps = d.eps ∧ (d.setCw i x).net = d.net ∧ (d.setCw i x).spdm = d.spdm ∧
    (d.setCw i x).rings = d.rings ∧ (d.setCw i x).dmas = d.dmas ∧ (d.setCw i x).nv = d.nv ∧ (d.setCw i x).log = d.log ∧
    (d.setCw i x).power = d.power ∧ (d.setCw i x).isles = d.isles ∧ (d.setCw i x).slots = d.slots ∧
    (d.setCw i x).jobs = d.jobs ∧ (d.setCw i x).groups = d.groups ∧ (d.setCw i x).sched = d.sched ∧
    (d.setCw i x).health = d.health ∧ (d.setCw i x).sites = d.sites ∧ (d.setCw i x).fabric = d.fabric ∧
    (d.setCw i x).bridges = d.bridges ∧ (d.setCw i x).ring = d.ring ∧ (d.setCw i x).lagoons = d.lagoons ∧
    (d.setCw i x).hbms = d.hbms ∧ (d.setCw i x).arbs = d.arbs ∧ (d.setCw i x).masks = d.masks ∧
    (d.setCw i x).links = d.links ∧ (d.setCw i x).colls = d.colls ∧ (d.setCw i x).flows = d.flows ∧
    (d.setCw i x).site = d.site ∧ (d.setCw i x).lag = d.lag ∧ (d.setCw i x).stk = d.stk ∧ (d.setCw i x).arb = d.arb ∧
    (d.setCw i x).mask = d.mask ∧ (d.setCw i x).lnk = d.lnk ∧ (d.setCw i x).inst = d.inst ∧ (d.setCw i x).isle = d.isle ∧
    (d.setCw i x).job = d.job ∧ (d.setCw i x).slot = d.slot ∧ (d.setCw i x).group = d.group ∧ (d.setCw i x).rng = d.rng ∧
    (d.setCw i x).die = d.die ∧ (d.setCw i x).bdir = d.bdir ∧ (d.setCw i x).lgroup = d.lgroup ∧ (d.setCw i x).obj = d.obj ∧
    (d.setCw i x).objN = d.objN ∧ (d.setCw i x).ctrN = d.ctrN ∧ (d.setCw i x).slotOf = d.slotOf :=
    ⟨rfl, rfl, rfl, rfl, rfl, rfl, rfl, rfl, rfl, rfl, rfl, rfl, rfl, rfl, rfl, rfl, rfl, rfl, rfl, rfl, rfl, rfl, rfl, rfl,
     rfl, rfl, rfl, rfl, rfl, rfl, rfl, rfl, rfl, rfl, rfl, rfl, rfl, rfl, rfl, rfl, rfl, rfl, rfl, rfl, rfl, rfl, rfl,
     rfl, rfl⟩

@[simp] theorem Dev.setMask_mask (d : Dev) (i k : Nat) (x : MaskEngine) : (d.setMask i x).mask k = if k = i then x else d.mask k := mget_mput ..
@[simp] theorem Dev.setMask_frame (d : Dev) (i : Nat) (x : MaskEngine) :
    (d.setMask i x).free = d.free ∧ (d.setMask i x).pu = d.pu ∧ (d.setMask i x).fw = d.fw ∧ (d.setMask i x).dict = d.dict ∧
    (d.setMask i x).ctr = d.ctr ∧ (d.setMask i x).eps = d.eps ∧ (d.setMask i x).net = d.net ∧
    (d.setMask i x).spdm = d.spdm ∧ (d.setMask i x).rings = d.rings ∧ (d.setMask i x).dmas = d.dmas ∧
    (d.setMask i x).nv = d.nv ∧ (d.setMask i x).log = d.log ∧ (d.setMask i x).power = d.power ∧
    (d.setMask i x).isles = d.isles ∧ (d.setMask i x).slots = d.slots ∧ (d.setMask i x).jobs = d.jobs ∧
    (d.setMask i x).groups = d.groups ∧ (d.setMask i x).sched = d.sched ∧ (d.setMask i x).health = d.health ∧
    (d.setMask i x).sites = d.sites ∧ (d.setMask i x).fabric = d.fabric ∧ (d.setMask i x).bridges = d.bridges ∧
    (d.setMask i x).ring = d.ring ∧ (d.setMask i x).lagoons = d.lagoons ∧ (d.setMask i x).hbms = d.hbms ∧
    (d.setMask i x).arbs = d.arbs ∧ (d.setMask i x).cause = d.cause ∧ (d.setMask i x).links = d.links ∧
    (d.setMask i x).colls = d.colls ∧ (d.setMask i x).flows = d.flows ∧ (d.setMask i x).site = d.site ∧
    (d.setMask i x).lag = d.lag ∧ (d.setMask i x).stk = d.stk ∧ (d.setMask i x).arb = d.arb ∧ (d.setMask i x).cw = d.cw ∧
    (d.setMask i x).lnk = d.lnk ∧ (d.setMask i x).inst = d.inst ∧ (d.setMask i x).isle = d.isle ∧
    (d.setMask i x).job = d.job ∧ (d.setMask i x).slot = d.slot ∧ (d.setMask i x).group = d.group ∧
    (d.setMask i x).rng = d.rng ∧ (d.setMask i x).die = d.die ∧ (d.setMask i x).bdir = d.bdir ∧
    (d.setMask i x).lgroup = d.lgroup ∧ (d.setMask i x).obj = d.obj ∧ (d.setMask i x).objN = d.objN ∧
    (d.setMask i x).ctrN = d.ctrN ∧ (d.setMask i x).slotOf = d.slotOf :=
    ⟨rfl, rfl, rfl, rfl, rfl, rfl, rfl, rfl, rfl, rfl, rfl, rfl, rfl, rfl, rfl, rfl, rfl, rfl, rfl, rfl, rfl, rfl, rfl, rfl,
     rfl, rfl, rfl, rfl, rfl, rfl, rfl, rfl, rfl, rfl, rfl, rfl, rfl, rfl, rfl, rfl, rfl, rfl, rfl, rfl, rfl, rfl, rfl,
     rfl, rfl⟩

@[simp] theorem Dev.setLnk_lnk (d : Dev) (i k : Nat) (x : Link) : (d.setLnk i x).lnk k = if k = i then x else d.lnk k := mget_mput ..
@[simp] theorem Dev.setLnk_frame (d : Dev) (i : Nat) (x : Link) :
    (d.setLnk i x).free = d.free ∧ (d.setLnk i x).pu = d.pu ∧ (d.setLnk i x).fw = d.fw ∧ (d.setLnk i x).dict = d.dict ∧
    (d.setLnk i x).ctr = d.ctr ∧ (d.setLnk i x).eps = d.eps ∧ (d.setLnk i x).net = d.net ∧ (d.setLnk i x).spdm = d.spdm ∧
    (d.setLnk i x).rings = d.rings ∧ (d.setLnk i x).dmas = d.dmas ∧ (d.setLnk i x).nv = d.nv ∧ (d.setLnk i x).log = d.log ∧
    (d.setLnk i x).power = d.power ∧ (d.setLnk i x).isles = d.isles ∧ (d.setLnk i x).slots = d.slots ∧
    (d.setLnk i x).jobs = d.jobs ∧ (d.setLnk i x).groups = d.groups ∧ (d.setLnk i x).sched = d.sched ∧
    (d.setLnk i x).health = d.health ∧ (d.setLnk i x).sites = d.sites ∧ (d.setLnk i x).fabric = d.fabric ∧
    (d.setLnk i x).bridges = d.bridges ∧ (d.setLnk i x).ring = d.ring ∧ (d.setLnk i x).lagoons = d.lagoons ∧
    (d.setLnk i x).hbms = d.hbms ∧ (d.setLnk i x).arbs = d.arbs ∧ (d.setLnk i x).cause = d.cause ∧
    (d.setLnk i x).masks = d.masks ∧ (d.setLnk i x).colls = d.colls ∧ (d.setLnk i x).flows = d.flows ∧
    (d.setLnk i x).site = d.site ∧ (d.setLnk i x).lag = d.lag ∧ (d.setLnk i x).stk = d.stk ∧ (d.setLnk i x).arb = d.arb ∧
    (d.setLnk i x).cw = d.cw ∧ (d.setLnk i x).mask = d.mask ∧ (d.setLnk i x).inst = d.inst ∧ (d.setLnk i x).isle = d.isle ∧
    (d.setLnk i x).job = d.job ∧ (d.setLnk i x).slot = d.slot ∧ (d.setLnk i x).group = d.group ∧
    (d.setLnk i x).rng = d.rng ∧ (d.setLnk i x).die = d.die ∧ (d.setLnk i x).bdir = d.bdir ∧
    (d.setLnk i x).lgroup = d.lgroup ∧ (d.setLnk i x).obj = d.obj ∧ (d.setLnk i x).objN = d.objN ∧
    (d.setLnk i x).ctrN = d.ctrN ∧ (d.setLnk i x).slotOf = d.slotOf :=
    ⟨rfl, rfl, rfl, rfl, rfl, rfl, rfl, rfl, rfl, rfl, rfl, rfl, rfl, rfl, rfl, rfl, rfl, rfl, rfl, rfl, rfl, rfl, rfl, rfl,
     rfl, rfl, rfl, rfl, rfl, rfl, rfl, rfl, rfl, rfl, rfl, rfl, rfl, rfl, rfl, rfl, rfl, rfl, rfl, rfl, rfl, rfl, rfl,
     rfl, rfl⟩

@[simp] theorem Dev.setInst_inst (d : Dev) (i k : Nat) (x : Option Instance) : (d.setInst i x).inst k = if k = i then x else d.inst k := mget_mput ..
@[simp] theorem Dev.setInst_frame (d : Dev) (i : Nat) (x : Option Instance) :
    (d.setInst i x).free = d.free ∧ (d.setInst i x).pu = d.pu ∧ (d.setInst i x).fw = d.fw ∧ (d.setInst i x).dict = d.dict ∧
    (d.setInst i x).ctr = d.ctr ∧ (d.setInst i x).eps = d.eps ∧ (d.setInst i x).net = d.net ∧
    (d.setInst i x).spdm = d.spdm ∧ (d.setInst i x).rings = d.rings ∧ (d.setInst i x).dmas = d.dmas ∧
    (d.setInst i x).nv = d.nv ∧ (d.setInst i x).log = d.log ∧ (d.setInst i x).power = d.power ∧
    (d.setInst i x).isles = d.isles ∧ (d.setInst i x).slots = d.slots ∧ (d.setInst i x).jobs = d.jobs ∧
    (d.setInst i x).groups = d.groups ∧ (d.setInst i x).sched = d.sched ∧ (d.setInst i x).health = d.health ∧
    (d.setInst i x).sites = d.sites ∧ (d.setInst i x).fabric = d.fabric ∧ (d.setInst i x).bridges = d.bridges ∧
    (d.setInst i x).ring = d.ring ∧ (d.setInst i x).lagoons = d.lagoons ∧ (d.setInst i x).hbms = d.hbms ∧
    (d.setInst i x).arbs = d.arbs ∧ (d.setInst i x).cause = d.cause ∧ (d.setInst i x).masks = d.masks ∧
    (d.setInst i x).links = d.links ∧ (d.setInst i x).flows = d.flows ∧ (d.setInst i x).site = d.site ∧
    (d.setInst i x).lag = d.lag ∧ (d.setInst i x).stk = d.stk ∧ (d.setInst i x).arb = d.arb ∧ (d.setInst i x).cw = d.cw ∧
    (d.setInst i x).mask = d.mask ∧ (d.setInst i x).lnk = d.lnk ∧ (d.setInst i x).isle = d.isle ∧
    (d.setInst i x).job = d.job ∧ (d.setInst i x).slot = d.slot ∧ (d.setInst i x).group = d.group ∧
    (d.setInst i x).rng = d.rng ∧ (d.setInst i x).die = d.die ∧ (d.setInst i x).bdir = d.bdir ∧
    (d.setInst i x).lgroup = d.lgroup ∧ (d.setInst i x).obj = d.obj ∧ (d.setInst i x).objN = d.objN ∧
    (d.setInst i x).ctrN = d.ctrN ∧ (d.setInst i x).slotOf = d.slotOf :=
    ⟨rfl, rfl, rfl, rfl, rfl, rfl, rfl, rfl, rfl, rfl, rfl, rfl, rfl, rfl, rfl, rfl, rfl, rfl, rfl, rfl, rfl, rfl, rfl, rfl,
     rfl, rfl, rfl, rfl, rfl, rfl, rfl, rfl, rfl, rfl, rfl, rfl, rfl, rfl, rfl, rfl, rfl, rfl, rfl, rfl, rfl, rfl, rfl,
     rfl, rfl⟩

@[simp] theorem Dev.setIsle_isle (d : Dev) (i k : Nat) (x : Isle) : (d.setIsle i x).isle k = if k = i then x else d.isle k := mget_mput ..
@[simp] theorem Dev.setIsle_frame (d : Dev) (i : Nat) (x : Isle) :
    (d.setIsle i x).free = d.free ∧ (d.setIsle i x).pu = d.pu ∧ (d.setIsle i x).fw = d.fw ∧ (d.setIsle i x).dict = d.dict ∧
    (d.setIsle i x).ctr = d.ctr ∧ (d.setIsle i x).eps = d.eps ∧ (d.setIsle i x).net = d.net ∧
    (d.setIsle i x).spdm = d.spdm ∧ (d.setIsle i x).rings = d.rings ∧ (d.setIsle i x).dmas = d.dmas ∧
    (d.setIsle i x).nv = d.nv ∧ (d.setIsle i x).log = d.log ∧ (d.setIsle i x).power = d.power ∧
    (d.setIsle i x).slots = d.slots ∧ (d.setIsle i x).jobs = d.jobs ∧ (d.setIsle i x).groups = d.groups ∧
    (d.setIsle i x).sched = d.sched ∧ (d.setIsle i x).health = d.health ∧ (d.setIsle i x).sites = d.sites ∧
    (d.setIsle i x).fabric = d.fabric ∧ (d.setIsle i x).bridges = d.bridges ∧ (d.setIsle i x).ring = d.ring ∧
    (d.setIsle i x).lagoons = d.lagoons ∧ (d.setIsle i x).hbms = d.hbms ∧ (d.setIsle i x).arbs = d.arbs ∧
    (d.setIsle i x).cause = d.cause ∧ (d.setIsle i x).masks = d.masks ∧ (d.setIsle i x).links = d.links ∧
    (d.setIsle i x).colls = d.colls ∧ (d.setIsle i x).flows = d.flows ∧ (d.setIsle i x).site = d.site ∧
    (d.setIsle i x).lag = d.lag ∧ (d.setIsle i x).stk = d.stk ∧ (d.setIsle i x).arb = d.arb ∧ (d.setIsle i x).cw = d.cw ∧
    (d.setIsle i x).mask = d.mask ∧ (d.setIsle i x).lnk = d.lnk ∧ (d.setIsle i x).inst = d.inst ∧
    (d.setIsle i x).job = d.job ∧ (d.setIsle i x).slot = d.slot ∧ (d.setIsle i x).group = d.group ∧
    (d.setIsle i x).rng = d.rng ∧ (d.setIsle i x).die = d.die ∧ (d.setIsle i x).bdir = d.bdir ∧
    (d.setIsle i x).lgroup = d.lgroup ∧ (d.setIsle i x).obj = d.obj ∧ (d.setIsle i x).objN = d.objN ∧
    (d.setIsle i x).ctrN = d.ctrN ∧ (d.setIsle i x).slotOf = d.slotOf :=
    ⟨rfl, rfl, rfl, rfl, rfl, rfl, rfl, rfl, rfl, rfl, rfl, rfl, rfl, rfl, rfl, rfl, rfl, rfl, rfl, rfl, rfl, rfl, rfl, rfl,
     rfl, rfl, rfl, rfl, rfl, rfl, rfl, rfl, rfl, rfl, rfl, rfl, rfl, rfl, rfl, rfl, rfl, rfl, rfl, rfl, rfl, rfl, rfl,
     rfl, rfl⟩

@[simp] theorem Dev.setJob_job (d : Dev) (i k : Nat) (x : Job) : (d.setJob i x).job k = if k = i then x else d.job k := mget_mput ..
@[simp] theorem Dev.setJob_frame (d : Dev) (i : Nat) (x : Job) :
    (d.setJob i x).free = d.free ∧ (d.setJob i x).pu = d.pu ∧ (d.setJob i x).fw = d.fw ∧ (d.setJob i x).dict = d.dict ∧
    (d.setJob i x).ctr = d.ctr ∧ (d.setJob i x).eps = d.eps ∧ (d.setJob i x).net = d.net ∧ (d.setJob i x).spdm = d.spdm ∧
    (d.setJob i x).rings = d.rings ∧ (d.setJob i x).dmas = d.dmas ∧ (d.setJob i x).nv = d.nv ∧ (d.setJob i x).log = d.log ∧
    (d.setJob i x).power = d.power ∧ (d.setJob i x).isles = d.isles ∧ (d.setJob i x).slots = d.slots ∧
    (d.setJob i x).groups = d.groups ∧ (d.setJob i x).sched = d.sched ∧ (d.setJob i x).health = d.health ∧
    (d.setJob i x).sites = d.sites ∧ (d.setJob i x).fabric = d.fabric ∧ (d.setJob i x).bridges = d.bridges ∧
    (d.setJob i x).ring = d.ring ∧ (d.setJob i x).lagoons = d.lagoons ∧ (d.setJob i x).hbms = d.hbms ∧
    (d.setJob i x).arbs = d.arbs ∧ (d.setJob i x).cause = d.cause ∧ (d.setJob i x).masks = d.masks ∧
    (d.setJob i x).links = d.links ∧ (d.setJob i x).colls = d.colls ∧ (d.setJob i x).flows = d.flows ∧
    (d.setJob i x).site = d.site ∧ (d.setJob i x).lag = d.lag ∧ (d.setJob i x).stk = d.stk ∧ (d.setJob i x).arb = d.arb ∧
    (d.setJob i x).cw = d.cw ∧ (d.setJob i x).mask = d.mask ∧ (d.setJob i x).lnk = d.lnk ∧ (d.setJob i x).inst = d.inst ∧
    (d.setJob i x).isle = d.isle ∧ (d.setJob i x).slot = d.slot ∧ (d.setJob i x).group = d.group ∧
    (d.setJob i x).rng = d.rng ∧ (d.setJob i x).die = d.die ∧ (d.setJob i x).bdir = d.bdir ∧
    (d.setJob i x).lgroup = d.lgroup ∧ (d.setJob i x).obj = d.obj ∧ (d.setJob i x).objN = d.objN ∧
    (d.setJob i x).ctrN = d.ctrN ∧ (d.setJob i x).slotOf = d.slotOf :=
    ⟨rfl, rfl, rfl, rfl, rfl, rfl, rfl, rfl, rfl, rfl, rfl, rfl, rfl, rfl, rfl, rfl, rfl, rfl, rfl, rfl, rfl, rfl, rfl, rfl,
     rfl, rfl, rfl, rfl, rfl, rfl, rfl, rfl, rfl, rfl, rfl, rfl, rfl, rfl, rfl, rfl, rfl, rfl, rfl, rfl, rfl, rfl, rfl,
     rfl, rfl⟩

@[simp] theorem Dev.setSlot_slot (d : Dev) (i k : Nat) (x : Slot) : (d.setSlot i x).slot k = if k = i then x else d.slot k := mget_mput ..
@[simp] theorem Dev.setSlot_frame (d : Dev) (i : Nat) (x : Slot) :
    (d.setSlot i x).free = d.free ∧ (d.setSlot i x).pu = d.pu ∧ (d.setSlot i x).fw = d.fw ∧ (d.setSlot i x).dict = d.dict ∧
    (d.setSlot i x).ctr = d.ctr ∧ (d.setSlot i x).eps = d.eps ∧ (d.setSlot i x).net = d.net ∧
    (d.setSlot i x).spdm = d.spdm ∧ (d.setSlot i x).rings = d.rings ∧ (d.setSlot i x).dmas = d.dmas ∧
    (d.setSlot i x).nv = d.nv ∧ (d.setSlot i x).log = d.log ∧ (d.setSlot i x).power = d.power ∧
    (d.setSlot i x).isles = d.isles ∧ (d.setSlot i x).jobs = d.jobs ∧ (d.setSlot i x).groups = d.groups ∧
    (d.setSlot i x).sched = d.sched ∧ (d.setSlot i x).health = d.health ∧ (d.setSlot i x).sites = d.sites ∧
    (d.setSlot i x).fabric = d.fabric ∧ (d.setSlot i x).bridges = d.bridges ∧ (d.setSlot i x).ring = d.ring ∧
    (d.setSlot i x).lagoons = d.lagoons ∧ (d.setSlot i x).hbms = d.hbms ∧ (d.setSlot i x).arbs = d.arbs ∧
    (d.setSlot i x).cause = d.cause ∧ (d.setSlot i x).masks = d.masks ∧ (d.setSlot i x).links = d.links ∧
    (d.setSlot i x).colls = d.colls ∧ (d.setSlot i x).flows = d.flows ∧ (d.setSlot i x).site = d.site ∧
    (d.setSlot i x).lag = d.lag ∧ (d.setSlot i x).stk = d.stk ∧ (d.setSlot i x).arb = d.arb ∧ (d.setSlot i x).cw = d.cw ∧
    (d.setSlot i x).mask = d.mask ∧ (d.setSlot i x).lnk = d.lnk ∧ (d.setSlot i x).inst = d.inst ∧
    (d.setSlot i x).isle = d.isle ∧ (d.setSlot i x).job = d.job ∧ (d.setSlot i x).group = d.group ∧
    (d.setSlot i x).rng = d.rng ∧ (d.setSlot i x).die = d.die ∧ (d.setSlot i x).bdir = d.bdir ∧
    (d.setSlot i x).lgroup = d.lgroup ∧ (d.setSlot i x).obj = d.obj ∧ (d.setSlot i x).objN = d.objN ∧
    (d.setSlot i x).ctrN = d.ctrN ∧ (d.setSlot i x).slotOf = d.slotOf :=
    ⟨rfl, rfl, rfl, rfl, rfl, rfl, rfl, rfl, rfl, rfl, rfl, rfl, rfl, rfl, rfl, rfl, rfl, rfl, rfl, rfl, rfl, rfl, rfl, rfl,
     rfl, rfl, rfl, rfl, rfl, rfl, rfl, rfl, rfl, rfl, rfl, rfl, rfl, rfl, rfl, rfl, rfl, rfl, rfl, rfl, rfl, rfl, rfl,
     rfl, rfl⟩

@[simp] theorem Dev.setGroup_group (d : Dev) (i k : Nat) (x : Group) : (d.setGroup i x).group k = if k = i then x else d.group k := mget_mput ..
@[simp] theorem Dev.setGroup_frame (d : Dev) (i : Nat) (x : Group) :
    (d.setGroup i x).free = d.free ∧ (d.setGroup i x).pu = d.pu ∧ (d.setGroup i x).fw = d.fw ∧
    (d.setGroup i x).dict = d.dict ∧ (d.setGroup i x).ctr = d.ctr ∧ (d.setGroup i x).eps = d.eps ∧
    (d.setGroup i x).net = d.net ∧ (d.setGroup i x).spdm = d.spdm ∧ (d.setGroup i x).rings = d.rings ∧
    (d.setGroup i x).dmas = d.dmas ∧ (d.setGroup i x).nv = d.nv ∧ (d.setGroup i x).log = d.log ∧
    (d.setGroup i x).power = d.power ∧ (d.setGroup i x).isles = d.isles ∧ (d.setGroup i x).slots = d.slots ∧
    (d.setGroup i x).jobs = d.jobs ∧ (d.setGroup i x).sched = d.sched ∧ (d.setGroup i x).health = d.health ∧
    (d.setGroup i x).sites = d.sites ∧ (d.setGroup i x).fabric = d.fabric ∧ (d.setGroup i x).bridges = d.bridges ∧
    (d.setGroup i x).ring = d.ring ∧ (d.setGroup i x).lagoons = d.lagoons ∧ (d.setGroup i x).hbms = d.hbms ∧
    (d.setGroup i x).arbs = d.arbs ∧ (d.setGroup i x).cause = d.cause ∧ (d.setGroup i x).masks = d.masks ∧
    (d.setGroup i x).links = d.links ∧ (d.setGroup i x).colls = d.colls ∧ (d.setGroup i x).flows = d.flows ∧
    (d.setGroup i x).site = d.site ∧ (d.setGroup i x).lag = d.lag ∧ (d.setGroup i x).stk = d.stk ∧
    (d.setGroup i x).arb = d.arb ∧ (d.setGroup i x).cw = d.cw ∧ (d.setGroup i x).mask = d.mask ∧
    (d.setGroup i x).lnk = d.lnk ∧ (d.setGroup i x).inst = d.inst ∧ (d.setGroup i x).isle = d.isle ∧
    (d.setGroup i x).job = d.job ∧ (d.setGroup i x).slot = d.slot ∧ (d.setGroup i x).rng = d.rng ∧
    (d.setGroup i x).die = d.die ∧ (d.setGroup i x).bdir = d.bdir ∧ (d.setGroup i x).lgroup = d.lgroup ∧
    (d.setGroup i x).obj = d.obj ∧ (d.setGroup i x).objN = d.objN ∧ (d.setGroup i x).ctrN = d.ctrN ∧
    (d.setGroup i x).slotOf = d.slotOf :=
    ⟨rfl, rfl, rfl, rfl, rfl, rfl, rfl, rfl, rfl, rfl, rfl, rfl, rfl, rfl, rfl, rfl, rfl, rfl, rfl, rfl, rfl, rfl, rfl, rfl,
     rfl, rfl, rfl, rfl, rfl, rfl, rfl, rfl, rfl, rfl, rfl, rfl, rfl, rfl, rfl, rfl, rfl, rfl, rfl, rfl, rfl, rfl, rfl,
     rfl, rfl⟩

@[simp] theorem Dev.setRng_rng (d : Dev) (i k : Nat) (x : Ring) : (d.setRng i x).rng k = if k = i then x else d.rng k := mget_mput ..
@[simp] theorem Dev.setRng_frame (d : Dev) (i : Nat) (x : Ring) :
    (d.setRng i x).free = d.free ∧ (d.setRng i x).pu = d.pu ∧ (d.setRng i x).fw = d.fw ∧ (d.setRng i x).dict = d.dict ∧
    (d.setRng i x).ctr = d.ctr ∧ (d.setRng i x).eps = d.eps ∧ (d.setRng i x).net = d.net ∧ (d.setRng i x).spdm = d.spdm ∧
    (d.setRng i x).dmas = d.dmas ∧ (d.setRng i x).nv = d.nv ∧ (d.setRng i x).log = d.log ∧ (d.setRng i x).power = d.power ∧
    (d.setRng i x).isles = d.isles ∧ (d.setRng i x).slots = d.slots ∧ (d.setRng i x).jobs = d.jobs ∧
    (d.setRng i x).groups = d.groups ∧ (d.setRng i x).sched = d.sched ∧ (d.setRng i x).health = d.health ∧
    (d.setRng i x).sites = d.sites ∧ (d.setRng i x).fabric = d.fabric ∧ (d.setRng i x).bridges = d.bridges ∧
    (d.setRng i x).ring = d.ring ∧ (d.setRng i x).lagoons = d.lagoons ∧ (d.setRng i x).hbms = d.hbms ∧
    (d.setRng i x).arbs = d.arbs ∧ (d.setRng i x).cause = d.cause ∧ (d.setRng i x).masks = d.masks ∧
    (d.setRng i x).links = d.links ∧ (d.setRng i x).colls = d.colls ∧ (d.setRng i x).flows = d.flows ∧
    (d.setRng i x).site = d.site ∧ (d.setRng i x).lag = d.lag ∧ (d.setRng i x).stk = d.stk ∧ (d.setRng i x).arb = d.arb ∧
    (d.setRng i x).cw = d.cw ∧ (d.setRng i x).mask = d.mask ∧ (d.setRng i x).lnk = d.lnk ∧ (d.setRng i x).inst = d.inst ∧
    (d.setRng i x).isle = d.isle ∧ (d.setRng i x).job = d.job ∧ (d.setRng i x).slot = d.slot ∧
    (d.setRng i x).group = d.group ∧ (d.setRng i x).die = d.die ∧ (d.setRng i x).bdir = d.bdir ∧
    (d.setRng i x).lgroup = d.lgroup ∧ (d.setRng i x).obj = d.obj ∧ (d.setRng i x).objN = d.objN ∧
    (d.setRng i x).ctrN = d.ctrN ∧ (d.setRng i x).slotOf = d.slotOf :=
    ⟨rfl, rfl, rfl, rfl, rfl, rfl, rfl, rfl, rfl, rfl, rfl, rfl, rfl, rfl, rfl, rfl, rfl, rfl, rfl, rfl, rfl, rfl, rfl, rfl,
     rfl, rfl, rfl, rfl, rfl, rfl, rfl, rfl, rfl, rfl, rfl, rfl, rfl, rfl, rfl, rfl, rfl, rfl, rfl, rfl, rfl, rfl, rfl,
     rfl, rfl⟩

@[simp] theorem Dev.setDie_die (d : Dev) (i k : Nat) (x : SpdmDie) : (d.setDie i x).die k = if k = i then x else d.die k := mget_mput ..
@[simp] theorem Dev.setDie_frame (d : Dev) (i : Nat) (x : SpdmDie) :
    (d.setDie i x).free = d.free ∧ (d.setDie i x).pu = d.pu ∧ (d.setDie i x).fw = d.fw ∧ (d.setDie i x).dict = d.dict ∧
    (d.setDie i x).ctr = d.ctr ∧ (d.setDie i x).eps = d.eps ∧ (d.setDie i x).net = d.net ∧ (d.setDie i x).rings = d.rings ∧
    (d.setDie i x).dmas = d.dmas ∧ (d.setDie i x).nv = d.nv ∧ (d.setDie i x).log = d.log ∧ (d.setDie i x).power = d.power ∧
    (d.setDie i x).isles = d.isles ∧ (d.setDie i x).slots = d.slots ∧ (d.setDie i x).jobs = d.jobs ∧
    (d.setDie i x).groups = d.groups ∧ (d.setDie i x).sched = d.sched ∧ (d.setDie i x).health = d.health ∧
    (d.setDie i x).sites = d.sites ∧ (d.setDie i x).fabric = d.fabric ∧ (d.setDie i x).bridges = d.bridges ∧
    (d.setDie i x).ring = d.ring ∧ (d.setDie i x).lagoons = d.lagoons ∧ (d.setDie i x).hbms = d.hbms ∧
    (d.setDie i x).arbs = d.arbs ∧ (d.setDie i x).cause = d.cause ∧ (d.setDie i x).masks = d.masks ∧
    (d.setDie i x).links = d.links ∧ (d.setDie i x).colls = d.colls ∧ (d.setDie i x).flows = d.flows ∧
    (d.setDie i x).site = d.site ∧ (d.setDie i x).lag = d.lag ∧ (d.setDie i x).stk = d.stk ∧ (d.setDie i x).arb = d.arb ∧
    (d.setDie i x).cw = d.cw ∧ (d.setDie i x).mask = d.mask ∧ (d.setDie i x).lnk = d.lnk ∧ (d.setDie i x).inst = d.inst ∧
    (d.setDie i x).isle = d.isle ∧ (d.setDie i x).job = d.job ∧ (d.setDie i x).slot = d.slot ∧
    (d.setDie i x).group = d.group ∧ (d.setDie i x).rng = d.rng ∧ (d.setDie i x).bdir = d.bdir ∧
    (d.setDie i x).lgroup = d.lgroup ∧ (d.setDie i x).obj = d.obj ∧ (d.setDie i x).objN = d.objN ∧
    (d.setDie i x).ctrN = d.ctrN ∧ (d.setDie i x).slotOf = d.slotOf :=
    ⟨rfl, rfl, rfl, rfl, rfl, rfl, rfl, rfl, rfl, rfl, rfl, rfl, rfl, rfl, rfl, rfl, rfl, rfl, rfl, rfl, rfl, rfl, rfl, rfl,
     rfl, rfl, rfl, rfl, rfl, rfl, rfl, rfl, rfl, rfl, rfl, rfl, rfl, rfl, rfl, rfl, rfl, rfl, rfl, rfl, rfl, rfl, rfl,
     rfl, rfl⟩

@[simp] theorem Dev.setBdir_bdir (d : Dev) (i k : Nat) (x : BridgeState) : (d.setBdir i x).bdir k = if k = i then x else d.bdir k := mget_mput ..
@[simp] theorem Dev.setBdir_frame (d : Dev) (i : Nat) (x : BridgeState) :
    (d.setBdir i x).free = d.free ∧ (d.setBdir i x).pu = d.pu ∧ (d.setBdir i x).fw = d.fw ∧ (d.setBdir i x).dict = d.dict ∧
    (d.setBdir i x).ctr = d.ctr ∧ (d.setBdir i x).eps = d.eps ∧ (d.setBdir i x).net = d.net ∧
    (d.setBdir i x).spdm = d.spdm ∧ (d.setBdir i x).rings = d.rings ∧ (d.setBdir i x).dmas = d.dmas ∧
    (d.setBdir i x).nv = d.nv ∧ (d.setBdir i x).log = d.log ∧ (d.setBdir i x).power = d.power ∧
    (d.setBdir i x).isles = d.isles ∧ (d.setBdir i x).slots = d.slots ∧ (d.setBdir i x).jobs = d.jobs ∧
    (d.setBdir i x).groups = d.groups ∧ (d.setBdir i x).sched = d.sched ∧ (d.setBdir i x).health = d.health ∧
    (d.setBdir i x).sites = d.sites ∧ (d.setBdir i x).fabric = d.fabric ∧ (d.setBdir i x).ring = d.ring ∧
    (d.setBdir i x).lagoons = d.lagoons ∧ (d.setBdir i x).hbms = d.hbms ∧ (d.setBdir i x).arbs = d.arbs ∧
    (d.setBdir i x).cause = d.cause ∧ (d.setBdir i x).masks = d.masks ∧ (d.setBdir i x).links = d.links ∧
    (d.setBdir i x).colls = d.colls ∧ (d.setBdir i x).flows = d.flows ∧ (d.setBdir i x).site = d.site ∧
    (d.setBdir i x).lag = d.lag ∧ (d.setBdir i x).stk = d.stk ∧ (d.setBdir i x).arb = d.arb ∧ (d.setBdir i x).cw = d.cw ∧
    (d.setBdir i x).mask = d.mask ∧ (d.setBdir i x).lnk = d.lnk ∧ (d.setBdir i x).inst = d.inst ∧
    (d.setBdir i x).isle = d.isle ∧ (d.setBdir i x).job = d.job ∧ (d.setBdir i x).slot = d.slot ∧
    (d.setBdir i x).group = d.group ∧ (d.setBdir i x).rng = d.rng ∧ (d.setBdir i x).die = d.die ∧
    (d.setBdir i x).obj = d.obj ∧ (d.setBdir i x).objN = d.objN ∧ (d.setBdir i x).ctrN = d.ctrN ∧
    (d.setBdir i x).slotOf = d.slotOf :=
    ⟨rfl, rfl, rfl, rfl, rfl, rfl, rfl, rfl, rfl, rfl, rfl, rfl, rfl, rfl, rfl, rfl, rfl, rfl, rfl, rfl, rfl, rfl, rfl, rfl,
     rfl, rfl, rfl, rfl, rfl, rfl, rfl, rfl, rfl, rfl, rfl, rfl, rfl, rfl, rfl, rfl, rfl, rfl, rfl, rfl, rfl, rfl, rfl,
     rfl⟩

@[simp] theorem Dev.setCtr_frame (d : Dev) (idx sub v : Nat) :
    (d.setCtr idx sub v).free = d.free ∧ (d.setCtr idx sub v).pu = d.pu ∧ (d.setCtr idx sub v).fw = d.fw ∧
    (d.setCtr idx sub v).dict = d.dict ∧ (d.setCtr idx sub v).eps = d.eps ∧ (d.setCtr idx sub v).net = d.net ∧
    (d.setCtr idx sub v).spdm = d.spdm ∧ (d.setCtr idx sub v).rings = d.rings ∧ (d.setCtr idx sub v).dmas = d.dmas ∧
    (d.setCtr idx sub v).nv = d.nv ∧ (d.setCtr idx sub v).log = d.log ∧ (d.setCtr idx sub v).power = d.power ∧
    (d.setCtr idx sub v).isles = d.isles ∧ (d.setCtr idx sub v).slots = d.slots ∧ (d.setCtr idx sub v).jobs = d.jobs ∧
    (d.setCtr idx sub v).groups = d.groups ∧ (d.setCtr idx sub v).sched = d.sched ∧ (d.setCtr idx sub v).health = d.health ∧
    (d.setCtr idx sub v).sites = d.sites ∧ (d.setCtr idx sub v).fabric = d.fabric ∧
    (d.setCtr idx sub v).bridges = d.bridges ∧ (d.setCtr idx sub v).ring = d.ring ∧
    (d.setCtr idx sub v).lagoons = d.lagoons ∧ (d.setCtr idx sub v).hbms = d.hbms ∧ (d.setCtr idx sub v).arbs = d.arbs ∧
    (d.setCtr idx sub v).cause = d.cause ∧ (d.setCtr idx sub v).masks = d.masks ∧ (d.setCtr idx sub v).links = d.links ∧
    (d.setCtr idx sub v).colls = d.colls ∧ (d.setCtr idx sub v).flows = d.flows ∧ (d.setCtr idx sub v).site = d.site ∧
    (d.setCtr idx sub v).lag = d.lag ∧ (d.setCtr idx sub v).stk = d.stk ∧ (d.setCtr idx sub v).arb = d.arb ∧
    (d.setCtr idx sub v).cw = d.cw ∧ (d.setCtr idx sub v).mask = d.mask ∧ (d.setCtr idx sub v).lnk = d.lnk ∧
    (d.setCtr idx sub v).inst = d.inst ∧ (d.setCtr idx sub v).isle = d.isle ∧ (d.setCtr idx sub v).job = d.job ∧
    (d.setCtr idx sub v).slot = d.slot ∧ (d.setCtr idx sub v).group = d.group ∧ (d.setCtr idx sub v).rng = d.rng ∧
    (d.setCtr idx sub v).die = d.die ∧ (d.setCtr idx sub v).bdir = d.bdir ∧ (d.setCtr idx sub v).lgroup = d.lgroup ∧
    (d.setCtr idx sub v).obj = d.obj ∧ (d.setCtr idx sub v).objN = d.objN ∧ (d.setCtr idx sub v).slotOf = d.slotOf :=
    ⟨rfl, rfl, rfl, rfl, rfl, rfl, rfl, rfl, rfl, rfl, rfl, rfl, rfl, rfl, rfl, rfl, rfl, rfl, rfl, rfl, rfl, rfl, rfl, rfl,
     rfl, rfl, rfl, rfl, rfl, rfl, rfl, rfl, rfl, rfl, rfl, rfl, rfl, rfl, rfl, rfl, rfl, rfl, rfl, rfl, rfl, rfl, rfl,
     rfl, rfl⟩

@[simp] theorem Dev.bump_frame (d : Dev) (idx sub v : Nat) :
    (d.bump idx sub v).free = d.free ∧ (d.bump idx sub v).pu = d.pu ∧ (d.bump idx sub v).fw = d.fw ∧
    (d.bump idx sub v).dict = d.dict ∧ (d.bump idx sub v).eps = d.eps ∧ (d.bump idx sub v).net = d.net ∧
    (d.bump idx sub v).spdm = d.spdm ∧ (d.bump idx sub v).rings = d.rings ∧ (d.bump idx sub v).dmas = d.dmas ∧
    (d.bump idx sub v).nv = d.nv ∧ (d.bump idx sub v).log = d.log ∧ (d.bump idx sub v).power = d.power ∧
    (d.bump idx sub v).isles = d.isles ∧ (d.bump idx sub v).slots = d.slots ∧ (d.bump idx sub v).jobs = d.jobs ∧
    (d.bump idx sub v).groups = d.groups ∧ (d.bump idx sub v).sched = d.sched ∧ (d.bump idx sub v).health = d.health ∧
    (d.bump idx sub v).sites = d.sites ∧ (d.bump idx sub v).fabric = d.fabric ∧ (d.bump idx sub v).bridges = d.bridges ∧
    (d.bump idx sub v).ring = d.ring ∧ (d.bump idx sub v).lagoons = d.lagoons ∧ (d.bump idx sub v).hbms = d.hbms ∧
    (d.bump idx sub v).arbs = d.arbs ∧ (d.bump idx sub v).cause = d.cause ∧ (d.bump idx sub v).masks = d.masks ∧
    (d.bump idx sub v).links = d.links ∧ (d.bump idx sub v).colls = d.colls ∧ (d.bump idx sub v).flows = d.flows ∧
    (d.bump idx sub v).site = d.site ∧ (d.bump idx sub v).lag = d.lag ∧ (d.bump idx sub v).stk = d.stk ∧
    (d.bump idx sub v).arb = d.arb ∧ (d.bump idx sub v).cw = d.cw ∧ (d.bump idx sub v).mask = d.mask ∧
    (d.bump idx sub v).lnk = d.lnk ∧ (d.bump idx sub v).inst = d.inst ∧ (d.bump idx sub v).isle = d.isle ∧
    (d.bump idx sub v).job = d.job ∧ (d.bump idx sub v).slot = d.slot ∧ (d.bump idx sub v).group = d.group ∧
    (d.bump idx sub v).rng = d.rng ∧ (d.bump idx sub v).die = d.die ∧ (d.bump idx sub v).bdir = d.bdir ∧
    (d.bump idx sub v).lgroup = d.lgroup ∧ (d.bump idx sub v).obj = d.obj ∧ (d.bump idx sub v).objN = d.objN ∧
    (d.bump idx sub v).slotOf = d.slotOf :=
    ⟨rfl, rfl, rfl, rfl, rfl, rfl, rfl, rfl, rfl, rfl, rfl, rfl, rfl, rfl, rfl, rfl, rfl, rfl, rfl, rfl, rfl, rfl, rfl, rfl,
     rfl, rfl, rfl, rfl, rfl, rfl, rfl, rfl, rfl, rfl, rfl, rfl, rfl, rfl, rfl, rfl, rfl, rfl, rfl, rfl, rfl, rfl, rfl,
     rfl, rfl⟩

@[simp] theorem Dev.setObj_frame (d : Dev) (idx sub : Nat) (v : List Byte) :
    (d.setObj idx sub v).free = d.free ∧ (d.setObj idx sub v).pu = d.pu ∧ (d.setObj idx sub v).fw = d.fw ∧
    (d.setObj idx sub v).ctr = d.ctr ∧ (d.setObj idx sub v).eps = d.eps ∧ (d.setObj idx sub v).net = d.net ∧
    (d.setObj idx sub v).spdm = d.spdm ∧ (d.setObj idx sub v).rings = d.rings ∧ (d.setObj idx sub v).dmas = d.dmas ∧
    (d.setObj idx sub v).nv = d.nv ∧ (d.setObj idx sub v).log = d.log ∧ (d.setObj idx sub v).power = d.power ∧
    (d.setObj idx sub v).isles = d.isles ∧ (d.setObj idx sub v).slots = d.slots ∧ (d.setObj idx sub v).jobs = d.jobs ∧
    (d.setObj idx sub v).groups = d.groups ∧ (d.setObj idx sub v).sched = d.sched ∧ (d.setObj idx sub v).health = d.health ∧
    (d.setObj idx sub v).sites = d.sites ∧ (d.setObj idx sub v).fabric = d.fabric ∧
    (d.setObj idx sub v).bridges = d.bridges ∧ (d.setObj idx sub v).ring = d.ring ∧
    (d.setObj idx sub v).lagoons = d.lagoons ∧ (d.setObj idx sub v).hbms = d.hbms ∧ (d.setObj idx sub v).arbs = d.arbs ∧
    (d.setObj idx sub v).cause = d.cause ∧ (d.setObj idx sub v).masks = d.masks ∧ (d.setObj idx sub v).links = d.links ∧
    (d.setObj idx sub v).colls = d.colls ∧ (d.setObj idx sub v).flows = d.flows ∧ (d.setObj idx sub v).site = d.site ∧
    (d.setObj idx sub v).lag = d.lag ∧ (d.setObj idx sub v).stk = d.stk ∧ (d.setObj idx sub v).arb = d.arb ∧
    (d.setObj idx sub v).cw = d.cw ∧ (d.setObj idx sub v).mask = d.mask ∧ (d.setObj idx sub v).lnk = d.lnk ∧
    (d.setObj idx sub v).inst = d.inst ∧ (d.setObj idx sub v).isle = d.isle ∧ (d.setObj idx sub v).job = d.job ∧
    (d.setObj idx sub v).slot = d.slot ∧ (d.setObj idx sub v).group = d.group ∧ (d.setObj idx sub v).rng = d.rng ∧
    (d.setObj idx sub v).die = d.die ∧ (d.setObj idx sub v).bdir = d.bdir ∧ (d.setObj idx sub v).lgroup = d.lgroup ∧
    (d.setObj idx sub v).ctrN = d.ctrN :=
    ⟨rfl, rfl, rfl, rfl, rfl, rfl, rfl, rfl, rfl, rfl, rfl, rfl, rfl, rfl, rfl, rfl, rfl, rfl, rfl, rfl, rfl, rfl, rfl, rfl,
     rfl, rfl, rfl, rfl, rfl, rfl, rfl, rfl, rfl, rfl, rfl, rfl, rfl, rfl, rfl, rfl, rfl, rfl, rfl, rfl, rfl, rfl, rfl⟩

/-- The error log and the counters are all that an error-log entry changes. -/
theorem Dev.logErr_eq (d : Dev) (t : TimeBase) (code job die unit wh tag detail slot : Nat) :
    d.logErr t code job die unit wh tag detail slot =
      { d with log := (d.logErr t code job die unit wh tag detail slot).log,
               ctr := (d.logErr t code job die unit wh tag detail slot).ctr } := by
  by_cases h1 : 4096 ≤ d.log.entries.length <;> by_cases h2 : job < 256 <;>
    simp [Dev.logErr, Dev.bump, Dev.setCtr, h1, h2]

@[simp] theorem Dev.logErr_frame (d : Dev) (t : TimeBase) (code job die unit wh tag detail slot : Nat) :
    (d.logErr t code job die unit wh tag detail slot).free = d.free ∧
    (d.logErr t code job die unit wh tag detail slot).pu = d.pu ∧
    (d.logErr t code job die unit wh tag detail slot).fw = d.fw ∧
    (d.logErr t code job die unit wh tag detail slot).dict = d.dict ∧
  
    (d.logErr t code job die unit wh tag detail slot).eps = d.eps ∧
    (d.logErr t code job die unit wh tag detail slot).net = d.net ∧
    (d.logErr t code job die unit wh tag detail slot).spdm = d.spdm ∧
    (d.logErr t code job die unit wh tag detail slot).rings = d.rings ∧
    (d.logErr t code job die unit wh tag detail slot).dmas = d.dmas ∧
    (d.logErr t code job die unit wh tag detail slot).nv = d.nv ∧
    (d.logErr t code job die unit wh tag detail slot).power = d.power ∧
    (d.logErr t code job die unit wh tag detail slot).isles = d.isles ∧
    (d.logErr t code job die unit wh tag detail slot).slots = d.slots ∧
    (d.logErr t code job die unit wh tag detail slot).jobs = d.jobs ∧
    (d.logErr t code job die unit wh tag detail slot).groups = d.groups ∧
    (d.logErr t code job die unit wh tag detail slot).sched = d.sched ∧
    (d.logErr t code job die unit wh tag detail slot).health = d.health ∧
    (d.logErr t code job die unit wh tag detail slot).sites = d.sites ∧
    (d.logErr t code job die unit wh tag detail slot).fabric = d.fabric ∧
    (d.logErr t code job die unit wh tag detail slot).bridges = d.bridges ∧
    (d.logErr t code job die unit wh tag detail slot).ring = d.ring ∧
    (d.logErr t code job die unit wh tag detail slot).lagoons = d.lagoons ∧
    (d.logErr t code job die unit wh tag detail slot).hbms = d.hbms ∧
    (d.logErr t code job die unit wh tag detail slot).arbs = d.arbs ∧
    (d.logErr t code job die unit wh tag detail slot).cause = d.cause ∧
    (d.logErr t code job die unit wh tag detail slot).masks = d.masks ∧
    (d.logErr t code job die unit wh tag detail slot).links = d.links ∧
    (d.logErr t code job die unit wh tag detail slot).colls = d.colls ∧
    (d.logErr t code job die unit wh tag detail slot).flows = d.flows ∧
    (d.logErr t code job die unit wh tag detail slot).site = d.site ∧
    (d.logErr t code job die unit wh tag detail slot).lag = d.lag ∧
    (d.logErr t code job die unit wh tag detail slot).stk = d.stk ∧
    (d.logErr t code job die unit wh tag detail slot).arb = d.arb ∧
    (d.logErr t code job die unit wh tag detail slot).cw = d.cw ∧
    (d.logErr t code job die unit wh tag detail slot).mask = d.mask ∧
    (d.logErr t code job die unit wh tag detail slot).lnk = d.lnk ∧
    (d.logErr t code job die unit wh tag detail slot).inst = d.inst ∧
    (d.logErr t code job die unit wh tag detail slot).isle = d.isle ∧
    (d.logErr t code job die unit wh tag detail slot).job = d.job ∧
    (d.logErr t code job die unit wh tag detail slot).slot = d.slot ∧
    (d.logErr t code job die unit wh tag detail slot).group = d.group ∧
    (d.logErr t code job die unit wh tag detail slot).rng = d.rng ∧
    (d.logErr t code job die unit wh tag detail slot).die = d.die ∧
    (d.logErr t code job die unit wh tag detail slot).bdir = d.bdir ∧
    (d.logErr t code job die unit wh tag detail slot).lgroup = d.lgroup ∧
    (d.logErr t code job die unit wh tag detail slot).obj = d.obj ∧
    (d.logErr t code job die unit wh tag detail slot).objN = d.objN ∧
    (d.logErr t code job die unit wh tag detail slot).slotOf = d.slotOf := by
  rw [Dev.logErr_eq]
  exact ⟨rfl, rfl, rfl, rfl, rfl, rfl, rfl, rfl, rfl, rfl, rfl, rfl, rfl, rfl, rfl, rfl, rfl, rfl, rfl, rfl, rfl, rfl, rfl, rfl, rfl, rfl, rfl, rfl, rfl, rfl, rfl, rfl, rfl, rfl, rfl, rfl, rfl, rfl, rfl, rfl, rfl, rfl, rfl, rfl, rfl, rfl, rfl, rfl⟩

/-- An error-log entry takes from the time base its stamp alone. -/
theorem Dev.logErr_stamp (d : Dev) {t u : TimeBase} (h : t.ns = u.ns) (code job die unit wh tag detail slot : Nat) :
    d.logErr t code job die unit wh tag detail slot = d.logErr u code job die unit wh tag detail slot := by
  unfold Dev.logErr; rw [h]

@[simp] theorem act_next (s : State) (f : TimeBase → Dev → Dev) : act s f = .next { s with dev := f s.time s.dev } := rfl

@[simp] theorem actTime_next (s : State) (f : TimeBase → Dev → TimeBase × Dev) :
    actTime s f = .next { s with time := (f s.time s.dev).1, dev := (f s.time s.dev).2 } := rfl

/-- What a command that leaves the time base does to the rest of the state. -/
theorem act_inv {s t : State} {f : TimeBase → Dev → Dev} (h : act s f = .next t) :
    t.time = s.time ∧ t.dev = f s.time s.dev ∧ t.pending = s.pending := by
  rw [act_next] at h
  generalize f s.time s.dev = x at *
  injection h with h; subst h; exact ⟨rfl, rfl, rfl⟩

/-- What a command that may change the time base leaves. -/
theorem actTime_inv {s t : State} {f : TimeBase → Dev → TimeBase × Dev} (h : actTime s f = .next t) :
    t.time = (f s.time s.dev).1 ∧ t.dev = (f s.time s.dev).2 ∧ t.pending = s.pending := by
  rw [actTime_next] at h
  generalize f s.time s.dev = x at *
  injection h with h; subst h; exact ⟨rfl, rfl, rfl⟩

@[simp] theorem Dev.ctrN_setCtr (d : Dev) (idx sub v : Nat) : (d.setCtr idx sub v).ctrN idx sub = v := mget_mput_same ..

theorem Dev.ctrN_setCtr_other (d : Dev) (idx sub v i k : Nat) (h : objKey i k ≠ objKey idx sub) :
    (d.setCtr idx sub v).ctrN i k = d.ctrN i k := by
  unfold Dev.ctrN Dev.setCtr mput
  split
  · rw [mget_mdel, if_neg h]
  · rw [mget_mins, if_neg h]

@[simp] theorem Dev.obj_setObj (d : Dev) (idx sub : Nat) (v : List Byte) : (d.setObj idx sub v).obj idx sub = v :=
  mget_mput_same ..

end Sys2Proof.Machine
end

