-- ==== Sys2Proof/WellFormed.lean ====
section
/-! DEFINITION. Well-formed commands: the operands that a type does not bound. -/
namespace Sys2Proof

/-- Symbol errors name each of the 36 symbols at most once, in ascending order, each with a nonzero error (R228). -/
def symErrsOk : SymErrs → Bool
  | [] => true
  | (p, e) :: r =>
    !decide (e = 0) && (match r with | [] => true | (q, _) :: _ => decide (p < q)) && symErrsOk r

/-- An SDO request carries at most the bytes of the largest object (R499, R513). -/
def sdoOk : SdoReq → Bool
  | .write _ _ d | .writeAll _ _ d | .segData d _ => decide (d.length ≤ 16777216)
  | _ => true

/-- A strait frame holds 192 beats and 24 credit entries (Table 13-1). -/
def frameOk (f : StraitFrame) : Bool := decide (f.payload.length = 192) && decide (f.credits.length = 24)

/-- Numbers in rising order. -/
def rising : List Nat → Bool
  | [] => true
  | a :: r => (match r with | [] => true | b :: _ => decide (a < b)) && rising r

/-- The symbols in error of the five codewords of a strait frame, each symbol once (R403). -/
def codewordsOk (l : List (List (Fin 544))) : Bool := decide (l.length ≤ 5) && l.all fun c => rising (c.map (·.val))

/-- Operands of a command within what its rule admits. -/
def Instr.wf : Instr → Bool
  | .telemetrySample p _ _ _ _ v a => decide (p.length = 4) && decide (v.length = 4) && decide (a.length = 4)
  | .writeDataSram _ n _ d => decide (d.length = if n.val = 3 then 3 else n.val + 1)
  | .writeProgramStore _ _ w => decide (w.length = 4)
  | .narrowWrite _ _ _ e | .atomicAdd _ _ _ e | .atomicCompareReplace _ _ _ e | .auCombine _ _ _ e => symErrsOk e
  | .auDepositFp32 _ _ _ l | .auDepositInt32 _ _ _ l => decide (l.length ≤ 8) && l.all symErrsOk
  | .hbmReadComplete _ _ l _ => decide (l.length ≤ 8) && l.all symErrsOk
  | .submit _ d _ _ | .cancel _ d => decide (d.length = 64)
  | .straitFrameReceive _ f _ e _ => frameOk f && codewordsOk e
  | .sdoRequest _ r | .tenantSdo _ _ r | .mbxGo _ _ _ r => sdoOk r
  | .cpAuthResponse _ b _ => decide (b.length = 132)
  | .cpWriteTicket _ b _ => decide (b.length = 160)
  | .dmaCommand _ e => decide (e.length = 64)
  | .ingressRecord _ e x => decide (e.length = 64) && decide (x.length ≤ 1536)
  | .slotTenantKey _ _ k | .ownerKey _ _ k => decide (k.length ≤ 16777216)
  | .isthmusTrainingEnd _ l => decide (l.length = 64)
  | _ => true

end Sys2Proof
end

