-- ==== Sys2Proof/Tests/Slice0.lean ====
section
/-! SUPPORT. Tests: ill-formed commands, worked examples of the spec, and for each statement with hypotheses a state and operands that
meet them. -/
namespace Sys2Proof.Tests
open Sys2Proof Sys2Proof.Machine

set_option Elab.async false
/-- A state with a device in it. -/
abbrev onDev (d : Dev) : State := { dev := d }

/-- A state with a time base in it. -/
abbrev onTime (t : TimeBase) : State := { time := t }

/-! ### Well-formed commands: each check refuses a term -/

theorem test_wf_admits : Instr.wf .ppsEdge = true ∧ Instr.wf (.narrowWrite 0 .n .first [(1, 7), (2, 9)]) = true := by decide

theorem test_wf_symErrs_zero : Instr.wf (.atomicAdd 0 .n .first [(1, 0)]) = false := by decide

theorem test_wf_symErrs_order : Instr.wf (.auCombine 0 .n .first [(2, 9), (1, 7)]) = false := by decide

theorem test_wf_telemetry : Instr.wf (.telemetrySample [1, 2, 3] 0 0 0 0 [1, 2, 3, 4] [1, 2, 3, 4]) = false := by decide

theorem test_wf_writeDataSram : Instr.wf (.writeDataSram 0 1 0 [1]) = false ∧ Instr.wf (.writeDataSram 0 1 0 [1, 2]) = true := by decide

theorem test_wf_writeProgramStore : Instr.wf (.writeProgramStore 0 0 [1, 2, 3]) = false := by decide

theorem test_wf_deposit : Instr.wf (.auDepositFp32 0 .n .first (List.replicate 9 [])) = false := by decide

theorem test_wf_readComplete : Instr.wf (.hbmReadComplete 0 0 [[(1, 0)]] 0) = false := by decide

theorem test_wf_submit : Instr.wf (.submit 0 [] [] true) = false ∧ Instr.wf (.cancel 0 (List.replicate 63 0)) = false := by decide

theorem test_wf_straitFrame : Instr.wf (.straitFrameReceive 0
    { txc := 0, fseq := 0, ack := 0, nak := false, keysel := false, payload := [], credits := List.replicate 24 0 } true [] none) = false ∧
    Instr.wf (.straitFrameReceive 0
    { txc := 0, fseq := 0, ack := 0, nak := false, keysel := false, payload := List.replicate 192 0, credits := List.replicate 24 0 } true
      [[3, 3]] none) = false := by decide +kernel

theorem test_wf_keys : Instr.wf (.cpAuthResponse (.endpoint 0) [] true) = false ∧ Instr.wf (.cpWriteTicket (.endpoint 0) [] true) = false := by
  decide

theorem test_wf_rings : Instr.wf (.dmaCommand 0 []) = false ∧ Instr.wf (.ingressRecord 0 [] []) = false := by decide

theorem test_wf_isthmus : Instr.wf (.isthmusTrainingEnd 0 []) = false := by decide

theorem test_wf_sdo (l : List Byte) (h : 16777216 < l.length) : Instr.wf (.sdoRequest (.endpoint 0) (.write 0 0 l)) = false := by
  simp only [Instr.wf, sdoOk, decide_eq_false_iff_not]; omega

theorem test_wf_slotKey (l : List Byte) (h : 16777216 < l.length) : Instr.wf (.slotTenantKey (.endpoint 0) 0 l) = false ∧
    Instr.wf (.ownerKey (.endpoint 0) 0 l) = false := by
  simp only [Instr.wf, decide_eq_false_iff_not]; omega

/-- No row of the table gives a bit. -/
theorem test_decode_none : decodeTableWord 8 0 = none ∧ decodeTableWord 0 0 = none := by decide

/-! ### The queue and the whole machine -/

theorem test_witness_StepRunsFrontCommand :
    ({ pending := [.ppsEdge, .ppsLost] } : State).pending = .ppsEdge :: [.ppsLost] := rfl

theorem test_witness_IdleStepAddsOneClock : State.reset.pending = [] ∧ State.reset.time.Ok := by
  refine ⟨rfl, ?_⟩; unfold TimeBase.Ok; decide

/-- At the ends of the ranges of the invariant. -/
theorem test_witness_timeOk_limits :
    ({ frac := 2 ^ 48 - 1, elapsedFrac := 2 ^ 48 - 1, rateAdj := -549755813, stepCount := 2 ^ 32 - 1, rejected := 2 ^ 32 - 1 } : TimeBase).Ok := by
  unfold TimeBase.Ok; decide

theorem test_witness_StepKeepsTimeInvariant :
    State.reset.time.Ok ∧ ∃ t, step State.reset = .next t := by
  refine ⟨?_, _, rfl⟩; unfold TimeBase.Ok; decide

theorem test_witness_TimeBaseNeverDecreases :
    ({ pending := [.vstbyLoss] } : State).time.Ok ∧ ∃ t, step { pending := [.vstbyLoss] } = .next t := by
  refine ⟨?_, _, rfl⟩; unfold TimeBase.Ok; decide

theorem test_witness_IntervalCounterNeverStepped : ∃ t, exec .ppsEdge State.reset = .next t := ⟨_, rfl⟩

theorem test_witness_ControlStateChangesOnlyByItsCommands :
    (∃ t, exec (.siteGate 0) State.reset = .next t) ∧ mayReset (.siteGate 0) = false ∧ writesDict (.siteGate 0) = false ∧
      (∀ r m, Instr.siteGate 0 ≠ .selfCheckEnd r m) ∧ drivesNet (.siteGate 0) = false ∧ movesDma (.siteGate 0) = false ∧
      movesPower (.siteGate 0) = false ∧ movesRing (.siteGate 0) = false :=
  ⟨⟨_, rfl⟩, rfl, rfl, (nofun), rfl, rfl, rfl, rfl⟩

theorem test_witness_DeviceStateFollowsItsPaths :
    (∃ t, exec .ioPgRise (onDev { pu := { state := .fault } }) = .next t) ∧
      (onDev { pu := { state := .fault } }).dev.pu.state = .fault ∧ mayReset .ioPgRise = false := ⟨⟨_, rfl⟩, rfl, rfl⟩

/-! ### Time base: section 15.4 -/

/-- R467: above 1 s, behind by more than `TIME_ALIGN_TOL` in STEP mode, and within (at the limit of 1 s, and from reset). -/
theorem test_witness_PpsEdge :
    let far := onTime { ns := 2000000000, setNext := some 0 }
    let behind := onTime { mode := 0, setNext := some 1000 }
    let edge := onTime { ns := 1000000003, setNext := some 0 }
    let off (s : State) : Int := ((s.time.applyWanted).ns : Int) - (s.time.applyWanted).ppsComp -
      (match (s.time.applyWanted).setNext with | some v => (v : Int) | none => nearestSecond (((s.time.applyWanted).ns : Int) - (s.time.applyWanted).ppsComp))
    (far.time.accepts = true ∧ 1000000000 < off far) ∧
    (behind.time.accepts = true ∧ behind.time.applyWanted.mode = 0 ∧ off behind < -(behind.time.applyWanted.alignTol : Int)) ∧
    (edge.time.accepts = true ∧ off edge = 1000000000 ∧ edge.time.applyWanted.mode ≠ 0) ∧
    (State.reset.time.accepts = true ∧ off State.reset = -3) := by decide

/-- R466: an edge at each side of 1 s ± 100 µs. -/
theorem test_witness_PpsEdgeOutsideItsSecond :
    let early := onTime { first := false, lastEdge := some 0, elapsed := 999899999 }
    let late := onTime { first := false, lastEdge := some 0, elapsed := 1000100001 }
    (early.time.first = false ∧ early.time.lastEdge = some 0 ∧ early.time.elapsed < 0 + 999900000) ∧
    (late.time.first = false ∧ late.time.lastEdge = some 0 ∧ 0 + 1000100000 < late.time.elapsed) := by decide

theorem test_witness_ReferenceEvents :
    let lost := onTime { first := false, lastEdge := some 0, elapsed := 1500000000 }
    let hold := onTime { refLostAt := some 0, elapsed := 10000000 }
    (lost.time.noEdge = true ∧ lost.time.ppsLost = false) ∧ (State.reset.time.refSel ≠ 3 ∧ State.reset.time.refLostAt = none) ∧
    (hold.time.refLostAt = some 0 ∧ 0 + 10000000 ≤ hold.time.elapsed ∧ hold.time.fnRef = false) ∧
    ((1 : Fin 3) ≠ 0 ∧ State.reset.time.refSel = 0) ∧ (31 : Fin 32).val ∉ State.reset.time.badDies := by decide

/-- R459: one cycle of the clock adds 1 ns when the rate is 0. -/
theorem test_clock_adds_1ns : (match step State.reset with | .next t => (t.time.ns, t.time.frac, t.time.elapsed) | _ => (0, 0, 0)) = (1, 0, 1) := by
  decide

/-- R466: a second edge 0.9 s after the first is rejected and counted. -/
theorem test_pps_rejected :
    (match exec .ppsEdge (onTime { first := false, lastEdge := some 0, elapsed := 900000000 }) with
      | .next t => (t.time.rejected, t.time.lastEdge, t.dev.log.count) | _ => (0, none, 0)) = (1, some 0, 1) := by decide

/-- R467: the first edge within tolerance leaves the time base; the servo has no integral yet: `TIME_RATE_ADJ` is +3 ppb. -/
theorem test_pps_first :
    (match exec .ppsEdge State.reset with | .next t => (t.time.ns, t.time.offset, t.time.fInt, t.time.rateAdj) | _ => (0, 0, 0, 0)) =
      (0, -3, 0, 3299) := by decide


/-! ### Power, clocks and temperature: chapters 01 and 21 -/

/-- Devices in which firmware runs, with package power at, above and below the limit. -/
abbrev running : Dev := { pu := { state := .op, coresAt := some 0 } }
abbrev watts (l : List Nat) : Dev := { running with power := { samples := l } }

/-- R32, R34: the average at the limit, above it, at 95% of it, and below 95% with and without a lowered cap. -/
theorem test_witness_PowerEvaluation :
    (running.fwRuns = true ∧ running.objN 0x2100 1 = 3200) ∧
    (avgOf 100 (watts [3200, 3200]).power.samples = 3200) ∧
    (3200 < avgOf 100 (watts [3202, 3200]).power.samples) ∧
    (avgOf 100 (watts [3040]).power.samples < 3200 ∧ 3200 * 95 ≤ avgOf 100 (watts [3040]).power.samples * 100) ∧
    (avgOf 100 (watts [3039]).power.samples * 100 < 3200 * 95 ∧ (watts [3039]).raisable = none) ∧
    (watts []).allIsles (fun x => decide (x.clock = 800)) = true ∧
    ({ watts [] with isles := [(0, { clock := 1650 })] } : Dev).allIsles (fun x => decide (x.clock = 800)) = false ∧
    ({ watts [] with isles := [(2, { pwrCap := 1600 })] } : Dev).raisable = some 2 := by decide

/-- R32: a cap at 800 MHz, and one above it. -/
theorem test_witness_CapStepsDown :
    min (({ isles := [(1, { pwrCap := 800 })] } : Dev).isle 1).pwrCap (({ isles := [(1, { pwrCap := 800 })] } : Dev).isle 1).opCap ≤ 800 ∧
      800 < min ((({}) : Dev).isle 1).pwrCap ((({}) : Dev).isle 1).opCap := by decide

/-- R35: 3,601 W, 3,199 W, and both ends of what lies between. -/
theorem test_witness_Excursion :
    (3600 < avgOf 10 [3601]) ∧ (avgOf 10 [3199] < 3200) ∧ (3200 ≤ avgOf 10 [3200] ∧ avgOf 10 [3600] ≤ 3600) ∧
    (let s : State := { time := { elapsed := 50000000 }, dev := { running with power := { above := some 0 } } }
     s.dev.power.above = some 0 ∧ 0 + 50000000 ≤ s.time.elapsed ∧ s.dev.pu.state ≠ .fault) := by decide

/-- R510, R607, R608, R455, R604: temperatures and glides at their limits. -/
theorem test_witness_SamplesAndGlides :
    (120 : Int) ≤ (120 : W16).toInt ∧ (99 : W16).toInt < 100 ∧ ((105 : Int) ≤ (105 : W16).toInt ∧ ((({}) : Dev).isle 0).clock = 800) ∧
    ((102 : Int) ≤ (102 : W16).toInt ∧ ((({}) : Dev).isle 0).thermalStep = none ∧
      800 < min ((({}) : Dev).isle 0).pwrCap ((({}) : Dev).isle 0).opCap) ∧
    ((({}) : Dev).isle 0).clock = ((({}) : Dev).isle 0).target ∧ (({ clock := 800, target := 1650 } : Isle).clock < 1650) := by decide

/-- R455: a glide of 120 MHz takes steps of 50, 50 and 20 MHz. -/
theorem test_glide_steps :
    (match exec (.clockGlideStep 0) (onDev { isles := [(0, { clock := 800, target := 920 })] }) with
      | .next t => (t.dev.isle 0).clock | _ => 0) = 850 ∧
    (match exec (.clockGlideStep 0) (onDev { isles := [(0, { clock := 900, target := 920 })] }) with
      | .next t => (t.dev.isle 0).clock | _ => 0) = 920 := by decide

/-- R31, R32: the 100 ms average moves the cap of the isle with the greatest power. -/
theorem test_power_evaluation_lowers_greatest :
    (match exec .powerEvaluation (onDev { watts [3300] with isles := [(1, { clock := 1650, power := [900] }), (2, { power := [700] })] }) with
      | .next t => ((t.dev.isle 0).pwrCap, (t.dev.isle 1).pwrCap, (t.dev.isle 2).pwrCap) | _ => (0, 0, 0)) = (1650, 1625, 1650) := by decide

/-! ### Resets, rails, ports -/

theorem test_witness_ResetsAndRails :
    (10000 ≤ (10000 : W32).toNat ∧ State.reset.dev.nv.committing = none) ∧
    (onDev { nv := { committing := some [] } }).dev.nv.committing.isSome = true ∧
    (State.reset.dev.pu.state = .init ∧ State.reset.dev.pu.forwarding = false) ∧
    (onDev { pu := { ioEn := true } }).dev.pu.ioEn = true ∧
    (let d : Dev := { pu := { coreEn := true } }
     d.pu.coreEn = true ∧ d.pu.corePg = false ∧ d.pu.coreEnAt + 100000000 ≤ 100000000 ∧ d.pu.state ≠ .fault) ∧
    (let d : Dev := { pu := { coreEn := true, corePg := true, ioEn := true, ioPg := true } }
     d.pu.coreEn = true ∧ d.pu.corePg = true ∧ d.pu.ioEn = true ∧ d.pu.ioPg = true) ∧
    (let s : State := { time := { elapsed := 10000000 }, dev := { pu := { faultAt := some 0, coreEn := true } } }
     s.dev.pu.faultAt = some 0 ∧ 0 + 10000000 ≤ s.time.elapsed ∧ s.dev.pu.coreEn = true) := by decide

theorem test_witness_PcieFramesAndTap :
    (State.reset.dev.fw.loading = false) ∧ (onDev { pu := { ioPg := true } }).dev.pu.ioPg = true ∧
    (onDev { pu := { forwarding := true } }).dev.pu.forwarding = true ∧
    (TapInstr.extest ≠ .other ∧ State.reset.dev.pu.state = .init ∧ State.reset.dev.pu.coreEn = false) ∧
    (TapInstr.clamp ≠ .idcode ∧ (onDev { pu := { state := .op, coreEn := true } }).dev.pu.coreEn = true) ∧
    (onDev { pu := { state := .preop } }).dev.pu.state ≠ .init := by decide

/-- R476: a frame comes back where the other port has no link. -/
theorem test_frame_forward :
    (match exec (.frameForward 0 true) (onDev { pu := { forwarding := true } }) with | .next t => t.dev.net.lastOut | _ => none) = some 1 ∧
    (match exec (.frameForward 0 false) (onDev { pu := { forwarding := true } }) with | .next t => t.dev.net.lastOut | _ => none) = some 0 := by
  decide

/-! ### Boot, firmware, bring-up: chapter 19 -/

abbrev booting : Dev := { pu := { state := .boot, forwarding := true, pcie0 := true } }
abbrev loadingFrom (n : Nat) : Dev := { booting with fw := { loading := true, source := n, via := some (.endpoint 1) } }

/-- The format check of an empty area fails. -/
theorem test_witness_BootAndFirmware :
    (let d : Dev := { pu := { forwarding := true } }
     d.pu.state = .init ∧ d.pu.forwarding = true ∧ ((⟨true, false⟩ : MramCheck).copy0 = true ∨ (⟨true, false⟩ : MramCheck).copy1 = true) ∧
       (⟨false, true⟩ : MramCheck).copy0 = false) ∧
    (let f := (loadingFrom 1).fw
     f.loading = true ∧ f.source = 1 ∧ f.verifying = false ∧ f.area.length + [(1 : Byte)].length ≤ fwMax) ∧
    (booting.fw.loading = false ∧ [(1 : Byte)] ≠ [] ∧ [(1 : Byte)].length ≤ fwMax) ∧
    ((loadingFrom 4).fw.source = 4 ∧ (loadingFrom 4).fw.via = some (.endpoint 1)) ∧
    (booting.pcie 0 = true ∧ (4096 : W64).toNat % 4096 = 0 ∧ 4096 ≤ (4096 : W32).toNat ∧ (4096 : W32).toNat ≤ fwMax ∧ (4096 : W32).toNat % 16 = 0) ∧
    ((loadingFrom 2).fw.loading = true ∧ (loadingFrom 2).fw.source = (0 : HostDie).val + 2) ∧
    ((loadingFrom 1).fw.verifying = false ∧ (loadingFrom 1).fw.lastByte + 10000000000 ≤ 10000000000) ∧
    (let d : Dev := { booting with fw := { loading := true, verifying := true } }
     d.fw.verifying = true ∧ d.pu.state = .boot ∧ fwFormatOk d.fw.area = false) := by decide

/-- An image of the right form, of 4,096 bytes and three sections; it is admitted where its key hash is the root hash and the SVN floor is 0. -/
abbrev fwSec (ty off len : Nat) : List Byte := le 8 ty ++ (le 4 off ++ (le 4 len ++ le 16 0))
abbrev fwImage : List Byte :=
  [le 4 0x31574E47, le 2 1, le 2 0, le 4 4096, le 4 0, le 4 1, le 4 3, le 8 384, List.replicate 224 0, fwSec 1 384 64, fwSec 3 448 64, fwSec 4 512 64,
    List.replicate 3744 0].flatten
abbrev verifying : Dev := { booting with fw := { loading := true, verifying := true, area := fwImage } }

theorem test_witness_FirmwareAdmission :
    verifying.fw.verifying = true ∧ verifying.pu.state = .boot ∧ fwFormatOk verifying.fw.area = true ∧
    (Config.sha384 (bytesAt fwImage 32 97) = Config.rootHash → Config.svnFloor = 0 →
      Config.sha384 (bytesAt verifying.fw.area 32 97) = Config.rootHash ∧
        max Config.svnFloor (verifying.ctrN 0x2500 5) ≤ fieldAt verifying.fw.area 12 4) := by
  refine ⟨by decide, by decide, by decide +kernel, fun h h0 => ⟨h, ?_⟩⟩
  rw [h0]
  decide +kernel

/-- R567: the self-check that passes leads to BOOT; failing fuses leave INIT. -/
theorem test_selfcheck :
    (match exec (.selfCheckEnd .ok ⟨true, true⟩) (onDev { pu := { forwarding := true } }) with | .next t => t.dev.pu.state | _ => .op) = .boot ∧
    (match exec (.selfCheckEnd .fuses ⟨true, true⟩) (onDev { pu := { forwarding := true } }) with | .next t => t.dev.pu.state | _ => .op) = .init := by
  decide

/-- R569: a load that receives no byte for 10 s ends with 0x5011. -/
theorem test_load_timeout :
    (match exec .fwLoadTimeout { time := { elapsed := 10000000000 }, dev := loadingFrom 1 } with
      | .next t => (t.dev.fw.loading, t.dev.fw.status) | _ => (true, 0)) = (false, 0x5011) := by decide

abbrev preop : Dev := { pu := { state := .preop, corePg := true } }
abbrev preop2 : Dev := { pu := { state := .preop, corePg := true, phase2 := true } }

theorem test_witness_BringUpPhases :
    (preop.pu.state = .preop ∧ preop.pu.corePg = true ∧ preop.pu.phase2 = false) ∧
    (preop2.pu.phase2 = true ∧ (3 : IsleId).val ∉ preop2.pu.bist ∧ (15 : StackId).val ∉ preop2.pu.trained) ∧
    (let d : Dev := { pu := { state := .preop, phase2 := true, endedAt := (List.range 20).map fun k => (k, 0) } }
     d.bridgeReady (3 : Fin 4).val = true ∧ (3 : Fin 4).val ∉ d.pu.bridges ∧ ∀ x ∈ List.replicate 64 (2 : Fin 67), x.val ≤ 2) ∧
    (preop2.pu.phase6 = false ∧ preop2.pu.preopAt + 2000000000 ≤ 2000000000 ∧ ∀ l, l < 16 → (preop2.lnk l).state ≠ .training) ∧
    (preop.pu.corePgAt + 100000000 < 100000001) := by decide

/-! ### Journal, MRAM, hold-up, health: chapters 18 and 20 -/

abbrev held : Dev := { dict := [(objKey 0x2300 1, le 4 10000), (objKey 0x2300 2, le 2 3000)] }

/-- R558: the example, with `HOLDUP_CAP` 10,000 µF and `HOLDUP_VMIN` 3,000 mV. -/
theorem test_holdup_energy :
    (held.holdup 3256, held.holdup 3255, held.holdup 3300, held.holdup 3250) = (8007, 7975, 9450, 7812) := by decide

theorem test_witness_CommitsToMram :
    (let d : Dev := { held with pu := { state := .op }, nv := { queue := [{}] } }
     d.pu.state ≠ .init ∧ d.nv.deferred = none ∧ d.nv.committing = none ∧ d.nv.queue ≠ [] ∧ d.nv.writes = [] ∧
       8000 ≤ (d.senseHoldup (3256 : W16).toNat).holdup (3256 : W16).toNat ∧ (d.senseHoldup (3255 : W16).toNat).holdup (3255 : W16).toNat < 8000) ∧
    (let d : Dev := { nv := { deferred := some 0 } }
     d.nv.deferred = some 0 ∧ 0 + d.objN 0x2300 7 * 1000000 ≤ 1000000000000) ∧
    (let d : Dev := { nv := { committing := some [] } }
     d.nv.committing = some [] ∧ d.pu.resetPending = false) ∧
    (let d : Dev := { nv := { committing := some [] }, pu := { resetPending := true } }
     d.nv.committing = some [] ∧ d.pu.resetPending = true) := by decide

theorem test_witness_FailingSite :
    (let d : Dev := { health := { sites := [(0, { hard := true })] } }
     (d.siteHealth 0).failing = false ∧ (d.siteHealth 0).fails 0 .uncorrectable = true ∧ d.failPending 0 0 = 31 ∧ d.jobAt 0 = none ∧
       d.reefRuns 0 = false) ∧
    (let d : Dev := { health := { sites := [(0, { hard := true })], fail := [(0, 4)] } }
     (d.siteHealth 0).failing = false ∧ (d.siteHealth 0).fails 0 .uncorrectable = true ∧ d.failPending 0 0 ≠ 31) ∧
    ({ preop with pu := { preop.pu with state := .op, coresAt := some 0 } } : Dev).fwRuns = true := by decide


/-! ### Sites: chapters 04 and 05 -/

/-- A device whose site 0 holds the word W at address 0 of its program and runs setup code there. -/
abbrev setupRun (W : Nat) (x : Site := {}) : Dev := { sites := [(0, { x with prog := [(0, BitVec.ofNat 64 W)], setup := some {} })] }

/-- The same in context 0. -/
abbrev ctxRun (W : Nat) (x : Site := {}) (c : Context := {}) : Dev :=
  { sites := [(0, { x with prog := [(0, BitVec.ofNat 64 W)], ctxs := [(0, some c)], order := [0] })] }

/-- An instruction word: opcode, then fields as (value, lowest bit). -/
abbrev iw (op : Nat) (l : List (Nat × Nat) := []) : Nat := op * 2 ^ 58 + sumNat (l.map fun f => f.1 * 2 ^ f.2)

/-- `Dev.Issues` as a test. -/
def issuesB (d : Dev) (i : Nat) (w : Who) (c : Context) (op : Nat) : Bool :=
  decide ((d.site i).runner w = some c) && decide ((d.site i).stopped = none) && decide ((d.site i).controlStop = false) &&
  decide (bits (d.wordAt i c) 63 58 = op) && ((opFields op).any fun fs => reservedZero (d.wordAt i c) fs) &&
  (match w with | .setup => true | .ctx k => !(d.site i).ordered (d.wordAt i c) || (d.site i).oldest k.val) &&
  (d.site i).unitFree w op

theorem issues_iff (d : Dev) (i : Nat) (w : Who) (c : Context) (op : Nat) : d.Issues i w c op ↔ issuesB d i w c op = true := by
  unfold Dev.Issues issuesB
  simp only [Bool.and_eq_true, decide_eq_true_eq, Option.any_eq_true, and_assoc]
  cases w with
  | setup => simp
  | ctx k =>
    have h : (∃ k' : Fin 4, Who.ctx k = Who.ctx k' ∧ (d.site i).oldest k'.val = true) ↔ (d.site i).oldest k.val = true :=
      ⟨fun ⟨k', e, o⟩ => by cases e; exact o, fun o => ⟨k, rfl, o⟩⟩
    rw [h]
    simp [and_comm]

/-- Every instruction of Table 5-13 issues in setup code, and in the oldest context of its trigger. -/
theorem test_witness_issues : ∀ op ∈ [0x00, 0x01, 0x02, 0x03, 0x04, 0x05, 0x06, 0x07, 0x08, 0x09, 0x0A, 0x0B, 0x0C, 0x0D, 0x0E, 0x10, 0x11,
    0x12, 0x13, 0x14, 0x15, 0x16, 0x17, 0x20, 0x21, 0x22, 0x23, 0x24, 0x25, 0x26, 0x30],
    (setupRun (iw op)).Issues 0 .setup {} op ∧ (ctxRun (iw op)).Issues 0 (.ctx 0) {} op := by
  simp only [issues_iff]; decide

theorem test_witness_SiteIssueRules :
    (siteOp (.ld 0 (.ctx 1) .clean) = some (0, .ctx 1, .clean, 0x0C)) ∧ ((({}) : Dev).site 0).runner .setup = none ∧
    ((setupRun 0 { stopped := some 0x8005 }).site 0).stopped.isSome = true ∧ ((setupRun 0 { controlStop := true }).site 0).controlStop = true ∧
    -- an ordered instruction in a context that is not the oldest of its trigger
    (let d : Dev := { sites := [(0, { prog := [(0, BitVec.ofNat 64 (iw 0x0C))], ctxs := [(0, some {}), (1, some {})], order := [0, 1] })] }
     (d.site 0).runner (.ctx 1) = some {} ∧ (d.site 0).stopped = none ∧ (d.site 0).controlStop = false ∧ bits (d.wordAt 0 {}) 63 58 = 0x0C ∧
       (d.site 0).ordered (d.wordAt 0 {}) = true ∧ (d.site 0).oldest 1 = false) ∧
    -- a reserved bit is set
    (let d := setupRun (iw 0x00 [(1, 0)])
     bits (d.wordAt 0 {}) 63 58 = 0x00 ∧ opFields 0x00 = some [] ∧ reservedZero (d.wordAt 0 {}) [] = false) := by decide

theorem test_witness_SiteScalar :
    (setupRun (iw 0x08 [(3, 42)])).Issues 0 .setup {} 0x08 ∧ ({} : Context).pc < 1023 ∧
    (alu 0 5 7 = some 12 ∧ alu 13 1 1 = some 1 ∧ alu 14 0 0 = none) ∧
    (let r := (ctxRun 0).runOf 0 (.ctx 0) {}
     r.setup = false ∧ (7 < 8)) ∧ ((setupRun 0).runOf 0 .setup {}).setup = true := by
  simp only [issues_iff]; decide

/-- R98: `li s3, 0x12345678` in setup code; the stream goes on with the next word. -/
theorem test_li :
    (match exec (.li 0 .setup .clean) (onDev (setupRun (iw 0x0A [(3, 54), (0x12345678, 0)]))) with
      | .next t => (mget 0 (t.dev.site 0).sregs 3, (t.dev.site 0).setup.map (·.pc)) | _ => (0, none)) = (0x12345678, some 1) := by decide

/-- R103: a shared register that a context writes stays, and `own_refused` is set. -/
theorem test_li_shared_from_context :
    (match exec (.li 0 (.ctx 0) .clean) (onDev (ctxRun (iw 0x0A [(3, 54), (5, 0)]))) with
      | .next t => (mget 0 (t.dev.site 0).sregs 3, (t.dev.site 0).sticky) | _ => (1, 0)) =
      (0, ((({ x := {} , c := {}, setup := false, env := (({}) : Dev).siteEnv 0 } : SRun).flag fOwnRefused).x.sticky)) := by decide

theorem test_witness_SiteControlFlow :
    ((setupRun (iw 0x03)).Issues 0 .setup {} 0x03 ∧ brCond 0 0 0 = some true ∧ brCond 2 0 0 = some false) ∧
    ((setupRun (iw 0x04)).Issues 0 .setup {} 0x04 ∧ ((setupRun 0).runOf 0 .setup {}).sreg 0 ≠ 1 ∧
      ((setupRun 0 { sregs := [(0, 1)] }).runOf 0 .setup {}).sreg 0 = 1) ∧
    (ctxRun (iw 0x01)).Issues 0 (.ctx 0) {} 0x01 ∧ (setupRun (iw 0x02)).Issues 0 .setup {} 0x02 ∧
    ((ctxRun (iw 0x02)).Issues 0 (.ctx 0) {} 0x02 ∧ Who.ctx 0 ≠ .setup) := by
  simp only [issues_iff]; decide

/-- R152, R165: the last words that `ld` and `st` reach, the words past them, and a refused address. -/
theorem test_witness_SiteMemory :
    (∀ o ∈ [0xBFFC, 0xC000, 0xBFFD], let W := iw 0x0C [(1, 45), (o, 0)]
      (setupRun W).Issues 0 .setup {} 0x0C ∧
        ∃ a, ((setupRun W).runOf 0 .setup {}).ldstAddr ((setupRun W).wordAt 0 {}) false = .ok a ∧ a = o) ∧
    (∀ o ∈ [0xBA7C, 0xBA80], let W := iw 0x0D [(1, 45), (o, 0)]
      (setupRun W).Issues 0 .setup {} 0x0D ∧
        ∃ a, ((setupRun W).runOf 0 .setup {}).ldstAddr ((setupRun W).wordAt 0 {}) true = .ok a ∧ a = o) ∧
    (let W := iw 0x0D [(1, 45)]
     (ctxRun W).Issues 0 (.ctx 0) {} 0x0D ∧
       ∃ r1, ((ctxRun W).runOf 0 (.ctx 0) {}).ldstAddr ((ctxRun W).wordAt 0 {}) true = .error r1) ∧
    ((setupRun (iw 0x0E)).Issues 0 .setup {} 0x0E ∧ (((setupRun 0).runOf 0 .setup {}).x.ag 0).mode ≠ 2) := by
  simp only [issues_iff]
  refine ⟨fun o h => ?_, fun o h => ?_, ⟨by decide, _, rfl⟩, by decide⟩
  · simp only [List.mem_cons, List.not_mem_nil, or_false] at h
    rcases h with rfl | rfl | rfl <;> exact ⟨by decide, _, rfl, by decide⟩
  · simp only [List.mem_cons, List.not_mem_nil, or_false] at h
    rcases h with rfl | rfl <;> exact ⟨by decide, _, rfl, by decide⟩

/-- R105: a store ends at the last byte of the data SRAM. -/
theorem test_witness_SiteStore : 0xBFFC + (le 4 1).length ≤ 0xC000 ∧ (3 < (le 4 1).length) := by decide

theorem test_witness_SiteVector :
    ((setupRun (iw 0x11 [(5, 42)])).Issues 0 .setup {} 0x11 ∧ bits ((setupRun (iw 0x11 [(5, 42)])).wordAt 0 {}) 45 42 ≤ 5) ∧
    (setupRun (iw 0x10)).Issues 0 .setup {} 0x10 ∧
    (∀ f < 3, (setupRun (iw 0x15 [(f, 42)])).Issues 0 .setup {} 0x15 ∧ bits ((setupRun (iw 0x15 [(f, 42)])).wordAt 0 {}) 45 42 = f) ∧
    (∀ f < 4, (setupRun (iw 0x16 [(f, 42), (3, 38)])).Issues 0 .setup {} 0x16 ∧
      bits ((setupRun (iw 0x16 [(f, 42), (3, 38)])).wordAt 0 {}) 45 42 = f ∧ bits ((setupRun (iw 0x16 [(f, 42), (3, 38)])).wordAt 0 {}) 41 38 ≤ 3) ∧
    (∀ f < 2, (setupRun (iw 0x17 [(f, 46)])).Issues 0 .setup {} 0x17 ∧
      bit ((setupRun (iw 0x17 [(f, 46)])).wordAt 0 {}) 46 = decide (f = 1)) ∧ (List.replicate 16 (0 : W32)).length = 16 := by
  simp only [issues_iff]; decide

/-- A source of zeros, a descriptor that has a point left, one that has none, and a write descriptor. -/
theorem test_witness_SiteFormat :
    -- one beat of FP16 from descriptor 0
    (let d := setupRun (iw 0x12 [(128, 46), (1, 41)])
     let r := d.runOf 0 .setup {}
     d.Issues 0 .setup {} 0x12 ∧ (1 ≤ 0xE ∧ 0 + regsOf 1 ≤ 8 ∧ r.x.srcOk 128 = true ∧ fmtWidth 1 ≠ 32) ∧
       ∃ v sc r1, r.beat 0 128 { n := 0, vld := true, fmt := 1, desc := 0 } = .ok v sc r1 ∧ r1.c.pc < 1023 ∧ r1.c.held.length = 0) ∧
    -- the first and the second beat of FP32
    (let d := setupRun (iw 0x12 [(193, 46)])
     let r := d.runOf 0 .setup {}
     d.Issues 0 .setup {} 0x12 ∧ (fmtWidth 0 = 32 ∧ 0 + regsOf 0 ≤ 8 ∧ r.x.srcOk 193 = true) ∧
       (∃ v sc r1, r.beat 0 193 { n := 0, vld := true, fmt := 0, desc := 0 } = .ok v sc r1 ∧ r1.c.held = []) ∧
       ∃ v sc r1, ({ r with c := { r.c with held := [7] } } : SRun).beat 0 193 { n := 0, vld := true, fmt := 0, desc := 0 } = .ok v sc r1 ∧
         r1.c.held.length = 1) ∧
    -- a queue without a token
    (let d := setupRun (iw 0x12 [(64, 46), (1, 41)]) { work := [(0, BitVec.ofNat 64 (2 * 2 ^ 13))] }
     let r := d.runOf 0 .setup {}
     d.Issues 0 .setup {} 0x12 ∧ r.x.srcOk 64 = true ∧ r.beat 0 64 { n := 0, vld := true, fmt := 1, desc := 0 } = .wait) ∧
    -- vpack to a register, to a descriptor in one beat and in two
    ((setupRun (iw 0x13 [(1, 42)])).Issues 0 .setup {} 0x13 ∧ packFmt 1 = true ∧ 0 + regsOf 1 ≤ 8 ∧ selReg 0 = true) ∧
    (let d := setupRun (iw 0x13 [(128, 47), (1, 42)]) { work := [(66, 256)] }
     let r := d.runOf 0 .setup {}
     d.Issues 0 .setup {} 0x13 ∧ (selReg 128 = false ∧ selDesc 128 = true ∧ ({} : Context).beats + 1 = (if fmtWidth 1 = 32 then 2 else 1)) ∧
       ∃ r1, r.writeBeat 0 (le 32 0) none 1 = some r1 ∧ r1.c.pc < 1023) ∧
    (let d := setupRun (iw 0x13 [(128, 47)]) { work := [(66, 256)] }
     d.Issues 0 .setup {} 0x13 ∧ packFmt 0 = true ∧ fmtWidth 0 = 32 ∧ ({} : Context).beats + 1 < 2) ∧
    -- vmx of MXFP8
    (let d := setupRun (iw 0x14 [(128, 47), (5, 42)]) { work := [(66, 256)] }
     let r := d.runOf 0 .setup {}
     d.Issues 0 .setup {} 0x14 ∧ isBlock 5 = true ∧ 0 + 2 ≤ 8 ∧ selDesc 128 = true ∧
       ∃ r1, r.writeBeat 0 (le (blkBytes 5) 0) (some 0) 5 = some r1 ∧ r1.c.pc < 1023) := by
  simp only [issues_iff]
  refine ⟨⟨by decide, by decide, _, _, _, rfl, by decide, by decide⟩, ⟨by decide, by decide, ⟨_, _, _, rfl, rfl⟩, ⟨_, _, _, rfl, rfl⟩⟩,
    ⟨by decide, by decide, by decide⟩, by decide, ⟨by decide, by decide, _, rfl, by decide⟩, by decide,
    ⟨by decide, by decide, by decide, by decide, _, rfl, by decide⟩⟩


/-- Tiles owned (setup code) and not owned (a context whose trigger does not own tile 0). -/
theorem test_witness_SiteTile :
    (∀ k < 3, (setupRun (iw 0x21 [(k, 50)])).Issues 0 .setup {} 0x21 ∧ bits ((setupRun (iw 0x21 [(k, 50)])).wordAt 0 {}) 51 50 ≠ 3) ∧
    (((setupRun 0).runOf 0 .setup {}).owns 0 = true ∧ ((ctxRun 0).runOf 0 (.ctx 0) {}).owns 0 = false ∧
      ((ctxRun 0 { tmeta := [(0, 0x20)] }).runOf 0 (.ctx 0) {}).owns 0 = true) ∧
    (∀ b < 2, (setupRun (iw 0x22 [(b, 48)])).Issues 0 .setup {} 0x22 ∧ bit ((setupRun (iw 0x22 [(b, 48)])).wordAt 0 {}) 48 = decide (b = 1) ∧
      (ctxRun (iw 0x22 [(b, 48)])).Issues 0 (.ctx 0) {} 0x22) ∧
    (((setupRun 0 { tmeta := [(0, 0x80)] }).runOf 0 .setup {}).kind 0 = 2 ∧ ((setupRun 0).runOf 0 .setup {}).kind 0 ≠ 2) ∧
    (setupRun (iw 0x23)).Issues 0 .setup {} 0x23 ∧ (ctxRun (iw 0x23)).Issues 0 (.ctx 0) {} 0x23 ∧
    (setupRun (iw 0x26)).Issues 0 .setup {} 0x26 ∧ (ctxRun (iw 0x26)).Issues 0 (.ctx 0) {} 0x26 ∧
    (∀ f ∈ [0, 4, 0xC], (setupRun (iw 0x25 [(f, 43)])).Issues 0 .setup {} 0x25 ∧
      bits ((setupRun (iw 0x25 [(f, 43)])).wordAt 0 {}) 47 43 = f) := by
  simp only [issues_iff]; decide

/-- `aacmb`: a word of a tile, a complete entry of a combine queue, an incomplete one. -/
theorem test_witness_SiteCombine :
    (let d := setupRun (iw 0x24 [(0xC2, 43)])
     let r := d.runOf 0 .setup {}
     d.Issues 0 .setup {} 0x24 ∧ selAA 0xC2 = true ∧ ∃ v r1, r.readWord 0 0 = (v, r1) ∧ r1.owns 0 = true) ∧
    (let d := setupRun (iw 0x24 [(64, 43)]) { work := [(0, BitVec.ofNat 64 (3 * 2 ^ 13 + 2 ^ 33))],
                                              queues := [(0, { entries := [(0, some { kind := 3, count := 1 })] })] }
     let r := d.runOf 0 .setup {}
     d.Issues 0 .setup {} 0x24 ∧ (selAA 64 = false ∧ selQueue 64 = true ∧ (r.x.qd 0).mode = 3) ∧
       ∃ v l r1, r.takeToken 0 {} = .ok v l r1 ∧ r1.owns 0 = true ∧ (r1.toAA 0).c.pc < 1023) ∧
    (let d := setupRun (iw 0x24 [(64, 43)]) { work := [(0, BitVec.ofNat 64 (3 * 2 ^ 13 + 2 * 2 ^ 33))],
                                              queues := [(0, { entries := [(0, some { kind := 3, count := 1 })] })] }
     let r := d.runOf 0 .setup {}
     d.Issues 0 .setup {} 0x24 ∧ selAA 64 = false ∧ selQueue 64 = true ∧ (r.x.qd 0).mode = 3 ∧ r.takeToken 0 {} = .wait) := by
  simp only [issues_iff]
  exact ⟨⟨by decide, by decide, _, _, rfl, by decide⟩, ⟨by decide, by decide, _, _, _, rfl, by decide, by decide⟩, by decide⟩

/-- `mma`: classes that do not pair, one beat of zeros, and a beat that waits for a token. -/
theorem test_witness_SiteCube :
    (let d := setupRun (iw 0x20 [(193, 44), (193, 36), (1, 31), (2, 26)])
     d.Issues 0 .setup {} 0x20 ∧ (d.runOf 0 .setup {}).x.srcOk 193 = true ∧ cubeClass 1 2 = none) ∧
    (let d := setupRun (iw 0x20 [(193, 44), (193, 36), (1, 31), (1, 26)])
     let r := d.runOf 0 .setup {}
     d.Issues 0 .setup {} 0x20 ∧ cubeClass 1 1 = some .f16 ∧ (selFwd 193 = false ∧ r.env.plane = none) ∧
       ∃ r2, SRun.mmaBeats (d.wordAt 0 {}) .f16 (bits (d.wordAt 0 {}) 25 16 + 1 - ({} : Context).beats) (r.mmaTile 0 0 false) =
         .next r2 (r2.c.pc + 1) ∧ r2.c.pc < 1023) ∧
    (let d := setupRun (iw 0x20 [(64, 44), (193, 36), (1, 31), (1, 26)]) { work := [(0, BitVec.ofNat 64 (2 * 2 ^ 13))] }
     let r := d.runOf 0 .setup {}
     d.Issues 0 .setup {} 0x20 ∧ r.x.srcOk 64 = true ∧
       ∃ r2, SRun.mmaBeats (d.wordAt 0 {}) .f16 (bits (d.wordAt 0 {}) 25 16 + 1 - ({} : Context).beats) (r.mmaTile 0 0 false) = .keep r2) ∧
    -- one beat of MmaBeatUpdatesTile
    (let r := (setupRun 0).runOf 0 .setup {}
     r.env.plane = none ∧ ∃ a ea r1 b eb r2, r.beat 0 193 { n := 0, fmt := 1 } = .ok a ea r1 ∧ r1.beat 1 193 { n := 0, fmt := 1 } = .ok b eb r2) := by
  simp only [issues_iff]
  exact ⟨by decide, ⟨by decide, by decide, by decide, _, rfl, by decide⟩, ⟨by decide, by decide, _, rfl⟩,
    ⟨by decide, _, _, _, _, _, _, rfl, rfl⟩⟩

/-- A site with a route at entry 0: to a queue, or of a multicast group. -/
abbrev routed (multi : Bool) : Site := { work := [(112, BitVec.ofNat 64 (2 ^ 23 + if multi then 2 ^ 22 else 0))] }

/-- `send` of each kind: by a register, by a beat, of a tile's word; without a valid route, and with the local port full. -/
theorem test_witness_SiteSend :
    (let d := setupRun (iw 0x30)
     let r := d.runOf 0 .setup {}
     d.Issues 0 .setup {} 0x30 ∧ selReg 0 = true ∧ bit (mget 0 r.x.work 112).toNat 23 = false) ∧
    (∀ k ∈ [0, 1, 5], let d := setupRun (iw 0x30 [(k, 54)]) (routed (decide (k = 1)))
     let r := d.runOf 0 .setup {}
     d.Issues 0 .setup {} 0x30 ∧ bits (d.wordAt 0 {}) 57 54 = k ∧ selReg 0 = true ∧ bit (mget 0 r.x.work 112).toNat 23 = true ∧
       bit (mget 0 r.x.work 112).toNat 22 = decide (k = 1) ∧ r.env.canSend = true) ∧
    (let d := setupRun (iw 0x30 [(4, 54)]) (routed false)
     d.Issues 0 .setup {} 0x30 ∧ bits (d.wordAt 0 {}) 57 54 = 4 ∧ (d.runOf 0 .setup {}).env.canSend = true) ∧
    (let d := setupRun (iw 0x30 [(3, 54), (0xC2, 46)]) (routed false)
     d.Issues 0 .setup {} 0x30 ∧ bits (d.wordAt 0 {}) 57 54 = 3 ∧ selAA 0xC2 = true ∧ (d.runOf 0 .setup {}).env.canSend = true) ∧
    (let d := setupRun (iw 0x30 [(193, 46)]) (routed false)
     let r := d.runOf 0 .setup {}
     d.Issues 0 .setup {} 0x30 ∧ selReg 193 = false ∧ r.x.srcOk 193 = true ∧ ∃ v l r1, r.beat 0 193 {} = .ok v l r1) ∧
    (let d : Dev := { setupRun (iw 0x30) (routed false) with fabric := { used := [(bufKey (siteNode 0) .loc .first, 1)] } }
     d.Issues 0 .setup {} 0x30 ∧ (d.runOf 0 .setup {}).env.canSend = false) := by
  simp only [issues_iff]
  exact ⟨by decide, by decide, by decide, by decide, ⟨by decide, by decide, by decide, _, _, _, rfl⟩, by decide⟩

/-- A context whose walk of descriptor 0 has ended. -/
abbrev walked : Context := { walks := [(0, { point := 1 })] }

/-- Words that Table 5-13 calls illegal, operands of a kind that Table 5-11 shuts out, the last word of the program store, and a unit at
which an earlier instruction waits. -/
theorem test_witness_SiteIllegal :
    (∀ op ∈ [0x08, 0x09], (setupRun (iw op [(14, 42)])).Issues 0 .setup {} op ∧
      14 ≤ bits ((setupRun (iw op [(14, 42)])).wordAt 0 {}) 45 42) ∧
    ((setupRun (iw 0x03 [(7, 47)])).Issues 0 .setup {} 0x03 ∧ bits ((setupRun (iw 0x03 [(7, 47)])).wordAt 0 {}) 49 47 = 7) ∧
    (setupRun (iw 0x01)).Issues 0 .setup {} 0x01 ∧
    (∀ p ∈ [(0x11, 6), (0x15, 3), (0x16, 4)], (setupRun (iw p.1 [(p.2, 42)])).Issues 0 .setup {} p.1 ∧
      bits ((setupRun (iw p.1 [(p.2, 42)])).wordAt 0 {}) 45 42 = p.2) ∧
    ((setupRun (iw 0x16 [(2, 42), (4, 38)])).Issues 0 .setup {} 0x16 ∧ bits ((setupRun (iw 0x16 [(2, 42), (4, 38)])).wordAt 0 {}) 41 38 = 4) ∧
    ((setupRun (iw 0x12 [(0xF, 41)])).Issues 0 .setup {} 0x12 ∧ bits ((setupRun (iw 0x12 [(0xF, 41)])).wordAt 0 {}) 45 41 = 0xF) ∧
    ((setupRun (iw 0x13 [(8, 47), (1, 42)])).Issues 0 .setup {} 0x13 ∧ selReg 8 = false ∧ selDesc 8 = false) ∧
    ((setupRun (iw 0x14 [(128, 47), (1, 42)])).Issues 0 .setup {} 0x14 ∧ isBlock 1 = false) ∧
    ((setupRun (iw 0x21 [(3, 50)])).Issues 0 .setup {} 0x21 ∧ bits ((setupRun (iw 0x21 [(3, 50)])).wordAt 0 {}) 51 50 = 3) ∧
    ((setupRun (iw 0x25 [(5, 43)])).Issues 0 .setup {} 0x25 ∧ bits ((setupRun (iw 0x25 [(5, 43)])).wordAt 0 {}) 47 43 = 5) ∧
    ((setupRun (iw 0x24 [(64, 43)])).Issues 0 .setup {} 0x24 ∧ (((setupRun 0).runOf 0 .setup {}).x.qd 0).mode ≠ 3) ∧
    ((setupRun (iw 0x20)).Issues 0 .setup {} 0x20 ∧ ((setupRun 0).runOf 0 .setup {}).x.srcOk 0 = false ∧ selFwd 0 = false) ∧
    ((setupRun (iw 0x30 [(2, 54)])).Issues 0 .setup {} 0x30 ∧ bits ((setupRun (iw 0x30 [(2, 54)])).wordAt 0 {}) 57 54 = 2) ∧
    (let d : Dev := { sites := [(0, { prog := [(1023, BitVec.ofNat 64 (iw 0x00))], setup := some { pc := 1023 } })] }
     d.Issues 0 .setup { pc := 1023 } 0x00) ∧
    (((ctxRun (iw 0x20) { units := [(2, 2)] }).site 0).unitFree (.ctx 0) 0x20 = false) := by
  simp only [issues_iff]; decide

/-- Operands that are not there yet, or hold an error, or may not be used. -/
theorem test_witness_SiteWaits :
    -- an ordered-mode descriptor of another trigger, a walk that has ended
    ((((ctxRun (iw 0x0E) { work := [(66, 2)] }).runOf 0 (.ctx 0) {}).x.ag 0).mode = 2 ∧
      ((ctxRun (iw 0x0E) { work := [(66, 2)] }).runOf 0 (.ctx 0) {}).ownsAG
        (((ctxRun (iw 0x0E) { work := [(66, 2)] }).runOf 0 (.ctx 0) {}).x.ag 0) = false ∧
      (ctxRun (iw 0x0E) { work := [(66, 2)] }).Issues 0 (.ctx 0) {} 0x0E) ∧
    (let d := ctxRun (iw 0x13 [(128, 47), (1, 42)]) { work := [(66, 256)] } walked
     d.Issues 0 (.ctx 0) walked 0x13 ∧ ∀ b, (d.runOf 0 (.ctx 0) walked).writeBeat 0 b none 1 = none) ∧
    (let d := ctxRun (iw 0x14 [(128, 47), (5, 42)]) { work := [(66, 256)] } walked
     d.Issues 0 (.ctx 0) walked 0x14 ∧ ∀ b sc, (d.runOf 0 (.ctx 0) walked).writeBeat 0 b (some sc) 5 = none) ∧
    -- a queue whose head has another tag
    (let x : Site := { work := [(0, BitVec.ofNat 64 (2 ^ 13))], queues := [(0, { len := 1, entries := [(0, some { kind := 0, tag := 9 })] })] }
     (setupRun (iw 0x12 [(64, 46), (1, 41)]) x).Issues 0 .setup {} 0x12 ∧ (setupRun (iw 0x30 [(64, 46)]) x).Issues 0 .setup {} 0x30 ∧
       ((setupRun 0 x).runOf 0 .setup {}).beat 0 64 {} = .stop 0x2008 0) ∧
    (let x : Site := { work := [(0, BitVec.ofNat 64 (3 * 2 ^ 13 + 2 ^ 33))], queues := [(0, { entries := [(0, some { kind := 3, count := 1, bad := true })] })] }
     (setupRun (iw 0x24 [(64, 43)]) x).Issues 0 .setup {} 0x24 ∧ ((setupRun 0 x).runOf 0 .setup {}).takeToken 0 {} = .stop 0x8005 0) ∧
    -- `mma` of the forwarding path outside plane mode; `send` without a route, of a queue that is empty
    (let d := setupRun (iw 0x20 [(0xC0, 44), (193, 36), (1, 31), (1, 26)])
     d.Issues 0 .setup {} 0x20 ∧ (d.runOf 0 .setup {}).env.plane = none ∧ selFwd 0xC0 = true) ∧
    (let d := setupRun (iw 0x20 [(64, 44), (193, 36), (1, 31), (1, 26)])
       { work := [(0, BitVec.ofNat 64 (2 ^ 13))], queues := [(0, { len := 1, entries := [(0, some { kind := 0, tag := 9 })] })] }
     d.Issues 0 .setup {} 0x20 ∧ ∃ r1, SRun.mmaBeats (d.wordAt 0 {}) .f16 1 (d.runOf 0 .setup {}) = .stop r1 0x2008 (some 0)) ∧
    (let d := setupRun (iw 0x30 [(64, 46)]) { work := [(0, BitVec.ofNat 64 (2 * 2 ^ 13)), (112, BitVec.ofNat 64 (2 ^ 23))] }
     d.Issues 0 .setup {} 0x30 ∧ (d.runOf 0 .setup {}).beat 0 64 {} = .wait) := by
  simp only [issues_iff]
  refine ⟨by decide, ⟨by decide, fun b => rfl⟩, ⟨by decide, fun b sc => rfl⟩, by decide, by decide, by decide, ⟨by decide, _, rfl⟩, by decide⟩

theorem test_witness_SiteControl :
    ((2 : Fin 4) ≠ 3 ∧ (0xBFF8 : W16).toNat % 8 = 0) ∧ (1020 : BitVec 10).toNat % 4 = 0 ∧ ((31 : Fin 32).val ≠ 0) := by decide

/-- R94: a data write of three words ends below the address that follows them. -/
theorem test_write_data_sram :
    (match exec (.writeDataSram 0 1 8 [0x0807060504030201, 0xFF]) (onDev {}) with
      | .next t => ((t.dev.site 0).rd 8 8, (t.dev.site 0).rd 16 8, (t.dev.site 0).rd 24 8) | _ => (0, 0, 0)) = (0x0807060504030201, 0xFF, 0) := by
  decide

/-- An armed site with two triggers that need nothing: the one with the lower counter is chosen. -/
abbrev armed : Site := { armed := true, trigs := [(3, { word := BitVec.ofNat 64 (2 ^ 51), counter := 7 }), (9, { word := BitVec.ofNat 64 (2 ^ 51), counter := 6 })] }

theorem test_witness_TriggerFires : armed.fifoBad = none ∧ armed.choice = some 9 ∧ armed.freeCtx = some 0 ∧ armed.ready 3 = true := by decide

/-- R97, R148: the trigger with the lower start counter fires. -/
theorem test_trigger_fire :
    (match exec (.triggerFire 0) (onDev { sites := [(0, armed)] }) with
      | .next t => (mget none (t.dev.site 0).ctxs 0).map (fun c => (c.trig, c.tag)) | _ => none) = some (9, 6) := by decide

/-! ### Tokens at sites: section 5.3 -/

/-- A flit of a kind for site 0, queue 5, of epoch e and tag 4; its low bits. -/
abbrev tokFor (kind e low : Nat) (pay : W256 := 0) : Flit := { hdr := mkHdr 0 0 0 5 e 4 kind low, payload := pay }

/-- A device with a flit at the head of a mesh buffer of site 0. -/
abbrev atSite (f : Flit) (x : Site := {}) (c : Cls := .first) (src : Node := .site 0) : Dev :=
  { fabric := { bufs := [(bufKey (siteNode 0) .n c, [{ flit := f, src := src }])] }, sites := if x = {} then [] else [(0, x)] }

theorem test_witness_TokensReachSites :
    (∀ k ∈ [0, 1, 3, 4, 5, 6, 8, 15], k ≠ 1 → (atSite (tokFor k 0 0)).arrived (siteNode 0) .n .first = some { flit := tokFor k 0 0 } ∧
      (tokFor k 0 0).kind = k ∧ (({} : Site)).gate (tokFor k 0 0) = .pass) ∧
    ((tokFor 4 0 0).kind = 4 ∧ ({ controlStop := true } : Site).controlStop = true) ∧ ({ stopped := some 0x8005 } : Site).stopped.isSome = true ∧
    ((tokFor 4 3 0).epoch ≠ ({ epoch := 2 } : Site).epoch.toNat ∧ ({ epoch := 2, forced := true } : Site).forced = true) := by decide

/-- Slotted queue 5 with two slots of two entries, and a combine queue with `EXPECT` 3 that holds two contributions. -/
abbrev slotted : Site := { work := [(5, BitVec.ofNat 64 (2 * 2 ^ 13 + 2 ^ 15 + 2 ^ 22))] }
abbrev combining : Site :=
  { work := [(5, BitVec.ofNat 64 (3 * 2 ^ 13 + 3 * 2 ^ 33))], queues := [(5, { entries := [(0, some { kind := 3, tag := 4, count := 2 })] })] }

theorem test_witness_AcceptedToken :
    ((tokFor 0 0 1).kind = 0 ∧ (slotted.qd 5).mode = 2 ∧ slotted.late 5 4 = false ∧ slotted.ent 5 ((slotted.qd 5).slot 4) = none ∧
      slotted.ent 5 ((slotted.qd 5).slot 4 + (tokFor 0 0 1).seq % (slotted.qd 5).per) = none ∧ (tokFor 0 0 1).seq % (slotted.qd 5).per = 1) ∧
    (∀ n ∈ [1, 2], let f := tokFor 3 0 (16 * n)
     (combining.qd 5).mode = 3 ∧ f.contrib = n ∧ combining.late 5 4 = false ∧ combining.ent 5 0 = some { kind := 3, tag := 4, count := 2 } ∧
       complete (combining.qd 5) { kind := 3, tag := 4, count := 2 } = false ∧
       decide ((combining.qd 5).expect < 2 + n) = decide (n = 2)) := by decide

/-- R140: a third contribution completes the entry; a fourth stops the site with 0x2009. -/
theorem test_reduce_aa_limit :
    (match exec (.reduceAaEject 0 .n ⟨.first, .clean⟩) (onDev (atSite (tokFor 3 0 16 aaZero) combining)) with
      | .next t => (((t.dev.site 0).ent 5 0).map (·.count), (t.dev.site 0).stopped) | _ => (none, none)) = (some 3, none) ∧
    (match exec (.reduceAaEject 0 .n ⟨.first, .clean⟩) (onDev (atSite (tokFor 3 0 32 aaZero) combining)) with
      | .next t => (((t.dev.site 0).ent 5 0).map (·.count), (t.dev.site 0).stopped) | _ => (none, none)) = (some 2, some 0x2009) := by
  decide

theorem test_witness_SiteDrainGateScrub :
    (let d : Dev := { jobs := [(2, { state := 3, reefs := [0], drainAt := some 0 })] }
     d.jobOfSite 0 = some 2 ∧ (d.site 0).canDrain = true ∧ (d.job 2).drainAt.isSome = true) ∧
    (({} : Site).order = [] ∧ ({} : Site).setup = none ∧ ∀ k, k < 32 → ({} : Site).ready k = false) ∧ ({ two := 1 } : Ecc).bad = false := by decide

/-- R110: the scrub wraps after 7,680 words. -/
theorem test_scrub_wraps :
    (match exec (.scrubWord 0 .clean) (onDev { sites := [(0, { scrub := 7679 })] }) with | .next t => (t.dev.site 0).scrub | _ => 1) = 0 := by decide


/-! ### Networks: chapter 06 -/

/-- A device with one flit in a buffer. -/
abbrev withFlit (n : Node) (p : Port) (c : Cls) (x : Transit) (d : Dev := {}) : Dev :=
  { d with fabric := { d.fabric with bufs := [(bufKey n p c, [x])] } }

/-- A token from site (3, 20) of I0 to site (70, 84), on the express network. -/
abbrev far : Transit := { flit := { hdr := mkHdr 0 70 84 5 0 0 0 0 }, src := siteNode (siteNo 0 20 3), express := true }

theorem test_witness_FlitHops :
    (let d := withFlit (siteNode (siteNo 0 20 3)) .w .first far
     d.head (siteNode (siteNo 0 20 3)) .w .first = some far ∧
       ∃ h, d.nextHop (siteNode (siteNo 0 20 3)) far .first = some h ∧ d.hopReady h = true ∧
         d.heldBack (siteNode (siteNo 0 20 3)) .w .first far h = false) ∧
    (let d := { withFlit (siteNode (siteNo 0 20 3)) .w .first far with
                  fabric := { bufs := [(bufKey (siteNode (siteNo 0 20 3)) .w .first, [far])],
                              used := [(bufKey (siteNode (siteNo 0 20 4)) .w .first, 3)] } }
     ∃ h, d.nextHop (siteNode (siteNo 0 20 3)) far .first = some h ∧ d.hopReady h = false) ∧
    (withFlit (siteNode 0) .n .first { flit := tokFor 0 0 0 }).nextHop (siteNode 0) { flit := tokFor 0 0 0 } .first = none ∧ far.flit.kind ≠ 3 := by
  exact ⟨⟨by decide, .link (siteNode (siteNo 0 20 4)) .w .first, by decide, by decide, by decide⟩,
    ⟨.link (siteNode (siteNo 0 20 4)) .w .first, by decide, by decide⟩, by decide, by decide⟩

/-- R176, the example of section 6.15: along row 20 east to X = 8, there into the tap of reef (0, 1); from the reef router of (4, 5) to the tap
of row 84; from it to site (72, 84), and west on the last leg. -/
theorem test_express_route :
    (({}) : Dev).nextHop (siteNode (siteNo 0 20 3)) far .first = some (.link (siteNode (siteNo 0 20 4)) .w .first) ∧
    (({}) : Dev).nextHop (siteNode (siteNo 0 20 8)) far .first = some (.link (tapNode 6 4) .w .first) ∧
    (({}) : Dev).nextHop (reefNode 6) far .first = some (.link (reefNode 7) .w .first) ∧
    (({}) : Dev).nextHop (reefNode 34) far .first = some (.link (tapNode 34 4) .express .last) ∧
    (({}) : Dev).nextHop (siteNode (siteNo 0 84 72)) far .last = some (.link (siteNode (siteNo 0 84 71)) .e .last) := by decide

theorem test_witness_RingEvents :
    State.reset.dev.ring.failed = [] ∧
    (let d : Dev := { ring := { failed := [2] } }
     d.ring.failed ≠ [] ∧ (3 : Fin 8).val ∉ d.ring.failed ∧ (2 : Fin 8).val ∈ d.ring.failed) ∧
    (∀ e ∈ [3, 7], let x : Transit := { dst := .die (Fin.ofNat 8 e) }
     let d := withFlit (ringNode e) .cw .first x
     d.arrived (ringNode e) .cw .first = some x ∧ d.head (ringNode e) .cw .first = some x) := by decide

/-! ### Lagoons, multicast, semaphores: chapters 06 and 08 -/

/-- `Dev.AtLagoon` as a test. -/
def atLagoonB (d : Dev) (r : Nat) (p : Port) (c : Cls) (f : Flit) : Bool :=
  (d.arrived (reefNode r) p c).any fun tr => decide (tr.flit = f) && decide (tr.bad = false) &&
    decide ((d.jobAt r).any d.jobStopped = false) && decide (f.epoch = (d.lag r).epoch.toNat)

theorem atLagoon_iff (d : Dev) (r : Nat) (p : Port) (c : Cls) (f : Flit) : d.AtLagoon r p c f ↔ atLagoonB d r p c f = true := by
  simp only [Dev.AtLagoon, atLagoonB, Option.any_eq_true, Bool.and_eq_true, decide_eq_true_eq, and_assoc]

/-- A flit for lagoon 0. -/
abbrev lagFlit (kind queue low : Nat) (pay : W256 := 0) : Flit := { hdr := mkHdr 0 0x60 0 queue 0 4 kind low, payload := pay }

abbrev atLag (f : Flit) (l : Lagoon := {}) (c : Cls := .first) (d : Dev := {}) : Dev :=
  withFlit (reefNode 0) .n c { flit := f } { d with lagoons := if l = {} then [] else [(0, l)] }

/-- Channel 3 in a mode, with 32 × 1,024 entries. -/
abbrev chan (mode : Nat) : Lagoon :=
  { chans := [(3, { w0 := BitVec.ofNat 64 (mode * 2 ^ 16 + 31 * 2 ^ 18 + 1023 * 2 ^ 25) })] }

theorem test_witness_LagoonChannels :
    (∀ m ∈ [1, 2, 3], let f := lagFlit 0 3 (dataLow 15 7)
     let d := atLag f (chan m)
     d.AtLagoon 0 .n .first f ∧ f.kind = 0 ∧ f.queue < 32 ∧ ((d.lag 0).chanD f.queue).mode = m ∧ f.asksSpill = false) ∧
    ((((chan 3).chan 3).held) + 1 < spillCap ((chan 3).chan 3).w0.toNat) ∧
    (let f := lagFlit 0 3 (dataLow 0 0)
     let g := lagFlit 0 3 (dataLow 15 7)
     let d := atLag f ((chan 3).spillPut 3 g)
     d.AtLagoon 0 .n .first f ∧ ((d.lag 0).chanD f.queue).mode = 3 ∧ f.asksSpill = true ∧ 0 < ((d.lag 0).chan f.queue).held ∧
       (chan 3).chanInBank 3 = true ∧ ((chan 3).chan 3).held < spillCap ((chan 3).chan 3).w0.toNat) := by
  simp only [atLagoon_iff]; decide

/-- R194: two tokens of 40 bytes each come back in order; the second crosses an entry. -/
theorem test_spill_ring :
    (let a := lagFlit 0 3 (dataLow 15 7) (payOf [1, 2, 3, 4])
     let b := lagFlit 0 3 (dataLow 15 8) (payOf [5, 6, 7, 8])
     let l := ((chan 3).spillPut 3 a).spillPut 3 b
     l.mem.map (·.1) = [0, 1, 2] ∧ l.spillNth 3 0 = a ∧ l.spillNth 3 1 = b ∧ (l.spillDrop 3).spillNth 3 0 = b) := by decide

/-- R190, R133: a write window keeps the words that `WMASK` does not name. -/
theorem test_channel_write :
    (match exec (.channelWriteWindow 0 .n .first) (onDev (atLag (lagFlit 0 3 (dataLow 0b0101 7) (payOf [1, 2, 3, 4])) (chan 1))) with
      | .next t => (t.dev.lag 0).mem.map (·.2) | _ => []) = [payOf [1, 0, 3, 0]] := by decide

/-- A slotted queue with spilling whose trigger lacks another operand. -/
abbrev starving : Site := { work := [(5, BitVec.ofNat 64 (2 * 2 ^ 13 + 2 ^ 43))], queues := [(5, { blockedSince := some 0, refill := 1 })], armed := true, trigs := [(0, { word := BitVec.ofNat 64 (5 * 2 ^ 20 + 2 ^ 26 + 6 * 2 ^ 27 + 2 ^ 33 + 2 ^ 51) })] }

theorem test_witness_QueueSpills :
    (let tr : Transit := { flit := tokFor 0 0 0 }
     let d := withFlit (siteNode 0) .n .first tr { sites := [(0, starving)] }
     let x := d.site 0
     d.arrived (siteNode 0) .n .first = some tr ∧ tr.flit.kind = 0 ∧ x.gate tr.flit = .pass ∧ (x.q 5).blockedSince = some 0 ∧
       (x.qd 5).mode = 2 ∧ (x.qd 5).spill = true ∧ (x.q 5).spilling = false ∧ 0 + 2000 ≤ 2000 ∧ x.starved 5 = true) ∧
    (let d : Dev := { sites := [(0, { work := [(117, BitVec.ofNat 64 (2 ^ 23 + 0x60 * 4 + 3 * 2 ^ 16))], queues := [(5, { spilling := true, refill := 1 })] })] }
     let v := (d.site 0).q 5
     d.spillChan 0 5 = some (0, 3) ∧ v.spilling = true ∧ v.refillOut = false ∧ 0 < v.refill ∧ d.canInject (siteNode 0) 0 = true) := by decide

theorem test_witness_Multicast :
    (let f : Flit := { hdr := mkHdr 0 0 0 0 0 4 1 0 }
     (atLag f).AtLagoon 0 .n .first f ∧ f.kind = 1 ∧ ((atLag f).lag 0).mcq.length < 16) ∧
    (∀ now ∈ [0, 50000], let m : McActive := { flit := tokFor 1 0 9, asked := true }
     let f := lagFlit 2 63 (2 * 1024 + 9)
     let d := atLag f { mc := some m, groups := [(m.flit.group % 256, [5])] } .credit
     d.AtLagoon 0 .n .credit f ∧ ((d.lag 0).targets m.flit)[m.granted]? = some 5 ∧
       (d.arrived (reefNode 0) .n .credit).map (·.src) = some (mcSite 0 5) ∧ f.kind = 2 ∧ f.queue = 63 ∧ ((d.takeFlit (reefNode 0) .n .credit).lag 0).mc = some m ∧ m.asked = true ∧
       f.hi4 = 2 ∧ f.tag = m.flit.tag ∧ f.seq = m.flit.seq ∧ now ≤ m.start + 50000) ∧
    (({ flit := tokFor 1 0 9 } : McActive).retryAt = none ∧ ({ flit := tokFor 1 0 9 } : McActive).start + 50000 < 50001) ∧
    (({ retryAt := some 5 } : McActive).retryAt = some 5 ∧ 5 + 1000 ≤ 1005) ∧
    (let tr : Transit := { flit := tokFor 2 0 (1024 + 7), src := .reef 2 }
     let d := withFlit (siteNode 0) .n .credit tr { sites := [(0, slotted)] }
     d.arrived (siteNode 0) .n .credit = some tr ∧ tr.flit.kind = 2 ∧ tr.flit.hi4 = 1 ∧ (d.site 0).gate tr.flit = .pass ∧ tr.src = .reef 2 ∧
       ((d.site 0).qd tr.flit.queue).mode = 2 ∧ (d.site 0).resv.length < 4) ∧
    (let v : Reservation := { queue := 5, tag := 4 }
     let x : Site := { slotted with resv := [v] }
     x.resv[0]? = some v ∧ x.resvEntry v = some ((x.qd 5).slot 4) ∧ v.granted = false ∧ (({}) : Dev).canInject (siteNode 0) 2 = true) ∧
    (let tr : Transit := { flit := tokFor 2 0 (3 * 1024 + 7), src := .reef 2 }
     let d := withFlit (siteNode 0) .n .credit tr
     d.arrived (siteNode 0) .n .credit = some tr ∧ tr.flit.hi4 = 3 ∧ (d.site 0).gate tr.flit = .pass) := by
  simp only [atLagoon_iff]; decide

/-- R211, R212: a fifth reservation waits in the router. -/
theorem test_mc_reserve_full :
    (match exec (.mcReserve 0 .n) (onDev (withFlit (siteNode 0) .n .credit { flit := tokFor 2 0 (1024 + 7), src := .reef 2 }
        { sites := [(0, { slotted with resv := List.replicate 4 {} })] })) with
      | .next t => (t.dev.site 0).resv.length | _ => 0) = 4 := by decide

/-- A semaphore request: operation, count, reply to a lagoon. -/
abbrev semReq (op n : Nat) : Flit := lagFlit 0 62 0 (payOf [op * 2 ^ 12 + n * 2 ^ 16, 2 ^ 23 + 96 * 4])

/-- A device whose pair 0 stands in slot 0 of bank 0 and belongs to a `DIR` 1 stream. -/
abbrev atBank (f : Flit) (x : Pair) (ws : List SemWait := []) : Dev :=
  withFlit (reefNode 0) .n .first { flit := f }
    { lagoons := [(0, { pairs := if x = {} then [] else [(0, x)], waits := ws })],
      arbs := [(0, { semMap := [(0, 1)], streams := [(7, { words := [BitVec.ofNat 64 (2 ^ 56)] })] })] }

theorem test_witness_Semaphores :
    -- (operation, count, pair): a read, posts, waits that may and may not be applied, an acquire of both kinds, a fetch, a release
    (∀ e ∈ ([(0, 0, {}), (1, 1, {}), (2, 65535, {}), (3, 2, { full := 2 }), (3, 2, { full := 1 }), (4, 2, { empty := 2 }), (4, 2, { empty := 1 }),
        (5, 1, { full := 1, delivered := [{}] }), (5, 1, {}), (6, 0, { acquired := [{ entries := 8 }] }), (7, 0, { acquired := [{}] })] :
        List (Nat × Nat × Pair)),
      let f := semReq e.1 e.2.1
      let d := atBank f e.2.2
      (d.AtLagoon 0 .n .first f ∧ f.kind = 0 ∧ f.queue = 62 ∧ (semReqOf f).op = e.1 ∧ (d.lag 0).waits.length < 32 ∧
        d.semBad 0 (semReqOf f) = false ∧ d.bankSlot 0 (semReqOf f).pair = some 0) ∧ d.pair 0 0 = e.2.2) ∧
    (({ full := 2 } : Pair).satisfies (semReqOf (semReq 3 2)) = true ∧ olderReady 0 { full := 2 } [] = false) ∧
    ({ full := 1 } : Pair).satisfies (semReqOf (semReq 3 2)) = false ∧
    ({ full := 1, delivered := [{}] } : Pair).satisfies (semReqOf (semReq 5 1)) = true ∧
    (let d := atBank (semReq 6 0) { acquired := [{ entries := 8 }] }
     (d.pair 0 0).acquired[(semReqOf (semReq 6 0)).k]? = some { entries := 8 } ∧
       d.poolStream 0 0 = some (7, { words := [BitVec.ofNat 64 (2 ^ 56)] }) ∧ (d.pair 0 0).refill = none ∧ ({ entries := 8 } : Block).chunk = none) ∧
    (let w : SemWait := { flit := semReq 3 2 }
     let d := atBank (semReq 0 0) { full := 2 } [w]
     (d.lag 0).waits[0]? = some w ∧ d.bankSlot 0 (semReqOf w.flit).pair = some 0 ∧ (d.pair 0 0).satisfies (semReqOf w.flit) = true ∧
       olderReady 0 (d.pair 0 0) ((d.lag 0).waits.take 0) = false) := by
  simp only [atLagoon_iff]; decide

/-- `Dev.AtBank` is what the tests above show. -/
theorem test_witness_AtBank : (atBank (semReq 3 2) { full := 2 }).AtBank 0 .n .first (semReq 3 2) 3 0 := by
  simp only [Dev.AtBank, atLagoon_iff]; decide

/-- R193: a count that would exceed 65,535 stays there, and the loss is recorded. -/
theorem test_post_full_saturates :
    (match exec (.postFull 0 .n .first) (onDev (atBank (semReq 1 65535) { full := 1 })) with
      | .next t => ((t.dev.pair 0 0).full, t.dev.log.entries.map (·.code)) | _ => (0, [])) = (65535, [0x2010]) := by decide

/-! ### Isthmus bridges -/

/-- A device whose clockwise direction of bridge 0 has this lane group 0. -/
abbrev lanes (l : LaneGroup) : Dev := { bridges := [(0, { groups := [(0, l)] })] }

theorem test_witness_IsthmusSends :
    (let l := (lanes { localQ := [far], credit := 1, unacked := List.replicate 63 (0, {}) }).lgroup 0 0
     l.down = false ∧ l.retraining = false ∧ l.credit ≠ 0 ∧ l.unacked.length < 64 ∧ l.waits = true) ∧
    (∀ n ∈ [6, 7], let l := (lanes { nakIn := true, naks := n }).lgroup 0 0
     l.nakIn = true ∧ l.retraining = false ∧ l.down = false ∧ decide (l.naks + 1 < 8) = decide (n = 6)) ∧
    (let l := (lanes { retraining := true }).lgroup 0 0
     l.retraining = true ∧ (2 : Fin 67).val ≤ l.spares ∧ l.spares < (3 : Fin 67).val) := by decide

theorem test_witness_SentFrame : (List.replicate 250 (0xA5 : Byte)).length ≤ 250 := Nat.le_of_eq List.length_replicate

set_option maxRecDepth 16384 in
/-- R197, R200: an empty frame passes its check; one bit wrong does not. -/
theorem test_witness_IsthmusReceives :
    (let l : LaneGroup := { wire := [mkFrame [] 5 0 false 0 0], expect := 5 }
     ((lanes l).lgroup 0 0).rx = [] ∧ ((lanes l).lgroup 0 0).wire = [mkFrame [] 5 0 false 0 0]) ∧
    (let b := (mkFrame [] 5 0 false 0 0).bytes
     crc24 (b.take 253) = fieldAt b 253 3 ∧ bits (fieldAt b 250 3) 8 0 = 5) ∧
    (let f : Frame := { mkFrame [] 5 0 false 0 0 with bits := (mkFrame [] 5 0 false 0 0).bits ^^^ 1 }
     crc24 (f.bytes.take 253) ≠ fieldAt f.bytes 253 3) := by
  decide +kernel

/-- A lagoon whose channel 3 spills and holds n tokens, in the kind 4 region 0. -/
abbrev spilling (n : Nat) : Lagoon :=
  { chans := [(3, { w0 := BitVec.ofNat 64 (3 * 2 ^ 16 + 31 * 2 ^ 18 + 1023 * 2 ^ 25), held := n })] }

/-- What a lagoon, a multicast agent, a target and a bank refuse, and where they are full. -/
theorem test_witness_LagoonRefuses :
    (∀ e ∈ [(0, 0), (1, 4), (2, 4)], let f := lagFlit e.2 3 0
     (atLag f (chan e.1)).AtLagoon 0 .n .first f ∧ (((atLag f (chan e.1)).lag 0).chanD f.queue).mode = e.1 ∧ f.kind = e.2 ∧ f.queue < 32) ∧
    (let f := lagFlit 0 40 0
     (atLag f).AtLagoon 0 .n .first f ∧ 32 ≤ f.queue ∧ f.queue < 62) ∧
    (let c := spillCap ((chan 3).chan 3).w0.toNat
     ((spilling (c - 1)).chan 3).held + 1 = c ∧ c ≤ ((spilling c).chan 3).held) ∧
    (let f : Flit := { hdr := mkHdr 0 0 0 0 0 4 1 0 }
     (atLag f { mcq := List.replicate 16 {} }).AtLagoon 0 .n .first f ∧ 16 ≤ ((atLag f { mcq := List.replicate 16 {} }).lag 0).mcq.length) ∧
    (∀ e ∈ [(0, 1024), (3, 1024), (2, 0)], let tr : Transit := { flit := tokFor 2 0 e.2, src := .reef 2 }
     let d := withFlit (siteNode 0) .n .credit tr { sites := [(0, { work := [(5, BitVec.ofNat 64 (e.1 * 2 ^ 13))] })] }
     d.arrived (siteNode 0) .n .credit = some tr ∧ tr.flit.kind = 2 ∧ tr.flit.hi4 ≠ 3 ∧ (d.site 0).gate tr.flit = .pass ∧
       ((d.site 0).qd tr.flit.queue).mode = e.1 ∧ decide (tr.flit.hi4 = 1) = decide (e.2 = 1024)) ∧
    (let f := lagFlit 0 62 0 (payOf [9, 2 ^ 23 + 96 * 4])
     (atBank f {}).AtLagoon 0 .n .first f ∧ f.queue = 62 ∧ f.kind = 0 ∧ (atBank f {}).semBad 0 (semReqOf f) = true) ∧
    (let f := lagFlit 4 62 0
     (atBank f {}).AtLagoon 0 .n .first f ∧ f.queue = 62 ∧ f.kind ≠ 0 ∧ f.kind ≠ 1) := by
  simp only [atLagoon_iff]; decide

/-- A `FETCH` of a chunk, and one behind a refill; a `REL` of a block that has been escaped. -/
theorem test_witness_Refills :
    (∀ e ∈ [(some 3, none), (some 3, some {}), (none, some {})], let x : Pair := { acquired := [{ entries := 8, chunk := e.1 }], refill := e.2 }
     let d := atBank (semReq 6 0) x
     d.AtBank 0 .n .first (semReq 6 0) 6 0 ∧ (d.pair 0 0).acquired[(semReqOf (semReq 6 0)).k]? = some { entries := 8, chunk := e.1 } ∧
       (d.pair 0 0).refill = e.2 ∧ (d.poolStream 0 0).isSome = true) ∧
    (let d := atBank (semReq 7 0) { acquired := [{ entries := 8, chunk := some 3 }] }
     d.AtBank 0 .n .first (semReq 7 0) 7 0 ∧ (d.pair 0 0).acquired = [{ entries := 8, chunk := some 3 }] ∧ (d.poolStream 0 0).isSome = true) := by
  simp only [Dev.AtBank, atLagoon_iff]; decide

/-- A group that may not send, both kinds of traffic waiting, a group that is lost beside one that lives; a record of a data token. -/
theorem test_witness_IsthmusWaits :
    ((({ credit := 0 } : LaneGroup).credit = 0) ∧ 64 ≤ ({ unacked := List.replicate 64 (0, {}) } : LaneGroup).unacked.length) ∧
    (let l : LaneGroup := { localQ := [far], transitQ := [far] }
     l.early = [] ∧ l.tail = [] ∧ l.localQ ≠ [] ∧ l.transitQ ≠ []) ∧
    (let d := lanes {}
     (d.setLgroup 0 0 { d.lgroup 0 0 with down := true }).liveGroup 0 0 = 1 ∧
       ((List.range 32).filter fun k => decide (k = 0) || (d.lgroup 0 k).down).length ≠ 5) ∧
    far.flit.kind ≠ 15 ∧ bareKind far.flit.kind = false ∧ ((({}) : Dev).lgroup 0 0).rx = [] := by decide

/-! ### HBM: chapter 07 -/

/-- R219, the example: stack offset 0x2_3456_7A40 with all 32 pseudo-channels in service, and with channel 2 out. -/
theorem test_locate :
    locate (List.range 32) (0x234567A40 / 32) = { pc := 13, bank := 2, bg := 3, sid := 1, row := 6019, column := 26 } ∧
    (locate ((List.range 32).filter fun p => decide (p / 2 ≠ 2)) (0x234567A40 / 32)).pc = 8 := by decide

/-- A lane buffer holds one word of its pseudo-channel; no lane buffer holds any. -/
theorem test_witness_LanesOk : (({}) : Stack).LanesOk := by
  refine ⟨by decide, fun pc => ⟨fun e h => ?_, ?_⟩⟩
  · simp [mget] at h
  · simp [mget]

/-- A stack with region 1: the 2 MiB at 16 MiB, tenant slot 3, job 5, read and write. -/
abbrev region : Stack := { regions := [(0, 0x4FF000038000#64), (1, BitVec.ofNat 64 (8 + 3 * 2 ^ 30 + 5 * 2 ^ 36 + 2 ^ 44))] }

theorem test_witness_HbmRequests :
    (∀ w : Bool, region.verdict (.job 3 5) (8 * 65536) 8 w = .ok ∧ region.verdict (.job 3 5) (9 * 65536 - 8) 8 w = .ok) ∧
    region.verdict (.job 3 5) (9 * 65536 - 7) 8 false = .denied ∧ region.verdict .firmware (32 * 9 * 2 ^ 22 - 7) 8 false = .range ∧
    ({ region with zeroing := [1] } : Stack).verdict (.job 3 5) (8 * 65536) 1 false = .wait ∧
    (let r : HbmReq := { cls := 4, sector := 0 }
     let x : Stack := { queue := [r] }
     x.grant 0 [] = some 0 ∧ x.queue[0]? = some r ∧ r.slots ≤ 1) ∧
    (let r : HbmReq := { data := [7] }
     ({ issued := [r] } : Stack).issued[0]? = some r ∧ r.bad = [] ∧ r.data.length = r.count) := by decide

theorem test_witness_HbmUpkeep :
    (({} : Stack).mapping = none ∧ ({} : Stack).scrub < ({} : Stack).sectors) ∧
    (let x : Stack := { scrub := 32 * 9 * 2 ^ 22 }
     x.sectors ≤ x.scrub ∧ ∀ r ∈ x.queue ++ x.issued, r.reply ≠ .scrub) ∧
    ((105 : W16).toInt ≤ 105 ∧ (95 : Int) ≤ (95 : W16).toInt ∧ (94 : W16).toInt < 95 ∧ (85 : Int) ≤ (85 : W16).toInt ∧ (82 : W16).toInt ≤ 82) ∧
    (State.reset.dev.slots = [] ∧ State.reset.dev.planRegion 0 0 = none) ∧
    (let d : Dev := { hbms := [(2, { zeroing := [1] })], jobs := [(0, { plan := some {}, regions := [(0, 2, 0, 1, 1, 1)], trans := 2 })] }
     d.slots = [] ∧ (d.planRegion 2 1).isSome = true ∧ 1 ∈ (d.stk 2).zeroing ∧ (d.job 0).trans = 2 ∧ (d.job 0).saved = false) ∧
    (let d : Dev := { hbms := [(2, { chans := [(3, { failing := true })] })], jobs := [(1, { regions := [(0, 2, 0, 1, 1, 1)], state := 6 })] }
     let x := d.stk 2
     (x.chan 3).failing = true ∧ x.active.getLsbD 3 = true ∧ x.mapping = none ∧
       ∀ j ∈ d.jobsInStack 2, (d.job j).state = 6 ∧ (d.job j).stopping = false) ∧
    (({ hbms := [(0, { mapping := some 3 })] } : Dev).stk 0).mapping = some 3 := by decide

/-- `Dev.AtWindow` as a test. -/
def atWindowB (d : Dev) (k : Nat) (p : Port) (c : Cls) (f : Flit) (mode : Nat) : Bool :=
  (d.arrived (hbmNode k) p c).any fun tr => decide (tr.flit = f) && decide (tr.bad = false) && decide ((d.stk k).mapping = none) &&
    decide (((d.stk k).win f.queue).mode = mode) && decide (d.jobStopped ((d.stk k).win f.queue).job = false) &&
    decide (f.epoch = mget 0 (d.stk k).epochs f.queue)

theorem atWindow_iff (d : Dev) (k : Nat) (p : Port) (c : Cls) (f : Flit) (m : Nat) :
    d.AtWindow k p c f m ↔ atWindowB d k p c f m = true := by
  simp only [Dev.AtWindow, atWindowB, Option.any_eq_true, Bool.and_eq_true, decide_eq_true_eq, and_assoc]

/-- A flit for window 3 of stack 0; the stack with the window in a mode over the region above, two slots of eight entries. -/
abbrev winFlit (kind low : Nat) (pay : W256 := 0) : Flit := { hdr := mkHdr 0 0x61 0 3 0 4 kind low, payload := pay }
abbrev winStack (mode : Nat) : Stack :=
  { region with windows := [(3, { w0 := BitVec.ofNat 64 (65536 + mode * 2 ^ 32 + 2 ^ 35), w1 := BitVec.ofNat 64 (7 + 3 * 2 ^ 18 + 5 * 2 ^ 24) })] }
abbrev atWin (mode : Nat) (f : Flit) : Dev := withFlit (hbmNode 0) .cw .first { flit := f } { hbms := [(0, winStack mode)] }

theorem test_witness_WindowReadsAndWrites :
    (∀ m ∈ [0, 5, 15], let f := winFlit 0 (dataLow m 9)
     let x := winStack 2
     let w := x.win 3
     (atWin 2 f).AtWindow 0 .cw .first f 2 ∧ f.kind = 0 ∧ x.verdict (.job w.slot w.job) (w.base + w.entry f.tag f.seq) 1 true = .ok ∧
       (f.hi4 = 15 ∨ w.base + w.entry f.tag f.seq ∉ x.poison)) ∧
    (let f := winFlit 0 (dataLow 15 0) (payOf [8 + 7 * 2 ^ 32])
     let x := winStack 1
     let w := x.win 3
     let q := payWord f.payload 0
     (atWin 1 f).AtWindow 0 .cw .first f 1 ∧ f.kind = 0 ∧ bits q 31 0 + (bits q 34 32 + 1) = w.slots * w.per ∧
       x.verdict (.job w.slot w.job) (w.base + 8) 8 false = .ok ∧ x.narrowRoom (w.base + 8) 8 = true) := by
  simp only [atWindow_iff]; decide

theorem test_witness_WindowAccumulates :
    (∀ op < 2, let f := winFlit 0 (dataLow 15 0) (payOf [2 + op * 2 ^ 32, 5, 6, 7])
     let x := winStack 3
     let w := x.win 3
     (atWin 3 f).AtWindow 0 .cw .first f 3 ∧ f.kind = 0 ∧ bits (payWord f.payload 0) 35 32 = op ∧
       x.verdict (.job w.slot w.job) (w.base + 2) 1 true = .ok ∧ x.narrowRoom (w.base + 2) 1 = true ∧ w.base + 2 ∉ x.poison) ∧
    (let f := winFlit 3 (16 + 2) aaZero
     let x := winStack 4
     let w := x.win 3
     (atWin 4 f).AtWindow 0 .cw .first f 4 ∧ f.kind = 3 ∧ x.verdict (.job w.slot w.job) (w.base + w.entry f.tag f.aaSeq) 1 true = .ok) ∧
    (let f := winFlit 0 (dataLow 15 2)
     let x := winStack 4
     let w := x.win 3
     (atWin 4 f).AtWindow 0 .cw .first f 4 ∧ f.kind = 0 ∧ x.verdict (.job w.slot w.job) (w.base + w.entry f.tag f.seq) 1 true = .ok) ∧
    (∀ m ∈ [5, 6], let f := winFlit 0 (dataLow 15 2)
     let x := winStack m
     let w := x.win 3
     (atWin m f).AtWindow 0 .cw .first f m ∧ f.kind = 0 ∧ x.verdict (.job w.slot w.job) (w.base + w.entry f.tag f.seq * 8) 8 true = .ok ∧
       (∀ j, j < 8 → w.base + w.entry f.tag f.seq * 8 + j ∉ x.poison) ∧ x.lanes = []) ∧
    (let f := winFlit 0 (dataLow 15 0)
     (atWin 7 f).AtWindow 0 .cw .first f 7 ∧ f.kind = 0 ∧ (winStack 7).waits.length < 64) ∧
    (let x : Stack := { winStack 7 with waits := [{ window := 3, target := 5 }], counters := [(0, 5)] }
     x.waits[0]? = some { window := 3, target := 5 } ∧ (x.counterOf 3 - 5).toNat < 2 ^ 31) ∧
    2 ^ 31 ≤ (({ winStack 7 with counters := [(0, 4)] } : Stack).counterOf 3 - 5).toNat := by
  simp only [atWindow_iff]
  refine ⟨?_, ?_, ?_, ?_, ?_, ?_, ?_⟩ <;> decide

/-- R245: an atomic add on the first word of a sector. -/
theorem test_atomic_add :
    (match exec (.atomicAdd 0 .cw .first []) (onDev (atWin 3 (winFlit 0 (dataLow 15 0) (payOf [2, 5])))) with
      | .next t => (t.dev.stk 0).rd (((winStack 3).win 3).base + 2) | _ => 0) = payOf [5] := by decide +kernel


/-- R231, R234, R241 to R250, the other ends: an operation code that is none; a partial write and an atomic on a poisoned sector; an extent that
passes the window's end; a full narrow queue; 64 waits; a request of two bursts, and none to grant; a stack at 106 °C. -/
theorem test_witness_HbmEnds :
    (let f := winFlit 0 (dataLow 15 0) (payOf [2 + 2 * 2 ^ 32])
     (atWin 3 f).AtWindow 0 .cw .first f 3 ∧ f.kind = 0 ∧ 2 ≤ bits (payWord f.payload 0) 35 32) ∧
    (let d : Dev := { hbms := [(0, { winStack 2 with poison := [5] })] }
     (d.readSector {} 0 5 [] none).1 = none ∧ (d.readSector {} 0 6 [] none).1 = some 0 ∧ (d.stk 0).verdict (.job 3 5) (8 * 65536) 1 true = .ok) ∧
    (let f := winFlit 0 (dataLow 15 0) (payOf [9 + 7 * 2 ^ 32])
     let w := (winStack 1).win 3
     (atWin 1 f).AtWindow 0 .cw .first f 1 ∧ w.slots * w.per < bits (payWord f.payload 0) 31 0 + (bits (payWord f.payload 0) 34 32 + 1)) ∧
    ({ winStack 1 with queue := List.replicate 64 { sector := 8 * 65536 } } : Stack).narrowRoom (8 * 65536) 1 = false ∧
    64 ≤ (List.replicate 64 ({ window := 3, target := 5 } : AuWait)).length ∧
    (let r : HbmReq := { cls := 4, sector := 0, slots := 2 }
     ({ queue := [r] } : Stack).grant 0 [] = some 0 ∧ 1 < r.slots ∧ ({ queue := [r] } : Stack).grant 1 [] = none) ∧
    (105 < (106 : W16).toInt ∧ (State.reset.dev.pu.state ≠ .fault)) := by
  simp only [atWindow_iff]
  refine ⟨?_, ?_, ?_, ?_, ?_, ?_, ?_⟩ <;> decide +kernel

/-- R228: g(x) itself is a codeword, so the check symbols of the word 1 are its coefficients; a codeword has no syndromes. -/
theorem test_sector_code :
    rsCheck (List.replicate 31 0 ++ [1]) = [0x0F, 0x36, 0x78, 0x40] ∧
    (let c := rsEncode ((List.range 32).map fun i => BitVec.ofNat 8 (7 * i + 1))
     rsSyndromes (c.mapIdx fun i b => (Fin.ofNat 36 i, b)) = [0, 0, 0, 0]) := by decide +kernel

/-! ### Streams: chapter 08 -/

/-- A stream of pair 0 of isle 0, with a list of blocks at HA 0, of a direction; `w2` has its anchor and its relations. -/
abbrev strm (dir nblk : Nat) (pair w2 : Nat := 0) : Stream :=
  { ahead := [(0, [])], words := [BitVec.ofNat 64 (dir * 2 ^ 56 + (nblk - 1) * 2 ^ 40), BitVec.ofNat 64 pair, BitVec.ofNat 64 w2, 0, 0] }

/-- A device with one stream on isle 0, its pair at slot 0 of lagoon 0, and job 0 running. -/
abbrev withStream (st : Stream) (pr : Pair) : Dev :=
  { arbs := [(0, { semMap := [(0, 1)], streams := [(0, st)] })], lagoons := if pr = {} then [] else [(0, { pairs := [(0, pr)] })],
    jobs := [(0, { state := 2 })] }

/-- A block in progress at list position 0 with one granule. -/
abbrev blk0 (got : Map (List W256) := []) (doneCount : Nat := 0) : InBlock := { words := [0, 0, 0, 0], sent := 1, doneCount := doneCount, got := got }

/-- A read and a write stream at the last block of their lists, and a read stream before it, may start. -/
theorem test_witness_BlockStart :
    (withStream (strm 1 1) { empty := 1 }).MayStart 0 0 0 0 [] ∧
    ((withStream (strm 1 1) { empty := 1 }).arb 0 |>.stream 0).next + 1 = (strm 1 1).d.nblk ∧
    (withStream (strm 3 2) { full := 1 }).MayStart 0 0 0 0 [] ∧ (strm 3 2).d.dir = 3 ∧ 0 + 1 ≠ (strm 3 2).d.nblk := by
  refine ⟨?_, by decide, ?_, by decide, by decide⟩ <;> (unfold Dev.MayStart; decide)

theorem test_witness_StreamBlocks :
    (let st : Stream := { strm 1 1 with inprog := [blk0 [(0, [7])]] }
     let d := withStream st {}
     ((d.arb 0).stream 0).inprog[(0 : Fin 2).val]? = some (blk0 [(0, [7])]) ∧
       (blk0 [(0, [7])]).got.find? (fun e => e.1 = 0) = some (0, [7]) ∧ st.d.dir = 1 ∧ st.stopped = false) ∧
    (let st : Stream := { strm 2 1 with inprog := [blk0 [(1, [7])]] }
     st.inprog[(0 : Fin 2).val]? = some (blk0 [(1, [7])]) ∧ (blk0 [(1, [7])]).got.find? (fun e => e.1 = 1) = some (1, [7]) ∧ st.d.dir = 2 ∧
       1 ≠ (blk0 [(1, [7])]).doneCount) ∧
    (let st : Stream := { strm 2 1 with inprog := [blk0 [(0, [7])]] }
     st.inprog[(0 : Fin 2).val]? = some (blk0 [(0, [7])]) ∧ st.d.dir = 2 ∧ 0 = (blk0 [(0, [7])]).doneCount ∧ st.stopped = false) ∧
    (let st : Stream := { strm 3 1 with inprog := [blk0 [(0, [])]] }
     st.inprog[(0 : Fin 2).val]? = some (blk0 [(0, [])]) ∧ st.d.dir = 3) ∧
    (let st : Stream := { strm 1 1 with inprog := [blk0 [] 1] }
     let d := withStream st { full := 65534 }
     ((d.arb 0).stream 0).inprog.head? = some (blk0 [] 1) ∧ d.pairAt 0 st.d.pair = some (0, 0) ∧ (blk0 [] 1).complete st.stopped = true ∧ st.d.dir ≠ 3 ∧
       st.stopped = false ∧ (d.pair 0 0).full.toNat < 65535) ∧
    (let st : Stream := { strm 3 1 with inprog := [blk0 [] 1] }
     let d := withStream st {}
     ((d.arb 0).stream 0).inprog.find? (·.complete false) = some (blk0 [] 1) ∧ d.pairAt 0 st.d.pair = some (0, 0) ∧ st.d.dir = 3 ∧
       st.stopped = false) ∧
    (let d := { withStream (strm 1 1) {} with jobs := [(0, { drainAt := some 0 })] }
     (d.job 0).drainAt.isSome = true ∧ d.streamsQuiet 0 0 = true) := by
  refine ⟨?_, ?_, ?_, ?_, ?_, ?_, ?_⟩ <;> decide

/-- Two streams of isle 0, each of which waits for room that the other gives; stream 0 has a delivered block. -/
abbrev cycling (delivered : List Block) : Dev :=
  { arbs := [(0, { semMap := [(0, 1), (1, 2)], cycles := [{ set := [0, 1], jobs := [0], stuck := some 0 }],
                   streams := [(0, strm 1 1 0 (2 ^ 40 + 256)), (1, strm 1 1 1 (2 ^ 40))] })],
    lagoons := if delivered = [] then [] else [(0, { pairs := [(0, { delivered := delivered })] })], jobs := [(0, { state := 2 })] }

theorem test_witness_StreamEscape :
    (let b : Block := { entries := 8 }
     let s : State := { time := { ns := 4000 }, dev := cycling [b] }
     let d := s.dev.trackCycles s.time 0
     (d.arb 0).escape = none ∧
       ((d.arb 0).cycles.filter fun x => decide (x.since + 4000 ≤ s.time.ns)).findSome? (fun x => d.victim 0 x.set) = some (0, b) ∧
       d.freeChunkAt 0 = some 0) ∧
    (let b : Block := { entries := 8 }
     let e : Escape := { block := b, accepted := 1 }
     let d := { withStream (strm 1 1) { delivered := [b], empty := 65534 } with
                  arbs := [(0, { semMap := [(0, 1)], streams := [(0, strm 1 1)], escape := some e })] }
     (d.arb 0).escape = some e ∧ e.block.entries / 8 ≤ e.accepted ∧ d.pairAt 0 ((d.arb 0).stream e.sid).d.pair = some (0, 0) ∧
       ((d.pair 0 0).delivered ++ (d.pair 0 0).acquired).any (fun b => decide (b.pos = e.block.pos)) = true ∧ (d.pair 0 0).empty.toNat < 65535) ∧
    (let s : State := { time := { ns := 100000000 }, dev := cycling [] }
     let d := s.dev.trackCycles s.time 0
     ((d.arb 0).cycles.find? fun x => x.stuck.any fun e => decide (e + 100000000 ≤ s.time.ns)) =
       some { set := [0, 1], jobs := [0], stuck := some 0, counted := true }) := by
  refine ⟨?_, ?_, ?_⟩ <;> decide +kernel

/-- A stream of isle 0 whose granule 0 waits for the lagoon, and lagoon 0 with a cache region of slot 0. -/
abbrev caching (l : Lagoon) : Dev :=
  { arbs := [(0, { semMap := [(0, 1)], streams := [(0, { strm 1 1 with inprog := [{ blk0 with cached := [0] }] })] })], lagoons := [(0, l)] }

abbrev cacheRegion : Map W64 := [(0, 3 * 2 ^ 12)]

theorem test_witness_LagoonCache :
    (let d := caching { regions := cacheRegion, cache := [(0, [{ line := 0, data := [7] }])] }
     let st := (d.arb 0).stream 0
     (st.inprog.findSome? fun y => (y.cached.find? fun x => granuleHa st.d (blockOf y.words) y.pass x / 256 = (0 : BitVec 32).toNat).map
         fun x => (y, x)) = some ({ blk0 with cached := [0] }, 0) ∧
       (d.lag 0).cacheSet st.slot 0 = some 0 ∧
       (mget [] (d.lag 0).cache 0).find? (fun x => x.line = 0) = some { line := 0, data := [7] }) ∧
    (let d := caching { regions := cacheRegion, fills := [(0, 1, 0, 0)] }
     (d.lag 0).cacheSet ((d.arb 0).stream 0).slot 0 = some 0 ∧ (mget [] (d.lag 0).cache 0).find? (fun x => x.line = 0) = none ∧
       ∃ f ∈ (d.lag 0).fills, f.1 = 0) ∧
    (let d := caching { regions := cacheRegion }
     (d.lag 0).cacheSet ((d.arb 0).stream 0).slot 0 = some 0 ∧ (mget [] (d.lag 0).cache 0).find? (fun x => x.line = 0) = none ∧
       ∀ f ∈ (d.lag 0).fills, f.1 ≠ 0) ∧
    (let d := caching { regions := cacheRegion, fills := [(0, 0, 0, 0)], fillData := [(0, [7])] }
     (d.lag 0).fillData.find? (fun e => e.1 = (0 : BitVec 32).toNat) = some (0, [7]) ∧
       ((d.lag 0).fills.filter fun f => decide (f.1 = 0)).head? = some (0, 0, 0, 0) ∧ (d.lag 0).cacheSet ((d.arb 0).stream 0).slot 0 = some 0) := by
  refine ⟨?_, ?_, ?_, ?_⟩ <;> decide


/-! ### Plans, drains and epochs: chapter 09 -/

abbrev zs (n : Nat) : List Byte := List.replicate n 0

/-- An entry of a section table. -/
abbrev psec (ty off len : Nat) : List Byte := le 2 ty ++ (zs 6 ++ (le 8 off ++ (le 8 len ++ zs 8)))

/-- An image with one section, of a type, at offset 160. -/
abbrev imgOf (ty : Nat) (b : List Byte) : List Byte := [zs 26, [1, 0], zs 100, psec ty 160 b.length, b].flatten

/-- A plan with two reporters of stage 0, sites (0, 0) and (1, 0). -/
abbrev reporting : Plan := { image := imgOf 0xB [[1], zs 31, [1, 0, 1], zs 29].flatten }

/-- Job 0 in the middle of a plan fetch, with its slot and a host whose link is up. -/
abbrev fetching (b : Job := { state := 1, staged := 384 }) : Dev :=
  { dict := [(objKey 0x4000 1, [0])], jobs := [(0, b)], pu := { pcie0 := true } }

theorem test_witness_PlanFetch :
    (let d := { fetching with dict := (objKey 0x4000 0x1A, [1]) :: fetching.dict }
     (d.job 0).state = 1 ∧ (d.job 0).staged ≠ 0 ∧ d.pcie (d.objN 0x4000 0x1B) = true ∧
       ¬ (fieldAt (d.obj 0x4000 0x1A) 0 1 ≠ 1 ∨ false = true)) ∧
    (let d := { fetching with dict := (objKey 0x4000 0x1A, [1]) :: fetching.dict }
     (fieldAt (d.obj 0x4000 0x1A) 0 1 ≠ 1 ∨ true = true) ∧ d.checkPlan 0 [] true = .reject 0x1002 (0, 0)) ∧
    (∀ n ∈ [1, 5], let d := { fetching { state := n, plan := some {}, reefs := [2], mapGen := 1 } with
       health := { reefGen := [(2, 2)] }, groups := [(0, { running := some 1 })], dict := [(objKey 0x4000 0xC, [0]), (objKey 0x4000 3, [1])] }
     (d.job 0).state = n ∧ (d.job 0).placing = true ∧ (∃ r ∈ (d.job 0).reefs, (d.job 0).mapGen < mget 0 d.health.reefGen r) ∧
       (n = 5 → d.groupOf 0 = some 0)) := by
  refine ⟨?_, ?_, ?_⟩ <;> decide

/-- Two reporters of one stage; one of them has reported. -/
theorem test_witness_TidePoints :
    (let tr : Transit := { flit := { hdr := mkHdr 0 0x61 10 0 0 0 0 0 }, src := .site 1 }
     let d := withFlit (pcNode 0) .n .first tr { jobs := [(0, { state := 2, reefs := [0], plan := some reporting })] }
     d.arrived (pcNode 0) .n .first = some tr ∧ tr.src = .site (1 : SiteId) ∧ tr.bad = false ∧ d.jobOfSite 1 = some 0 ∧
       d.jobStopped 0 = false ∧ tr.flit.epoch = d.ctrN 0x4000 0x13 ∧ tr.flit.kind = 0 ∧ tr.flit.queue = 0 ∧
       (d.job 0).plan.any (fun q => (q.reporters (payWord tr.flit.payload 0 % 256)).contains 1) = true) ∧
    (let d : Dev := { jobs := [(0, { state := 3, reefs := [0], plan := some reporting, reports := [(0, 1), (1, 2)] })] }
     (d.job 0).plan = some reporting ∧ reporting.reporters 0 ≠ [] ∧ ((d.job 0).state = 2 ∨ (d.job 0).state = 3) ∧ (d.job 0).stopping = false ∧
       (reporting.reporters 0).all (fun r => mget 0 (d.job 0).reports r ≠ 0) = true) ∧
    reporting.reporters 1 = [] := by
  refine ⟨?_, ?_, ?_⟩ <;> decide +kernel

/-- R154, R182, R183 at perimeter control: an answer, a token of no site, one of a site without a job, and a running job's of its epoch and
of another, sound and damaged, and a stopped job's. -/
theorem test_witness_TideGates :
    (let f (epoch : Nat) : Flit := { hdr := mkHdr 0 0x61 10 0 epoch 0 0 0 }
     let at_ (tr : Transit) (jobs : Map Job) : Dev := withFlit (pcNode 0) .n .first { tr with flit := f 0 } { jobs := jobs }
     let b : Job := { state := 2, reefs := [0], plan := some reporting }
     (∀ tr ∈ ([{ answer := true }, { src := pcNode 1 }, { src := .site 1 }, { src := .site 1, bad := true }] : List Transit),
       (at_ tr [(0, b)]).arrived (pcNode 0) .n .first = some { tr with flit := f 0 }) ∧
     (at_ { src := .site 1 } []).jobOfSite 1 = none ∧
     (let d := at_ { src := .site 1 } [(0, { b with stopping := true })]
      d.jobOfSite 1 = some 0 ∧ d.jobStopped 0 = true) ∧
     (let d := at_ { src := .site 1 } [(0, b)]
      d.jobOfSite 1 = some 0 ∧ d.jobStopped 0 = false ∧ d.jobForced 0 = false ∧ (f 1).epoch ≠ d.ctrN 0x4000 0x13 ∧
        (f 0).epoch = d.ctrN 0x4000 0x13 ∧ (d.job 0).plan.any (fun q => (q.reporters 1).contains 1) = false)) := by
  decide +kernel

/-- Job 0 drains; it has no unit left to report. -/
abbrev draining (b : Job) : Dev := { jobs := [(0, { b with state := 3, plan := some {}, drainAt := some 0 })] }

theorem test_witness_DrainsEnd :
    (∀ b ∈ [({ stopWait := some 0x1020 } : Job), { atTide := 2 }, { atTide := 3 }, {}, { atTide := 4 }], let d := draining b
     (d.job 0).state = 3 ∧ (d.job 0).drainAt.isSome = true ∧ (d.job 0).stopping = false ∧ d.isDrained 0 = true) ∧
    (draining { atTide := 4, drainLeft := 1, reefs := [0] }).isDrained 0 = true ∧
    (let d := draining { stopWait := some 0x1020 }
     let d1 := d.flushJob 0
     ((d1.setJob 0 { d1.job 0 with drainAt := none, atTide := 0 }).endStop {} 0).groupOf 0 = none) ∧
    (let s : State := { time := { elapsed := 2 ^ 40 }, dev := draining {} }
     (s.dev.job 0).drainAt = some 0 ∧ (s.dev.job 0).state = 3 ∧ 0 + (s.dev.job 0).drainLimit ≤ s.time.elapsed ∧
       (s.dev.job 0).stopWait = none) ∧
    (∀ e ∈ [none, some 5], let s : State := { time := { elapsed := 10 }, dev := { jobs := [(0, { quietAt := some 0, emptyAt := e, quietFor := 5, stopping := true })] } }
     (s.dev.job 0).quietAt.isSome = true ∧ (s.dev.job 0).stopping = true ∧ s.dev.networkHolds 0 = false ∧
       (s.dev.job 0).emptyAt = e ∧ (∀ n, e = some n → n + (s.dev.job 0).quietFor ≤ s.time.elapsed) ∧ s.dev.groups = []) ∧
    (let d := withFlit (siteNode 0) .w .first { flit := far.flit, src := .site 0 } { jobs := [(0, { quietAt := some 0, stopping := true, reefs := [0] })] }
     (d.job 0).quietAt.isSome = true ∧ (d.job 0).stopping = true ∧ d.networkHolds 0 = true) := by
  refine ⟨?_, ?_, ?_, ?_, ?_, ?_⟩ <;> decide

/-- Job 0 and job 1, temporal members of group 0. -/
abbrev group01 (b : Job) : Dev :=
  { dict := [(objKey 0x4000 3, [1]), (objKey 0x4000 0xC, [0])], jobs := [(0, b)], groups := [(0, { running := some 0, next := some 1 })] }

theorem test_witness_EpochTransition :
    (let d : Dev := { jobs := [(0, { plan := some {}, trans := 1 })] }
     (d.job 0).plan = some {} ∧ (d.job 0).trans = 1) ∧
    (let d : Dev := { jobs := [(0, { plan := some {}, trans := 2, reefs := [0, 1] })] }
     (d.job 0).plan = some {} ∧ (d.job 0).trans = 2 ∧ d.transitionReady 0 = true ∧ (d.job 0).memNext = none) ∧
    (let d : Dev := { jobs := [(0, { plan := some {}, trans := 2, saved := true })] }
     (d.job 0).trans = 2 ∧ d.transitionReady 0 = true ∧ (d.job 0).saved = true ∧ d.restoreSaves {} 0 {} [] = (true, d)) ∧
    (let d : Dev := { jobs := [(0, { plan := some {}, trans := 2, clearing := [7] })] }
     (d.job 0).trans = 2 ∧ d.transitionReady 0 = false ∧
       (d.jobs.find? fun e => e.2.clearing.contains 7) = some (0, { plan := some {}, trans := 2, clearing := [7] })) ∧
    (let d := group01 { state := 3, plan := some {}, atTide := 3 }
     (d.job 0).plan = some {} ∧ d.groupOf 0 = some 0 ∧ (d.job 0).state = 3 ∧ (d.job 0).drainAt = none ∧ (d.job 0).atTide = 3 ∧
       (d.job 0).stopping = false ∧ (d.job 0).drainSpill = none ∧ (d.group 0).next = some 1 ∧ (1 : Nat) ≠ 0) := by
  refine ⟨?_, ?_, ?_, ?_, ?_⟩ <;> decide

/-- Guard 7 of one dimension, at most 16, which is split or not. -/
abbrev guarding (split : Byte) : Plan :=
  { image := imgOf 8 [[1, 0, 0, 0, 1], zs 11, [7, 0, split, 1, 0, 1, 0, 0, 16], zs 23, [0, 0, 128, 0, 0, 0, 0, 0]].flatten }

abbrev guardJob (split : Byte) (extent : Nat) : Dev := { jobs := [(0, { state := 2, plan := some (guarding split), guardQ := [[(7, [extent])]] })] }

/-- R305, the iteration of extent 33 at a guard of 16: three chunks where the guard splits, refused where it does not; extent 16 fits. -/
theorem test_witness_GuardIterations :
    (let d := guardJob 1 33
     (d.job 0).guardQ = [(7, [33])] :: [] ∧ (d.job 0).plan = some (guarding 1) ∧ (d.job 0).state = 2 ∧ d.guardsReady (guarding 1) = true) ∧
    (match guardEval (guardRecs (guarding 1).image) [(7, [33])] with | .ok r => some r | .error _ => none) = some (3, [7]) ∧
    (match guardEval (guardRecs (guarding 0).image) [(7, [16])] with | .ok r => some r | .error _ => none) = some (1, []) ∧
    (match guardEval (guardRecs (guarding 0).image) [(7, [33])] with | .ok _ => none | .error r => some r) = some (7, 0) ∧
    (guardJob 0 33).guardsReady (guarding 0) = true := by
  refine ⟨?_, ?_, ?_, ?_, ?_⟩ <;> decide +kernel

/-- R34: a job whose isle holds, and one whose does not. -/
theorem test_witness_GuardHolds :
    (guardJob 1 33).jobHolds 0 = false ∧
    ({ jobs := [(0, { state := 2, reefs := [0] })], isles := [(0, { heldPower := true, holdPower := true })] } : Dev).jobHolds 0 = true := by
  decide +kernel


/-! ### Causeway: chapter 11 -/

/-- `Dev.AtCauseway` as a test. -/
def atCausewayB (d : Dev) (i : Nat) (p : Port) (c : Cls) (f : Flit) (j : Nat) : Bool :=
  (d.arrived (cwNode i) p c).any fun tr => decide (tr.flit = f) && decide (tr.bad = false) && decide ((d.cw i).job = some j) &&
    decide (d.jobStopped j = false) && decide (f.epoch = (d.cw i).epoch.toNat) && decide ((cwRecOf (d.cw i).record).role f.queue ≠ 0) &&
    decide (f.kind = 0 ∧ f.hi4 = 15 ∨ f.kind = 4)

theorem atCauseway_iff (d : Dev) (i : Nat) (p : Port) (c : Cls) (f : Flit) (j : Nat) :
    d.AtCauseway i p c f j ↔ atCausewayB d i p c f j = true := by
  simp only [Dev.AtCauseway, atCausewayB, Option.any_eq_true, Bool.and_eq_true, decide_eq_true_eq, and_assoc]

/-- A record with a reducer and a matcher: V 16, K 4, two rows of a key, one ring slot; queue 0 brings teacher logits, queue 1 student logits. -/
abbrev cwImg : List Byte :=
  [[0, 3, 0, 0], le 4 16, [4, 0, 2, 0], le 4 0x3F800000, le 4 0x3F800000, le 4 0x3F800000, le 4 0x3F800000, [0, 1, 1], zs 81,
    [1], zs 11, [16], zs 3, [2], zs 11, [16], zs 1011].flatten

/-- A causeway of isle 0 for job 0 with a flit at its stop. -/
abbrev atCw (queue low : Nat) (u : Causeway := {}) (pay : W256 := 0) : Dev :=
  withFlit (cwNode 0) .cw .first { flit := { hdr := mkHdr 0 0x61 6 queue 0 0 0 low, payload := pay } }
    { cause := [(0, { u with record := cwImg, job := some 0 })] }
abbrev cwFlit (queue : Nat) (pay : W256 := 0) : Flit := { hdr := mkHdr 0 0x61 6 queue 0 0 0 (dataLow 15 0), payload := pay }
abbrev onCw (queue : Nat) (u : Causeway := {}) (pay : W256 := 0) : Dev := atCw queue (dataLow 15 0) u pay

/-- The first half of the record of row 0, and one of another row. -/
abbrev recHead (row : Nat) : W256 := bytesPay (le 4 row ++ [4, 0, 0, 0] ++ le 8 0 ++ le 4 16)

theorem test_witness_CausewayInputs :
    (let d := onCw 0 { key0 := some 5, queues := [(0, { seen := true, key := 5, begun := 1 })] }
     let c := cwRecOf (d.cw 0).record
     d.AtCauseway 0 .cw .first (cwFlit 0) 0 ∧ (d.cw 0).keyStep c 0 ((cwFlit 0).tag / 2 ^ c.shift (c.role 0)) = none) ∧
    (let d := onCw 0
     let c := cwRecOf (d.cw 0).record
     let v := (d.cw 0).beginKey c 0 0 0
     d.AtCauseway 0 .cw .first (cwFlit 0) 0 ∧ (d.cw 0).keyStep c 0 ((cwFlit 0).tag / 2 ^ c.shift (c.role 0)) = some (0, true) ∧
       (cwFlit 0).kind = 0 ∧ v.rolesDiffer c = false ∧ v.emptyClash c 0 = false ∧ c.role 0 = 1 ∧ c.matcher = true ∧ 0 - (d.cw 0).nM < c.slots ∧
       v.slotFor c (c.role 0) 0 (v.q 0).row = some 0) ∧
    (let d := onCw 1
     let c := cwRecOf (d.cw 0).record
     let v := (d.cw 0).beginKey c 1 0 0
     d.AtCauseway 0 .cw .first (cwFlit 1) 0 ∧ c.role 1 = 2 ∧ v.slotFor c (c.role 1) 0 (v.q 1).row = some 0) ∧
    (let d := onCw 62 {} 0xFFFFFFFF0000000F
     let f := cwFlit 62 0xFFFFFFFF0000000F
     let c := cwRecOf (d.cw 0).record
     let v := (d.cw 0).beginKey c 62 0 0
     let labels := ((List.range 8).map fun k => (8 * (v.q 62).tok + k, (f.payload.extractLsb' (32 * k) 32).toNat)).filter fun e => decide (e.1 < c.r)
     d.AtCauseway 0 .cw .first f 0 ∧ (d.cw 0).keyStep c 62 (f.tag / 2 ^ c.shS) = some (0, true) ∧ f.kind = 0 ∧ v.rolesDiffer c = false ∧
       v.emptyClash c 0 = false ∧ (∀ e ∈ labels, e.2 < c.v ∨ e.2 = 0xFFFFFFFF) ∧ labels = [(0, 15), (1, 0xFFFFFFFF)]) ∧
    (let d := onCw 63
     let c := cwRecOf (d.cw 0).record
     let v := (d.cw 0).beginKey c 63 0 0
     let b := v.partialRec ++ payBytes (cwFlit 63).payload
     d.AtCauseway 0 .cw .first (cwFlit 63) 0 ∧ (d.cw 0).keyStep c 63 ((cwFlit 63).tag / 2 ^ c.shT) = some (0, true) ∧ v.rolesDiffer c = false ∧
       0 - (d.cw 0).nM < c.slots ∧ bit (fieldAt b 6 2) 1 = false ∧ b.length < c.recBytes) ∧
    (∀ row < 2, let half : Causeway := { key0 := some 0, nR := 1, queues := [(63, { seen := true, begun := 1 })], partialRec := payBytes (recHead row) }
     let d := onCw 63 half
     let u := d.cw 0
     let c := cwRecOf u.record
     let b := u.partialRec ++ payBytes (cwFlit 63).payload
     let w : Causeway := { u.setQ 63 { u.q 63 with row := (u.q 63).row + 1, empty := false } with partialRec := [] }
     d.AtCauseway 0 .cw .first (cwFlit 63) 0 ∧ u.keyStep c 63 ((cwFlit 63).tag / 2 ^ c.shT) = some (0, false) ∧ u.rolesDiffer c = false ∧
       0 - u.nM < c.slots ∧ bit (fieldAt b 6 2) 1 = false ∧ c.recBytes ≤ b.length ∧ c.recordOk b (u.q 63).row = (row == 0) ∧
       w.emptyClash c 0 = false) := by
  simp only [atCauseway_iff]
  refine ⟨?_, ?_, ?_, ?_, ?_, ?_⟩ <;> decide +kernel

/-- A whole teacher row whose logits are zero; a whole student row with its label, its record and room to send. -/
abbrev reducing : Dev := { cause := [(0, { record := cwImg, job := some 0, slots := [(0, { role := 1, got := 1 })] })] }
abbrev matching (label : Nat) : Dev :=
  { cause := [(0, { record := cwImg, job := some 0, slots := [(0, { role := 2, got := 1 })], written := [(0, 1)], labels := [(0, label + 1)] })] }

theorem test_witness_CausewayRows :
    (let d := reducing
     let u := d.cw 0
     let c := cwRecOf u.record
     let g := mget {} u.slots 0
     u.job = some 0 ∧ g.role = 1 ∧ c.v / 16 ≤ g.got ∧ g.key = u.nextKey ∧ g.row = u.nextRow ∧ d.jobStopped 0 = false ∧
       d.recordReady 0 0 c = true ∧ (reduceRow c g.row (g.row16 c.v)).2 = false) ∧
    (let c := cwRecOf cwImg
     c.k ≤ (List.replicate 16 (0 : W16)).length ∧ c.k < 2 ^ 16 ∧ c.v < 2 ^ 32) ∧
    (∀ y ∈ [15, 0xFFFFFFFF], let d := matching y
     let u := d.cw 0
     let g := mget {} u.slots 0
     d.matchReady 0 0 = true ∧ g.row + 1 < (cwRecOf u.record).r ∧ mget 0 u.labels (g.key * 16384 + g.row) - 1 = y) := by
  refine ⟨?_, ?_, ?_⟩ <;> decide +kernel

/-- A causeway whose queue carries an empty token (KIND 4). -/
abbrev emptyFlit (queue : Nat) : Flit := { hdr := mkHdr 0 0x61 6 queue 0 0 4 0 }
abbrev emptyAt (queue : Nat) (u : Causeway) : Dev :=
  withFlit (cwNode 0) .cw .first { flit := emptyFlit queue } { cause := [(0, { u with record := cwImg, job := some 0 })] }

/-- R350, R351, R356, the other ends of a token at a causeway: an empty token that begins a key, and one of a key that has begun, or whose
key another queue brings data of; keys that differ; a full ring and no staging slot; a label out of range; an empty record. -/
theorem test_witness_CausewayEnds :
    (∀ q ∈ [0, 62, 63], let d := emptyAt q {}
     let u := d.cw 0
     let c := cwRecOf u.record
     let u1 := u.beginKey c q 0 0
     d.AtCauseway 0 .cw .first (emptyFlit q) 0 ∧ u.keyStep c q ((emptyFlit q).tag / 2 ^ c.shift (c.role q)) = some (0, true) ∧
       (emptyFlit q).kind = 4 ∧ u1.rolesDiffer c = false ∧
       (({ u1.setQ q { u1.q q with empty := true } with partialRec := [] } : Causeway).addEmpty 0 (if q = 0 then 1 else if q = 62 then 2 else 3)
         q).emptyClash c 0 = false) ∧
    (∀ u ∈ ([{ queues := [(1, { seen := true, begun := 1 })] }] : List Causeway), let c := cwRecOf cwImg
     ((u.beginKey c 0 0 0).addEmpty 0 1 0).emptyClash c 0 = true) ∧
    (let u : Causeway := { queues := [(0, { seen := true, begun := 1 })], key0 := some 0 }
     u.keyStep (cwRecOf cwImg) 0 0 = some (0, false)) ∧
    (let u : Causeway := { skey0 := some 5, nR := 1, slots := (List.range 2).map fun k => (k, { role := 1, key := 9 }) }
     let c := cwRecOf cwImg
     (u.beginKey c 0 0 0).rolesDiffer c = true ∧ u.slotFor c 1 0 0 = none ∧ c.slots ≤ 1 - u.nM) ∧
    (let d := onCw 62 {} 16
     let f := cwFlit 62 16
     let c := cwRecOf (d.cw 0).record
     let labels := ((List.range 8).map fun k => (8 * (((d.cw 0).beginKey c 62 0 0).q 62).tok + k, (f.payload.extractLsb' (32 * k) 32).toNat)).filter
       fun e => decide (e.1 < c.r)
     d.AtCauseway 0 .cw .first f 0 ∧ ∃ e ∈ labels, c.v ≤ e.2 ∧ e.2 ≠ 0xFFFFFFFF) ∧
    bit (fieldAt (payBytes (bytesPay ([0, 0, 0, 0, 4, 0, 2, 0] ++ le 8 0 ++ le 4 16))) 6 2) 1 = true := by
  simp only [atCauseway_iff]
  refine ⟨?_, ?_, ?_, ?_, ?_, ?_⟩ <;> decide +kernel

/-- R353, R355: a teacher row with a NaN, the first and a further one of the unit. -/
theorem test_witness_CausewayNan :
    (let c := cwRecOf cwImg
     (reduceRow c 0 (List.replicate 16 0x7FC0)).2 = true) ∧
    (let d := reducing
     (cwRecOf (d.cw 0).record).reducer = true ∧ d.matchReady 0 0 = false ∧ (d.cw 0).job.any d.jobStopped = false) := by
  refine ⟨?_, ?_⟩ <;> decide +kernel


/-! ### Serving: chapter 12 -/

/-- A serving section: 4 requests of at most 64 tokens, V 16, a budget of 8 rows, two steps in flight, one mask engine on isle 0 with one queue, 4 page
sets, one bitmap mask. -/
abbrev srvPlan : Plan :=
  { image := imgOf 0xD [le 4 4, le 4 64, le 4 16, [8, 0, 16, 0, 2, 1, 1, 1, 4, 0, 0, 0, 7, 0, 4, 0, 4], zs 59, [0, 1], zs 38, zs 16, [1], zs 7].flatten }

/-- The section as the model reads it. -/
abbrev srvR : SrvRec :=
  { maxReq := 4, maxCtx := 64, v := 16, budget := 8, pchunk := 16, inflight := 2, kvg := 1, nme := 1, nsets := 4, guard := 7, idxLog2 := 4, nnodes := 4,
    addrs := [0, 0, 0, 0, 0, 0, 0], engines := [(0, 1)], pools := [0], masks := [(0, 1, 0)] }

/-- Job 0 with that plan. -/
abbrev srvJob (v : Serving) : Job := { state := 2, plan := some srvPlan, srv := v }

/-- A device in OP whose ring 0 is a ring of a type of job 0 with an entry to take. -/
abbrev ringed (ty : Byte) (b : Job) : Dev :=
  { dict := [(objKey 0x2710 1, [ty]), (objKey 0x2710 5, [0])], jobs := [(0, b)], rings := [(0, { enabled := true, host := 1 })],
    pu := { state := .op, pcie0 := true, pcie1 := true } }

/-- An operation of session 3 on request 1: a submission of one token, at most two new ones, or a cancellation; and the submission's buffer. -/
abbrev desc (op : Byte) : List Byte := [[op, 0, 3, 0, 1], zs 11, [100, 0, 0, 0, 2], zs 43].flatten
abbrev promptBuf : List Byte := [zs 12, [1], zs 3, zs 16, le 4 0x3F800000, zs 44, [5], zs 19].flatten

theorem test_witness_ServingAdmission :
    (∃ d1, (ringed 4 (srvJob {})).takeEntry (0 : RingId).val 4 = some d1) ∧
    (let d := ringed 4 (srvJob {})
     d.pu.state = .op ∧ d.pu.toSafeop = false ∧ d.refusalOf (d.objN 0x2710 5) (desc 1) promptBuf true = some 0x6010 ∧
       d.refusalOf (d.objN 0x2710 5) (desc 2) [] true = some 0x6010) ∧
    (let d := ringed 4 (srvJob { sessions := [(3, some {})], reqs := [(1, { state := .decode, session := 3 })] })
     d.refusalOf (d.objN 0x2710 5) (desc 2) [] true = none ∧ bits (fieldAt (desc 2) 0 1) 3 0 = 2) ∧
    (let d := ringed 4 (srvJob { sessions := [(3, some {})] })
     d.refusalOf (d.objN 0x2710 5) (desc 1) promptBuf true = none ∧ bits (fieldAt (desc 1) 0 1) 3 0 = 1 ∧
       d.refusalOf (d.objN 0x2710 5) (desc 1) promptBuf false = some 0x6011) ∧
    (let d : Dev := { jobs := [(0, srvJob { reqs := [(0, { state := .queued, order := 5 }), (1, { state := .queued, order := 4 })] })] }
     let v := (d.job 0).srv
     (d.readAll {} 0 [] (v.walkReads srvR 1 (v.req 1).tokens 0 0 (((v.req 1).plen - 1) / 16))).1 = true ∧
     d.srvOf 0 = some srvR ∧ (v.req 1).state = .queued ∧ v.reqs.any (fun e => decide (e.2.state = .queued ∧ e.2.order < (v.req 1).order)) = false) := by
  refine ⟨⟨_, rfl⟩, ?_, ?_, ?_, ?_⟩ <;> decide +kernel

/-- A prefill of two tokens and a decode wait for a step. -/
abbrev forming : Dev :=
  { jobs := [(0, srvJob { reqs := [(0, { state := .decode, tokens := [5, 6, 7], kv := 2, order := 1 }),
                                   (1, { state := .prefill, tokens := [8, 9], plen := 2, order := 2 })] })], pu := { state := .op } }

/-- The mask engine of isle 0, with a flit for its queue 0. -/
abbrev atMask (u : MaskEngine) : Dev :=
  withFlit (maskNode 0) .cw .first { flit := { hdr := mkHdr 0 0x61 7 0 0 4 0 (dataLow 15 0) } }
    { jobs := [(0, srvJob {})], masks := [(0, { u with job := some 0 })] }

/-- A step in flight with sample rows of request 1 on engine 0. -/
abbrev sampling (rows : List BatchRow) (u : MaskEngine) : Dev :=
  { jobs := [(0, srvJob { steps := [{ rows := rows, results := [{ req := 1 }] }], reqs := [(1, { state := .decode, params := zs 64 })] })],
    masks := [(0, { u with job := some 0, slots := [(0, { role := 1, got := 1 })] })] }
abbrev sampled (num : Nat) : BatchRow := { req := 1, sample := true, num := num }

theorem test_witness_ServingSteps :
    (let d := forming
     let b := d.job 0
     let r := srvR
     let on : Bool := srvPlan.flag 0 && decide (d.objN 0x2900 0x20 = 1)
     let dec := b.srv.ranked fun q => decide (q.state = .decode) && !q.inFlight && !q.paused
     let pre := b.srv.ranked fun q => decide (q.state = .prefill) && !q.inFlight
     let f := pre.foldl (fun f n => f.prefill r n) (dec.foldl (fun f n => f.decode r on n) ({ v := b.srv, left := r.budget } : Forming))
     b.plan = some srvPlan ∧ d.srvOf 0 = some r ∧ d.mayDispatch 0 = true ∧ d.nv.backlog = false ∧ b.srv.steps.length < r.inflight ∧
       d.guardsReady srvPlan = true ∧ f.rows ≠ []) ∧
    (let d := atMask {}
     let u := d.mask 0
     let tr : Transit := { flit := { hdr := mkHdr 0 0x61 7 0 0 4 0 (dataLow 15 0) } }
     let f := tr.flit
     d.arrived (maskNode 0) .cw .first = some tr ∧ tr.bad = false ∧ u.job = some 0 ∧ d.jobStopped 0 = false ∧ f.epoch = d.ctrN 0x4000 0x13 ∧
       d.engineAt 0 0 = some (0, 1, srvR) ∧ f.queue < 1 ∧ f.kind = 0 ∧ f.hi4 = 15 ∧
       (((List.range 4).find? fun k => let x := mget ({} : Staging) u.slots k
                                       decide (x.role = 1) && decide (x.row = mget 0 u.queueRow f.queue)).orElse fun _ =>
         (List.range 4).find? fun k => decide ((mget ({} : Staging) u.slots k).role = 0)) = some 0) ∧
    (let d := sampling [sampled 0] {}
     let u := d.mask 0
     let g := mget ({} : Staging) u.slots 0
     let v := (d.job 0).srv
     let rows := (v.steps.getD 0 {}).rows
     let q := v.req 1
     u.job = some 0 ∧ g.role ≠ 0 ∧ g.row ∉ u.masks ∧ d.jobStopped 0 = false ∧ d.engineAt 0 0 = some (0, 1, srvR) ∧
       v.sampleRow 0 g.row = some (0, 0) ∧ (rows.getD 0 {}).req = 1 ∧
       (d.readAll {} 0 [] ((d.maskParts 0 srvR q (d.rowState 0 srvR q rows 1 0)).1.map fun x => (0, x))).1 = true) := by
  refine ⟨?_, ?_, ?_⟩ <;> decide +kernel

theorem test_witness_ServingResults :
    (∀ rows ∈ [[sampled 0], [sampled 0, sampled 1]], let d := sampling rows { masks := [0] }
     let u := d.mask 0
     let g := mget ({} : Staging) u.slots 0
     let v := (d.job 0).srv
     let st := v.steps.getD 0 {}
     u.job = some 0 ∧ d.engineAt 0 0 = some (0, 1, srvR) ∧ v.sampleRow 0 g.row = some (0, 0) ∧ g.role ≠ 0 ∧ srvR.v / 16 ≤ g.got ∧ g.row = 0 ∧
       g.row ∈ u.masks ∧ d.jobStopped 0 = false ∧
       ((listSet st.rows 0 { sampled 0 with done := true }).all fun z => z.done || !z.sample || decide (z.req ≠ 1)) = (rows.length == 1)) ∧
    (let st : BatchStep := { rows := [sampled 0], sampled := 1, tideAt := some 0 }
     let d : Dev := { jobs := [(0, srvJob { steps := [st] })] }
     (d.job 0).srv.steps = st :: [] ∧ d.srvOf 0 = some srvR ∧ st.complete = true ∧ (d.job 0).stopping = false ∧ 2 ≤ (d.job 0).state ∧
       (d.job 0).state ≤ 5) ∧
    (let d : Dev := { jobs := [(0, { srvJob { owed := [{ code := 0x6010 }] } with state := 5 })] }
     d.srvOf 0 = some srvR ∧ (d.job 0).srv.steps = [] ∧ (d.job 0).stopping = false ∧ 2 ≤ (d.job 0).state ∧ (d.job 0).state ≤ 5) := by
  refine ⟨?_, ?_, ?_⟩ <;> decide +kernel

/-- R385, R384: a logit token at an engine that no job holds, at one whose queue is out of range, and with all four slots taken; R374, no row
results. -/
theorem test_witness_ServingEnds :
    (let d := atMask {}
     ((d.engineAt 0 0).any fun x => decide (1 < x.2.1)) = false) ∧
    (let u : MaskEngine := { job := some 0, slots := (List.range 4).map fun k => (k, { role := 1, row := k + 1 }) }
     (((List.range 4).find? fun k => let x := mget ({} : Staging) u.slots k
                                     decide (x.role = 1) && decide (x.row = mget 0 u.queueRow 0)).orElse fun _ =>
       (List.range 4).find? fun k => decide ((mget ({} : Staging) u.slots k).role = 0)) = none) ∧
    (let d := { forming with jobs := [(0, srvJob {})] }
     let b := d.job 0
     let dec := b.srv.ranked fun q => decide (q.state = .decode) && !q.inFlight && !q.paused
     d.mayDispatch 0 = true ∧ (dec.foldl (fun f n => f.decode srvR false n) ({ v := b.srv, left := srvR.budget } : Forming)).rows = []) ∧
    (let d := sampling [sampled 0] { slots := [(0, { role := 1, row := 5 })] }
     (d.job 0).srv.sampleRow 0 5 = none) := by
  refine ⟨?_, ?_, ?_, ?_⟩ <;> decide +kernel

/-- R386: with `INVT` 0 the highest logit whose mask bit is set; the masked highest and a NaN are passed over; none where all is masked. -/
theorem test_witness_SampledToken :
    sampleToken [0x3F80, 0x7FC0, 0x4000, 0x4040] [true, true, true, false] (zs 64) 0 = some 2 ∧
    sampleToken [0x3F80, 0x7FC0, 0xFF80] [false, true, true] (zs 64) 0 = none ∧ fieldAt (zs 64) 8 4 = 0 := by decide +kernel


/-! ### Straits and collectives: chapter 13 -/

abbrev withLink (k : Link) (d : Dev := {}) : Dev := { d with links := [(0, k)] }
abbrev frame (fseq : BitVec 12) : StraitFrame := { txc := 9, fseq := fseq, ack := 0, nak := false, keysel := false, payload := [], credits := [] }

theorem test_witness_StraitLinks :
    (let d := withLink { state := .up, expect := 4095 }
     (d.lnk 0).state = .up ∧ (d.lnk 0).prbs = false ∧ (frame 0).fseq.toNat ≠ (d.lnk 0).expect ∧ (frame 4095).fseq.toNat = (d.lnk 0).expect ∧
       badWords [List.range 15] = 0 ∧ badWords [List.range 16] ≠ 0 ∧ fixedWords [[]] = []) ∧
    (∀ n ∈ [1, 2], let r : StraitRecord := { fjh := 7, fepoch := 0, tag := 3, kind := 0, rt := 1, ch := 0, phase := 2, wofs := 9, payloads := List.replicate n 5 }
     1 ≤ r.payloads.length ∧ r.payloads.length ≤ 256 ∧ r.rt ≠ 15 ∧ takeRecords 256 (recordBeats r) = ([r], [])) ∧
    (∀ n ∈ [6, 7], let d := withLink { state := .up, nakIn := true, naks := n }
     (d.lnk 0).nakIn = true ∧ (d.lnk 0).retraining = none ∧ (d.lnk 0).state = .up ∧ ((d.lnk 0).naks + 1 < 8 ↔ n = 6)) ∧
    (∀ n ∈ [1, 2], let d := withLink { state := .up, retraining := some 0, retrains := n }
     (d.lnk 0).retraining.isSome = true ∧ (3 ≤ (d.lnk 0).retrains + 1 ↔ n = 2)) ∧
    (∀ n ∈ [15, 8], let d := withLink { state := .up, spared := n }
     (d.lnk 0).state = .up ∧ ((d.lnk 0).spared = 15 ↔ n = 15) ∧ (d.lnk 0).spared ≠ (3 : Fin 9).val) ∧
    (let d := withLink { state := .up, txc := 2 ^ 40 }
     (d.lnk 0).state = .up ∧ (d.lnk 0).rekeyAt ≤ (d.lnk 0).txc) ∧
    (let d := withLink { state := .securing }
     (d.lnk 0).state ≠ .up ∧ (d.lnk 0).prbs = false ∧ 2 ≤ ([1, 2] : List (Fin 9)).length ∧ ([1] : List (Fin 9)).length ≤ 1) := by decide

/-- A plan with one peer, rank 1; channel 3 out from queue 5 of isle 0; buckets 0, a reduce-scatter, and 1, a permute. -/
abbrev collPlan : Plan :=
  { image := imgOf 0xE [[1, 1, 0, 0, 2], zs 27, [0, 0, 1], zs 5, [0, 5, 0, 3], zs 12, [0, 0, 2, 1, 0, 48], zs 18, [4], zs 19, [128], zs 19,
      [1, 0, 4, 0, 0, 49], zs 18, [2], zs 39].flatten }

/-- The plan's section as the model reads it. -/
abbrev bucket0 : BucketRec :=
  { bucket := 0, op := 2, alg := 1, isle := 0, cmdq := 48, agfmt := 0, bkpok := false, src := 0, dst := 0, len := 4, croute := 0, stage := 0, stageLen := 128 }
abbrev bucket1 : BucketRec := { bucket0 with bucket := 1, op := 4, alg := 0, cmdq := 49, len := 2, stageLen := 0 }
abbrev collR : CollRec := { peers := [(0, 1)], outs := [{ isle := 0, queue := 5, peer := 0, ch := 3 }], ins := [], buckets := [bucket0, bucket1] }

theorem test_collectives_section : collRec collPlan.image = some collR := by decide +kernel

/-- This device has rank 0, another rank 1. -/
abbrev ownMember : Member := { id := Config.deviceId, plan := [], rank := 0, oldRank := 0, role := 0, backupOf := 0 }
abbrev pair01 : Membership := { fjh := 7, d := 2, members := [ownMember, { id := [1], plan := [], rank := 1, oldRank := 1, role := 0, backupOf := 0 }] }

/-- Job 0 in that membership, its strait link 0 up, with some instances and some flit at U0. -/
abbrev collDev (colls : Map (Option Instance)) (link : Link) : Dev :=
  { jobs := [(0, { state := 2, plan := some collPlan, mem := pair01 })], links := [(0, { link with state := .up, rail := 0, peer := [1] })],
    colls := colls }
abbrev u0Flit (queue : Nat) (pay : W256 := 0) : Flit := { hdr := mkHdr 0 0x61 4 queue 0 0 0 (dataLow 15 0), payload := pay }
abbrev atU0Dev (queue : Nat) (pay : W256) (colls : Map (Option Instance) := []) (link : Link := { credits := [(7 * 64 + 3, 1)] }) : Dev :=
  withFlit (u0Node 0) .cw .first { flit := u0Flit queue pay } (collDev colls link)

/-- `Dev.AtU0` without the job, as a test. -/
def atU0B (d : Dev) (i : Nat) (p : Port) (c : Cls) (f : Flit) (j : Nat) : Bool :=
  (d.arrived (u0Node i) p c).any fun tr => decide (tr.flit = f) && decide (tr.bad = false) && decide (d.jobStopped j = false) &&
    decide (f.epoch = d.ctrN (0x4000 + j) 0x13)

theorem atU0_iff (d : Dev) (i : Nat) (p : Port) (c : Cls) (f : Flit) (j : Nat) (pl : Plan) (cr : CollRec) :
    d.AtU0 i p c f j pl cr ↔ atU0B d i p c f j = true ∧ d.u0Job i f.queue = some (j, pl, cr) := by
  simp only [Dev.AtU0, atU0B, Option.any_eq_true, Bool.and_eq_true, decide_eq_true_eq]
  constructor
  · rintro ⟨tr, h1, h2, h3, h4, h5, h6⟩
    exact ⟨⟨tr, h1, ⟨⟨h2, h3⟩, h5⟩, h6⟩, h4⟩
  · rintro ⟨⟨tr, h1, ⟨⟨h2, h3⟩, h5⟩, h6⟩, h4⟩
    exact ⟨tr, h1, h2, h3, h4, h5, h6⟩

theorem test_witness_ChannelToken :
    (let d : Dev := { atU0Dev 5 0 with flows := [{ peer := [1], rt := 0, fjh := 7, ch := 3, die := 0, sel := 10, link := 0 }] }
     let r := channelRecord pair01 3 (u0Flit 5)
     d.AtU0 0 .cw .first (u0Flit 5) 0 collPlan collR ∧ (u0Flit 5).queue < 48 ∧ (u0Flit 5).kind = 0 ∧
       (collR.outs.find? fun x => decide (rotIsle collPlan.rho x.isle = 0 ∧ x.queue = (u0Flit 5).queue)) = some { isle := 0, queue := 5, peer := 0, ch := 3 } ∧
       (d.job 0).mem.own collPlan.meas = some ownMember ∧ (d.job 0).mem.d ≠ 0 ∧ ownMember.role ≠ 2 ∧
       ((collR.peers[0]?).bind fun e => (d.job 0).mem.idOf (peerRank (d.job 0).mem ownMember.at_ e)) = some [1] ∧
       d.flowLink 0 [1] r 0 (3 + (d.job 0).mem.fjh) = some (0, d) ∧ d.canLeave 0 0 r = true) := by
  simp only [atU0_iff]
  refine ⟨⟨?_, ?_⟩, ?_, ?_, ?_, ?_, ?_, ?_, ?_, ?_, ?_⟩ <;> first | decide +kernel | rfl | simp [Membership.own, Dev.job, mget]

/-- An instance of bucket 0 of job 0 that has started. -/
abbrev inst0 : Instance := { started := some 0 }
abbrev collFrame (phase : Byte) : StraitRecord :=
  { fjh := 7, fepoch := 0, tag := 0, kind := 0, rt := 1, ch := 0, phase := phase, wofs := 0, payloads := [0] }

theorem test_witness_CollectiveCommand :
    (∀ colls ∈ ([[], [(0, some {})]] : List (Map (Option Instance))), let d := atU0Dev 48 0 colls
     atU0B d 0 .cw .first (u0Flit 48) 0 = true ∧ d.u0Job 0 (u0Flit 48).queue = some (0, collPlan, collR) ∧ 48 ≤ (u0Flit 48).queue ∧
       (u0Flit 48).queue ≤ 61 ∧ (u0Flit 48).kind = 0 ∧ collPlan.bucket 0 = some bucket0 ∧ bucket0.op ≠ 4 ∧ (d.job 0).mem.d ≠ 0 ∧
       d.regionsOpen 0 bucket0 = true ∧ ownMember.role ≠ 2 ∧ d.startRoom 0 bucket0 (d.job 0).mem ownMember = true) ∧
    (let d := atU0Dev 48 0
     d.permuting 0 = false ∧ d.findInst 0 0 (u0Flit 48).tag = none ∧ d.freeInst 0 = some 0) ∧
    (let d := atU0Dev 48 0 [(0, some {})]
     d.permuting 0 = false ∧ d.findInst 0 0 (u0Flit 48).tag = some (0, {})) := by
  refine ⟨?_, ?_, ?_⟩ <;> decide +kernel

theorem test_witness_CollectiveRecord :
    (∀ x ∈ [inst0, {}], ∀ phase ∈ ([0, 15] : List Byte), let d := (collDev [(0, some x)] { held := [collFrame phase] }).settle {} 0
     let r := collFrame phase
     (d.lnk 0).held = [r] ∧ r.rt = 1 ∧ d.fate r = .equal 0 ∧ (d.job 0).plan = some collPlan ∧ (d.job 0).toPermute = [] ∧
       collPlan.bucket r.ch.toNat = some bucket0 ∧ d.regionsOpen 0 bucket0 = true ∧ d.instOf 0 bucket0 r = some (0, x) ∧
       (d.recordGone 0 0 r).stagePlace 0 bucket0 r.payloads.length = some 0) := by decide +kernel

/-- What the device finds of an instance. -/
abbrev eng (b : BucketRec) : Eng := { j := 0, isle := 0, p := collPlan, b := b, m := pair01, own := ownMember }

theorem eng_of (colls : Map (Option Instance)) (k : Link) (x : Instance) (b : BucketRec) (hj : x.job = 0) (hb : collPlan.bucket x.bucket = some b)
    (hi : rotIsle 0 b.isle = 0) : (collDev colls k).eng x = some (eng b) := by
  have hm : pair01.own collPlan.meas = some ownMember := by simp [Membership.own]
  have hp : ((collDev colls k).job 0).plan = some collPlan := by simp [Dev.job, mget]
  have hm2 : ((collDev colls k).job 0).mem = pair01 := by simp [Dev.job, mget]
  simp [Dev.eng, hj, hp, hm2, hb, hm, hi]

/-- A record of a started instance, and one that comes before: what the device finds, and that it can be taken. -/
theorem test_witness_CollectiveApply :
    (∀ x ∈ [inst0, {}], (collDev [(0, some x)] {}).eng x = some (eng bucket0)) ∧
    (collDev [(0, some inst0)] {}).canApply (eng bucket0) inst0 [1] (collFrame 0) = true := by
  refine ⟨fun x hx => ?_, by decide +kernel⟩
  simp only [List.mem_cons, List.not_mem_nil, or_false] at hx
  rcases hx with rfl | rfl <;> exact eng_of _ _ _ _ rfl (by decide +kernel) (by decide)

theorem test_witness_CollectiveEnds :
    (let x : Instance := { inst0 with copies := [{ rank := 1, backup := true, doneAt := some 0 }] }
     let d := collDev [(0, some x)] {}
     d.inst 0 = some x ∧ d.eng x = some (eng bucket0) ∧ (x.copy (1 : W16).toNat false).doneAt = none ∧
       (x.copy (1 : W16).toNat true).doneAt = some 0 ∧ 0 + x.wait * 1000 < 200001 ∧ (x.copy (1 : W16).toNat true).used = false) ∧
    (let x : Instance := { inst0 with written := 4 }
     let d := collDev [(0, some x)] {}
     d.inst 0 = some x ∧ d.eng x = some (eng bucket0) ∧ bucket0.op ≠ 4 ∧ x.complete (eng bucket0) = true ∧ x.awaits (eng bucket0) = false ∧
       d.canInject (u0Node 0) 0 = true) ∧
    (let x : Instance := { inst0 with written := 3 }
     let d := collDev [(0, some x)] {}
     d.inst 0 = some x ∧ d.eng x = some (eng bucket0) ∧ x.started = some 0 ∧ x.lacks (eng bucket0) = true ∧ 0 + x.limit * 1000000 ≤ 1000000000) ∧
    (∀ g ∈ ([[(0, 1)], []] : List (Map Nat)), let x : Instance := { inst0 with bucket := 1, got := g }
     let d := collDev [(0, some x)] {}
     let e := eng bucket1
     d.inst 0 = some x ∧ d.eng x = some e ∧ e.b.op = 4 ∧ e.own.role = 0 ∧ x.started.isSome = true ∧ d.permuted e x = (g.length == 1) ∧
       d.regionsOpen e.j e.b = true ∧ d.canInject (u0Node e.isle) 0 = true ∧ (d.job x.job).toPermute = [] ∧
       (d.unitsAt {} e e.b.stage x.permAt x.permLen).1 = some []) := by
  refine ⟨⟨?_, ?_, ?_⟩, ⟨?_, ?_, ?_⟩, ⟨?_, ?_, ?_⟩, fun g hg => ⟨?_, ?_, ?_⟩⟩ <;> (try simp only [List.mem_cons, List.not_mem_nil, or_false] at hg; rcases hg with rfl | rfl) <;>
    first | decide +kernel | exact eng_of _ _ _ _ rfl (by decide +kernel) (by decide)

/-- R422, R429: a command of a bucket that is not here, of the permute bucket, of an instance that has started and of one that is done; a record
of a bucket that the plan does not have, and one past its bucket's tag. -/
theorem test_witness_CollectiveTurnedAway :
    (collPlan.bucket 7 = none ∧ collPlan.bucket 1 = some bucket1 ∧ bucket1.op = 4) ∧
    (∀ x ∈ ([inst0, { done := true }] : List Instance), let d := atU0Dev 48 0 [(0, some x)]
     d.permuting 0 = false ∧ d.findInst 0 0 (u0Flit 48).tag = some (0, x) ∧ (x.done = true ∨ x.started.isSome = true)) ∧
    (let d : Dev := { jobs := [(0, { collTags := [(0, 6)] })] }
     (d.job 0).tagPassed bucket0.bucket 5 = true ∧ d.instOf 0 bucket0 { collFrame 0 with tag := 5 } = none) ∧
    (let d := withFlit (u0Node 0) .cw .first { flit := u0Flit 48 } { collDev [] {} with jobs := [(0, { state := 2, plan := some collPlan, mem := pair01, toPermute := [1] })] }
     d.permuting 0 = true) := by
  refine ⟨?_, ?_, ?_, ?_⟩ <;> decide +kernel


/-! ### Admission and accounting: chapter 14 -/

/-- DEADLINE mode; job 0 of slot 0, which may be admitted, declares units of some length, a period of 100 µs and a deadline of 50 µs. -/
abbrev declared (us : Nat) (b : Job) : Dev :=
  { dict := [(objKey 0x2600 1, [0]), (objKey 0x3000 5, [1]), (objKey 0x4000 1, [0]), (objKey 0x4000 5, le 4 us), (objKey 0x4000 7, le 4 100),
             (objKey 0x4000 8, le 4 50)],
    jobs := [(0, b)] }

theorem test_witness_Admission :
    ((declared 50 { state := 2, admitReq := true }).admFails 0 = none ∧ ((declared 50 { state := 2, admitReq := true }).job 0).admitReq = true ∧
      (declared 51 { state := 2, admitReq := true }).admFails 0 = some 4) ∧
    (let s : State := { time := { elapsed := 1000000000 }, dev := declared 51 { state := 2, admSt := 1, failSince := some 0 } }
     (s.dev.job 0).failSince = some 0 ∧ 0 + 1000000000 ≤ s.time.elapsed ∧ s.dev.capFails 0 = true ∧ (s.dev.job 0).admSt = 1) ∧
    (let s : State := { time := { ns := 200000 }, dev := declared 50 { state := 2, admSt := 1, units := 2, ingress := [{}] } }
     (s.dev.job 0).admSt = 1 ∧ (s.dev.job 0).released = none ∧ (s.dev.job 0).admitAt + (s.dev.job 0).units * s.dev.jobN 0 7 * 1000 ≤ s.time.ns ∧
       (s.dev.job 0).hasWork = true) := by
  refine ⟨?_, ?_, ?_⟩ <;> decide

/-- R450: a stamp at a window's start and one just before its end are in the window; its end is in the next; what is before its start is late. -/
theorem test_witness_AccountingWindows :
    (∀ x ∈ ([1000000000, 1999000000, 2000000000, 999000000] : List Nat),
      let w : Sched := { wStart := 1000000000, wEnd := 2000000000, transit := [{ stamp := x }] }
      w.transit[0]? = some { stamp := x } ∧ ((w.wStart ≤ x ∧ x < w.wEnd) ↔ x = 1000000000 ∨ x = 1999000000) ∧
        ((w.wStart ≤ x ∧ w.wEnd ≤ x) ↔ x = 2000000000) ∧ (x < w.wStart ↔ x = 999000000)) ∧
    (let s : State := { time := { elapsed := 2000 }, dev := { sched := { passed := some 0 } } }
     s.dev.sched.passed = some 0 ∧ 0 + 2000 ≤ s.time.elapsed) := by decide

/-- R451, R472: a set that arrives with the stamp of the window's end is kept for the next window; the seal of the window that ends at 1 s begins the next, and after a
step past its end the window of the present time. -/
theorem test_windows :
    (match exec (.sampleSetArrival 0) { dev := { sched := { transit := [{ stamp := 1000000000 }] } } } with
     | .next t => t.dev.sched.ahead.length | _ => 0) = 1 ∧
    (∀ ns ∈ ([1000002000, 5500000000] : List Nat),
      (match exec .windowSeal { time := { ns := ns, elapsed := 2000 }, dev := { sched := { passed := some 0 } } } with
       | .next t => (t.dev.sched.wStart, t.dev.sched.wEnd) | _ => (0, 0)) =
        if ns = 1000002000 then (1000000000, 2000000000) else (5000000000, 6000000000)) := by
  refine ⟨?_, ?_⟩ <;> decide +kernel


/-! ### The object dictionary: chapters 16 and 17 -/

/-- A state in OP whose mailbox of host die 0 has a requester of a role, with a ticket for a write. -/
abbrev asking (role : Nat) (ticket : Option (Nat × Nat × List Byte)) (d : Dev := {}) : State :=
  { dev := { d with pu := { d.pu with state := .op, pcie0 := true, pcie1 := true, forwarding := true },
                    eps := [(1, { role := role, ticket := ticket })] } }
abbrev mbx : Via := .endpoint 1

/-- The ticket of a write. -/
abbrev tick (idx sub : Nat) (val : List Byte) : Option (Nat × Nat × List Byte) := some (idx, sub, Config.sha384 val)

/-- `State.hears` as a test. -/
def hearsB (s : State) (v : Via) : Bool := s.dev.carries v && decide ((s.dev.client v).answer ≠ .waiting)

theorem hears_iff (s : State) (v : Via) : s.hears v ↔ hearsB s v = true := by
  simp only [State.hears, hearsB, Bool.and_eq_true, decide_eq_true_eq]

/-- A write whose ticket fits passes where all other checks do. -/
theorem passes_ticket (s : State) (v : Via) (idx sub : Nat) (val : List Byte) (hh : hearsB s v = true)
    (ht : (s.dev.client v).ticket = tick idx sub val) (hc : (s.asked v).checkWrite v none idx sub val = none) : s.Passes v idx sub val := by
  refine ⟨(hears_iff s v).2 hh, ?_⟩
  rw [← hc]
  unfold Dev.checkWrite
  simp [ticketFits, ht]

/-- A write that needs no ticket passes where the checks do. -/
theorem passes_open (s : State) (v : Via) (idx sub : Nat) (val : List Byte) (hh : hearsB s v = true)
    (hc : (s.asked v).checkWrite v (some (s.dev.client v).ticket) idx sub val = none) : s.Passes v idx sub val :=
  ⟨(hears_iff s v).2 hh, hc⟩

theorem mayRead_of (s : State) (v : Via) (idx sub : Nat) (hh : hearsB s v = true) (hc : (s.asked v).checkRead v idx sub = none) :
    s.MayRead v idx sub := ⟨(hears_iff s v).2 hh, hc⟩

/-- Session 0 of host die 0, bound to slot 0. -/
abbrev tenant (x : SpdmSession := {}) (b : Job := {}) (d : Dev := {}) : State :=
  { dev := { d with pu := { state := .op, pcie0 := true }, dict := (objKey 0x4000 1, [0]) :: d.dict, jobs := [(0, b)],
                    spdm := [(0, { sessions := [(0, some { x with binding := .slot 0 })] })] } }
abbrev sess0 : Via := .session 0 0

theorem test_witness_SdoServices :
    hearsB (asking 0 none) mbx = true ∧ hearsB (tenant) sess0 = true ∧ (tenant).dev.doeBusy 0 = false ∧
    (let d := (asking 0 none).dev
     d.pcie 0 = true ∧ (d.ep 1).busy = false ∧ d.pu.state ≠ .init ∧ (d.ep 1).answer ≠ .waiting ∧ 6 ≤ (6 : BitVec 12).toNat ∧
       (2048 : BitVec 12).toNat ≤ 2048 ∧ 2048 < (2049 : BitVec 12).toNat ∧ (5 : BitVec 12).toNat < 6) ∧
    (let d : Dev := { eps := [(1, { seg := some (0x1008, 0, [], 0) })] }
     (d.client mbx).seg = some (0x1008, 0, [], 0) ∧ d.loadsBy mbx = false ∧ 0 + 1000000000 ≤ 1000000000) := by
  refine ⟨?_, ?_, ?_, ?_, ?_⟩ <;> decide

/-- Table 17-2: each of its first seven checks refuses some write of an observer, an owner or an operator. -/
theorem test_witness_RefusedWrites :
    (let s := asking 0 none
     hearsB s mbx = true ∧
       ((s.asked mbx).endSeg mbx).checkWrite mbx (some (s.dev.client mbx).ticket) 0x5000 0 [] = some { code := abNoObject } ∧
       ((s.asked mbx).endSeg mbx).checkWrite mbx (some (s.dev.client mbx).ticket) 0x2000 0x50 [] = some { code := abNoSub } ∧
       ((s.asked mbx).endSeg mbx).checkWrite mbx (some (s.dev.client mbx).ticket) 0x2500 0x11 [] = some { code := abState } ∧
       ((s.asked mbx).endSeg mbx).checkWrite mbx (some (s.dev.client mbx).ticket) 0x2000 0x11 [4] = some { code := abAccess, auth := true } ∧
       ((s.asked mbx).endSeg mbx).checkWrite mbx (some (s.dev.client mbx).ticket) 0x2E00 4 [4] = some { code := abLength } ∧
       ((s.asked mbx).endSeg mbx).checkWrite mbx (some (s.dev.client mbx).ticket) 0x2E00 5 [0, 1] = some { code := abRange }) ∧
    (let s := asking 1 none
     ((s.asked mbx).endSeg mbx).checkWrite mbx (some (s.dev.client mbx).ticket) 0x2000 0x11 [4] = some { code := abAccess, auth := true }) := by
  refine ⟨⟨?_, ?_, ?_, ?_, ?_, ?_, ?_⟩, ?_⟩ <;> decide +kernel

/-- A login of the owner with key 0 against a nonce of zeros. -/
abbrev loginResp : List Byte := [1, 0, 0, 0] ++ zs 128
abbrev ownerKeyed : Dev := { dict := [(objKey 0x2500 0x10, 4 :: zs 96)] }

theorem test_witness_EndpointRoles :
    (asking 0 none).MayRead mbx 0x2500 0x40 ∧ (asking 0 none).Passes mbx 0x2500 0x41 loginResp ∧
    (let d : Dev := { ownerKeyed with eps := [(1, { nonce := some (zs 32) })] }
     (d.login {} mbx loginResp true).1 = .ok) ∧
    (asking 1 none).Passes mbx 0x2500 0x44 ([0, 0, 1] ++ zs 5 ++ [1] ++ zs 151) ∧
    ((asking 1 none).asked mbx |>.client mbx).ticketCtr < fieldAt ([0, 0, 1] ++ zs 5 ++ [1] ++ zs 151) 8 8 ∧
    (asking 0 none).Passes mbx 0x2500 0x43 [0] ∧
    (let s : State := { time := { elapsed := 600000000000 }, dev := { eps := [(1, { role := 1 })] } }
     (s.dev.ep 1).role ≠ 0 ∧ (s.dev.ep 1).lastReq + s.dev.objN 0x2500 0x45 * 1000000000 ≤ s.time.elapsed) ∧
    (let s : State := { time := { elapsed := 5 }, dev := { eps := [(1, { lockout := some 5 })] } }
     (s.dev.ep 1).lockout = some 5 ∧ 5 ≤ s.time.elapsed) := by
  refine ⟨mayRead_of _ _ _ _ ?_ ?_, passes_open _ _ _ _ _ ?_ ?_, ?_, passes_open _ _ _ _ _ ?_ ?_, ?_, passes_open _ _ _ _ _ ?_ ?_, ?_, ?_⟩ <;>
    decide +kernel

/-- The base point of curve P-384 as a public key (FIPS 186-5). -/
abbrev basePoint : List Byte :=
  4 :: ((le 48 0xAA87CA22BE8B05378EB1C71EF320AD746E1D3B628BA79B9859F741E082542A385502F25DBF55296C3A545E3872760AB7).reverse ++
    (le 48 0x3617DE4A96262C6F5D9E98BF9292DC29F8F41DBD289A147CE9DA3113B5F0B8C00A60B1CE1D7E819D7A431D7C90EA0E5F).reverse)

/-- What an `Except` answers. -/
abbrev outcome (x : Except W32 Dev) : Option W32 := match x with | .ok _ => none | .error c => some c

theorem test_witness_DeviceWrites :
    (∀ x ∈ ([4, 8] : List Byte), (asking 1 (tick 0x2000 0x11 [x])).Passes mbx 0x2000 0x11 [x]) ∧
    (∀ x ∈ ([0, 1] : List Byte), (asking 2 (tick 0x2710 6 [x])).Passes mbx (0x2710 + (0 : RingId).val) 6 [x]) ∧
    (asking 2 (tick 0x1A00 0 [7])).Passes mbx 0x1A00 0 [7] ∧
    (asking 2 (tick 0x1A00 3 (le 4 7))).Passes mbx 0x1A00 3 (le 4 7) ∧
    (∀ x ∈ ([0, 1] : List Byte), (asking 1 (tick 0x2F00 5 [x])).Passes mbx 0x2F00 5 [x]) := by
  refine ⟨?_, ?_, passes_ticket _ _ _ _ _ ?_ rfl ?_, passes_ticket _ _ _ _ _ ?_ rfl ?_, ?_⟩
  · intro x hx
    simp only [List.mem_cons, List.not_mem_nil, or_false] at hx
    rcases hx with rfl | rfl <;> exact passes_ticket _ _ _ _ _ (by decide +kernel) rfl (by decide +kernel)
  · intro x hx
    simp only [List.mem_cons, List.not_mem_nil, or_false] at hx
    rcases hx with rfl | rfl <;> exact passes_ticket _ _ _ _ _ (by decide +kernel) rfl (by decide +kernel)
  · decide +kernel
  · decide +kernel
  · decide +kernel
  · decide +kernel
  · intro x hx
    simp only [List.mem_cons, List.not_mem_nil, or_false] at hx
    rcases hx with rfl | rfl <;> exact passes_ticket _ _ _ _ _ (by decide +kernel) rfl (by decide +kernel)

/-- Each of the four writes is done on one device and aborted on another. -/
theorem test_witness_DeviceOutcomes :
    outcome ((asking 1 none).dev.writeStateReq {} 4) = none ∧ outcome ((asking 1 none).dev.writeStateReq {} 8) = some abState ∧
    outcome (({ pu := { state := .safeop } } : Dev).writeStateReq {} 8) = none ∧
    outcome (({ dict := [(objKey 0x2710 1, [1])] } : Dev).writeRingEnable 0 1) = none ∧
    outcome (({ dict := [(objKey 0x2710 1, [2])] } : Dev).writeRingEnable 0 1) = some abRange ∧
    outcome (({} : Dev).writeMap 0 [0]) = none ∧ outcome (({} : Dev).writeMap 3 [0, 0, 0, 0]) = some abState ∧
    outcome (({} : Dev).writePrbs 1) = none ∧ outcome ((withLink { state := .up }).writePrbs 1) = some abState := by
  refine ⟨?_, ?_, ?_, ?_, ?_, ?_, ?_, ?_, ?_⟩ <;> decide +kernel

theorem test_witness_DeviceKeys :
    ((asking 1 (tick 0x2C00 0x90 (le 2 3)) { hbms := [(0, { active := 0xFFF7 })] }).Passes mbx 0x2C00 0x90 (le 2 3) ∧
      ((asking 1 none { hbms := [(0, { active := 0xFFF7 })] }).asked mbx).nvAllowed mbx 0x2C00 0x90 (le 2 3) = true) ∧
    ((asking 1 (tick 0x3001 1 basePoint) ownerKeyed).Passes mbx 0x3001 1 basePoint ∧
      ((asking 1 none ownerKeyed).asked mbx).nvAllowed mbx 0x3001 1 basePoint = true) ∧
    ((asking 0 none).Passes mbx 0x2500 0x10 basePoint ∧ ((asking 0 none).asked mbx).nvAllowed mbx 0x2500 0x10 basePoint = true) := by
  refine ⟨⟨passes_ticket _ _ _ _ _ ?_ rfl ?_, ?_⟩, ⟨passes_ticket _ _ _ _ _ ?_ rfl ?_, ?_⟩, ⟨passes_open _ _ _ _ _ ?_ ?_, ?_⟩⟩ <;> decide +kernel

theorem test_witness_DeviceReadsAndNetwork :
    (asking 0 none).MayRead mbx 0x2300 0x15 ∧ (asking 0 none).MayRead mbx 0x2E00 6 ∧
    (let d := (asking 0 none).dev
     d.pu.forwarding = true ∧ (.safeop : AlState) ≠ .boot ∧ alRank .safeop ≤ d.pu.state.alLimit) ∧
    (let d : Dev := { pu := { state := .preop, forwarding := true } }
     d.pu.forwarding = true ∧ d.pu.state.alLimit < alRank .safeop) ∧
    (let d : Dev := { pu := { state := .boot, forwarding := true } }
     d.pu.forwarding = true ∧ d.pu.state = .boot) ∧
    (let s : State := { time := { ns := 1000000 }, dev := { net := { al := .safeop, refreshed := 0 } } }
     2 ≤ alRank s.dev.net.al ∧ s.dev.net.refreshed ≠ s.time.ns / 1000000) ∧
    (let d : Dev := { pu := { state := .op, toSafeop := true }, jobs := [(0, { state := 4 })] }
     d.pu.state = .op ∧ d.pu.toSafeop = true ∧ ∀ e ∈ d.jobs, e.2.state ≠ 2 ∧ e.2.state ≠ 3) := by
  refine ⟨mayRead_of _ _ _ _ ?_ ?_, mayRead_of _ _ _ _ ?_ ?_, ?_, ?_, ?_, ?_, ?_⟩ <;> decide +kernel

/-- A job in a state in which each command is allowed, and in one in which it is not. -/
theorem test_witness_JobCommands :
    (∀ n ∈ [1, 2, 3, 4, 5], (tenant).Passes sess0 (0x4000 + (0 : JobId).val) 2 [BitVec.ofNat 8 n]) ∧
    (∀ e ∈ [(1, 0, 2), (2, 2, 4), (3, 4, 2), (4, 5, 6), (5, 6, 2)],
      ((tenant {} { state := e.2.1 }).asked sess0).cmdAllowed 0 e.1 = true ∧ ((tenant {} { state := e.2.2 }).asked sess0).cmdAllowed 0 e.1 = false) := by
  refine ⟨?_, ?_⟩
  · intro n hn
    simp only [List.mem_cons, List.not_mem_nil, or_false] at hn
    rcases hn with rfl | rfl | rfl | rfl | rfl <;> exact passes_open _ _ _ _ _ (by decide +kernel) (by decide +kernel)
  · decide +kernel

/-- A membership record of one member, this device, rank 0. -/
abbrev member1 : List Byte := [[7, 0, 1, 0, 1, 0, 0, 0, 1], zs 55, zs 48, zs 48, zs 32, zs 96].flatten
abbrev memJob : Job := { state := 4, plan := some { meas := zs 48 } }

theorem membership_taken (h : Config.deviceId = zs 48) : ((tenant {} memJob).asked sess0).membershipRefused 0 member1 true = false := by
  unfold Dev.membershipRefused Membership.own
  rw [h]
  decide +kernel

theorem test_witness_JobObjects :
    (asking 2 (tick 0x4000 1 [0])).Passes mbx (0x4000 + (0 : JobId).val) 1 [0] ∧
    (asking 2 (tick 0x4000 1 [255])).Passes mbx (0x4000 + (0 : JobId).val) 1 [255] ∧
    (((asking 2 none).asked mbx).writeJobSlot 0 255).1 = none ∧ (((asking 2 none).dev.setJob 0 { state := 2 }).job 0).state ≠ 0 ∧
    (∀ x ∈ ([0, 1] : List Byte), (tenant).Passes sess0 (0x4000 + (0 : JobId).val) 9 [x]) ∧
    (tenant {} memJob).Passes sess0 (0x4000 + (0 : JobId).val) 0x50 member1 ∧
    ((tenant {} memJob).asked sess0).membershipRefused 0 member1 false = true ∧ (((tenant {} memJob).asked sess0).job 0).state ≠ 2 := by
  refine ⟨passes_ticket _ _ _ _ _ ?_ rfl ?_, passes_ticket _ _ _ _ _ ?_ rfl ?_, ?_, ?_, ?_, passes_open _ _ _ _ _ ?_ ?_, ?_, ?_⟩
  case refine_7 =>
    intro x hx
    simp only [List.mem_cons, List.not_mem_nil, or_false] at hx
    rcases hx with rfl | rfl <;> exact passes_open _ _ _ _ _ (by decide +kernel) (by decide +kernel)
  all_goals decide +kernel


/-! ### Rings, DMA and ingress: chapter 16 -/

/-- Ring 0 enabled, its die up, of a type, 64 entries. -/
abbrev withRing (ty : Byte) (g : Ring) : Dev :=
  { dict := [(objKey 0x2710 1, [ty])], rings := [(0, { g with enabled := true })], pu := { pcie0 := true } }

theorem test_witness_RingIndices :
    (let d := withRing 1 { host := 0xFFFFFFFF, dev := 1 }
     (d.rng 0).enabled = true ∧ d.ringDie 0 = 0 ∧ d.pcie 0 = true ∧ d.objN 0x2710 1 ≤ 3 ∧
       ((1 : W32) - (d.rng 0).host).toNat ≤ ((d.rng 0).dev - (d.rng 0).host).toNat ∧
       ((d.rng 0).dev - (d.rng 0).host).toNat < ((2 : W32) - (d.rng 0).host).toNat) ∧
    (let d := withRing 4 { host := 0, dev := 0 }
     (d.rng 0).enabled = true ∧ d.ringDie 0 = 0 ∧ d.pcie 0 = true ∧ ¬ d.objN 0x2710 1 ≤ 3 ∧
       ((64 : W32) - (d.rng 0).host).toNat < 2 ^ 31 ∧ ((64 : W32) - (d.rng 0).dev).toNat ≤ d.ringLen 0 ∧
       d.ringLen 0 < ((65 : W32) - (d.rng 0).dev).toNat) ∧
    (let d := withRing 1 { host := 0, dev := 63, backlog := [[1], [2]] }
     (d.rng 0).backlog = [1] :: [[2]] ∧ (d.rng 0).enabled = true ∧ d.ringUp 0 = true ∧ ((d.rng 0).dev - (d.rng 0).host).toNat < d.ringLen 0) := by
  refine ⟨?_, ?_, ?_⟩ <;> decide

/-- Ring 0 of a type for job 5 of slot 3, which holds region 0 of its plan on stack 0; the slot has transfer key 0. -/
abbrev dmaDev (ty : Byte) (b : Job := {}) (x : Slot := {}) : Dev :=
  { dict := [(objKey 0x2710 1, [ty]), (objKey 0x2710 5, [5]), (objKey 0x4005 1, [3])], rings := [(0, { enabled := true, host := 1 })],
    jobs := [(5, { b with state := 2, regions := [(0, 0, 8 * 65536, 65536, 1, 1)] })], hbms := [(0, region)], slots := [(3, x)],
    pu := { state := .op, pcie0 := true } }

/-- A command of 256 bytes at plan address 0: operation, protection mode, invocation field. -/
abbrev dmaEntry (op mode iv : Byte) : List Byte := [[op, 0, 5, 0, 0, 1], zs 26, [mode], zs 3, [iv], zs 27].flatten

theorem test_witness_DmaCommand :
    (∃ d1, (dmaDev 5).takeEntry (0 : RingId).val 5 = some d1) ∧
    (let d := dmaDev 5
     (d.pu.state = .safeop ∨ d.pu.state = .op) ∧ d.objN 0x2710 5 = 5 ∧ d.slotOf 5 = 3 ∧ (d.slot 3).keyNext = none ∧
       dmaBad 5 (dmaEntry 1 0 0) = false ∧ dmaBad 5 (dmaEntry 1 1 7) = false ∧ dmaBad 5 (dmaEntry 2 1 0) = false ∧
       (∀ w : Bool, d.dmaVerdict 5 0 256 w = (.ok, 0, 8 * 65536)) ∧ mget none (d.slot 3).keys 0 = none) ∧
    (let d := dmaDev 5 {} { keys := [(0, some { counter := 2 ^ 64 - 1 })] }
     mget none (d.slot 3).keys 0 = some { counter := 2 ^ 64 - 1 } ∧ d.dmaVerdict 5 0 256 false = (.ok, 0, 8 * 65536)) ∧
    (let d := { dmaDev 5 with dmas := [{ ring := 0, job := 5, op := 1, len := 256, off := 8 * 65536 * 32 }] }
     d.dmas.find? (fun x => decide (x.ring = 0)) = some { ring := 0, job := 5, op := 1, len := 256, off := 8 * 65536 * 32 } ∧ d.ringUp 0 = true ∧
       (d.dmaVerdict 5 0 256 true).1 = .ok) := by
  refine ⟨⟨_, rfl⟩, ?_, ?_, ?_⟩ <;> decide +kernel

/-- An ingress record of one extent. -/
abbrev ingressEntry : List Byte := [[1, 0, 5, 0], zs 12, [1, 0, 1], zs 13, [7], zs 31].flatten

theorem test_witness_Ingress :
    (∃ d1, (dmaDev 6).takeEntry (0 : RingId).val 6 = some d1) ∧
    ((dmaDev 6).pu.state = .op ∧ (dmaDev 6).pu.toSafeop = false ∧ ingressBad 5 ingressEntry [] = false) ∧
    (let d := dmaDev 6 { plan := some {}, ingress := [{}] }
     (d.job 5).ingress = {} :: [] ∧ (d.job 5).ingressReady = true ∧ d.mayDispatch 5 = true) ∧
    (let d := dmaDev 6 { dispatched := [{ chunks := 1, due := 1 }, { chunks := 0 }, { chunks := 1 }] }
     (d.job 5).dispatched.find? (fun i => decide (i.chunks ≠ 0) && decide (i.due ≤ d.ctrN 0x4005 0x17)) = some { chunks := 1 }) := by
  refine ⟨⟨_, rfl⟩, ?_, ?_, ?_⟩ <;> decide +kernel

/-! ### SPDM: chapter 18 -/

/-- A device in OP whose host die 0 has reached a stage, with some sessions. -/
abbrev spdmAt (stage : Nat) (sessions : Map (Option SpdmSession) := []) (d : Dev := {}) : Dev :=
  { d with pu := { state := .op, pcie0 := true }, spdm := [(0, { stage := stage, sessions := sessions })] }

/-- `Dev.DoeFree` as a test. -/
def doeFreeB (d : Dev) (h : Nat) : Bool := decide (d.pu.state ≠ .init) && d.pcie h && !d.doeBusy h

theorem doeFree_iff (d : Dev) (h : Nat) : d.DoeFree h ↔ doeFreeB d h = true := by
  simp only [Dev.DoeFree, doeFreeB, Bool.and_eq_true, decide_eq_true_eq, Bool.not_eq_true', and_assoc]

theorem test_witness_SpdmNegotiation :
    (∀ n ∈ [0, 1, 2, 3], (spdmAt n).DoeFree 0 ∧ ((spdmAt n).die 0).stage = n) ∧
    (0 < Config.certChain.length → ((spdmAt 3).die 0).stage = 3 ∧ (0 : W16).toNat < Config.certChain.length) := by
  refine ⟨?_, fun h => ⟨by decide, h⟩⟩
  simp only [doeFree_iff]
  decide

theorem test_witness_SpdmSessions :
    ((spdmAt 3).DoeFree 0 ∧ ((List.range 16).find? fun k => ((spdmAt 3).sess 0 k).isNone) = some 0) ∧
    (let d := spdmAt 3 [(0, some { binding := .pending })] { dict := [(objKey 0x2500 0x20, basePoint)] }
     d.DoeFree 0 ∧ d.sess 0 0 = some { binding := .pending } ∧ d.bindingOf basePoint = some .operator) ∧
    (let d := spdmAt 3 [(0, some { binding := .pending })] { dict := [(objKey 0x3001 1, basePoint), (objKey 0x4000 1, [0])] }
     d.bindingOf basePoint = some (.slot 0)) ∧
    (∀ b ∈ [Binding.operator, .nothing, .slot 3], let d := spdmAt 3 [(0, some { binding := b })]
     d.DoeFree 0 ∧ d.sess 0 0 = some { binding := b } ∧ b ≠ .pending) ∧
    (let d := spdmAt 3 [(0, some {})]
     d.sess 0 0 = some {} ∧ d.pcie 0 = true ∧ ({} : SpdmSession).lastMsg + 90000000000 ≤ 90000000000) := by
  simp only [doeFree_iff]
  refine ⟨?_, ?_, ?_, ?_, ?_⟩ <;> decide +kernel

/-- Session 0 bound to slot 0, whose job 0 serves; ring 1 is its step ring; serving session 7 is open. -/
abbrev serving0 (state : Nat := 2) (v : Serving := {}) : Dev :=
  spdmAt 3 [(0, some { binding := .slot 0 })]
    { dict := [(objKey 0x2711 1, [2]), (objKey 0x2711 5, [0]), (objKey 0x4000 1, [0])], rings := [(1, { enabled := true })],
      jobs := [(0, { srvJob v with state := state })] }

/-- Where the only job with a state is job 0, what holds of state 0 and of its state holds of all. -/
theorem idle_jobs (d : Dev) (b : Job) (h : d.jobs = [(0, b)]) (hb : b.state ∉ [1, 2, 3, 5]) (j : Nat) : (d.job j).state ∉ [1, 2, 3, 5] := by
  rw [Dev.job, h, mget]
  split
  · exact hb
  · rw [mget]
    decide

theorem test_witness_TenantKeys :
    (let d := serving0 4
     (d.DoeFree 0 ∧ d.sess 0 0 = some { binding := .slot 0 } ∧ (Binding.slot 0) ≠ .pending) ∧ (Binding.slot 0).slotNo = some 0 ∧
       (d.slot 0).keyNext = none ∧ (∀ j ∈ d.jobsOf 0, (d.job j).state ∉ [1, 2, 3, 5]) ∧
       (1 : BitVec 512).extractLsb' 0 256 ≠ (1 : BitVec 512).extractLsb' 256 256 ∧
       (0 : BitVec 512).extractLsb' 0 256 = (0 : BitVec 512).extractLsb' 256 256) ∧
    (let d := serving0
     d.DoeFree 0 ∧ d.slotOf 0 = 0 ∧ 2 ≤ (d.job 0).state ∧ (d.job 0).state ≤ 5 ∧ (d.srvOf 0).isSome = true ∧
       mget none (d.job 0).srv.sessions 7 = none ∧ (d.rng 1).enabled = true ∧ d.objN 0x2711 1 = 2 ∧ d.objN 0x2711 5 = 0) ∧
    (let d := serving0 2 { sessions := [(7, some {})] }
     d.DoeFree 0 ∧ mget none (d.job 0).srv.sessions 7 = some {} ∧ d.slotOf 0 = 0 ∧ ({} : SrvSession).closing = false) := by
  simp only [doeFree_iff]
  refine ⟨⟨?_, ?_, ?_, fun j _ => idle_jobs _ _ rfl (by decide) j, ?_⟩, ?_, ?_⟩ <;> decide +kernel


/-! ### A small plan that passes every check of Table 9-11 -/

/-- One site, (0, 0) of I0, whose setup code is `arm`; its queue 0 stages one entry. -/
abbrev site1 : List Byte := [zs 6, [1, 0], zs 15, [8], zs 257, [32], zs 1406].flatten
/-- Guard 7, one dimension of at most 16, to queue 0 of that site. -/
abbrev guard1 : List Byte := [[1, 0, 0, 0, 1], zs 11, [7, 0, 0, 1, 0, 1, 0, 0, 16], zs 25, [128, 0, 0, 0, 0, 0]].flatten
abbrev planImg : List Byte :=
  [le 4 0x4E414C50, [1, 0, 0, 0], le 8 3328, zs 9, [1, 6], zs 101, psec 1 512 32, psec 2 768 1688, psec 8 2560 56, psec 9 2816 224,
    psec 0xA 3072 0, psec 0xB 3072 0, zs 195, [1, 0, 0, 0, 0, 1], zs 247, site1, zs 104, guard1, zs 200, [1], zs 511].flatten

/-- Its records as the model reads them. -/
abbrev siteR : SiteRec :=
  { x := 0, y := 0, isle := 0, stage := 0, prog := [576460752303423488], trigs := List.replicate 32 0, desc := 8192 :: List.replicate 175 0, extents := [] }
abbrev stageR : StageRec := { stage := 0, isle := 0, part := 0, jobTide := true, reefs := [0], planes := [] }
abbrev guardR : GuardRec := { id := 7, split := false, ndim := 1, splitDim := 0, nroute := 1, route0 := 0, maxes := [16, 0, 0, 0], isle := 0 }
abbrev budR : BudRec := { x := 0, y := 0, isle := 0, tiles := List.replicate 64 0, aa := List.replicate 64 0 }

theorem leNat_zeros (l : List Byte) (h : ∀ x ∈ l, x = 0) : leNat l = 0 := by
  induction l with
  | nil => rfl
  | cons x l ih => simp [leNat, h x (by simp), ih fun y hy => h y (by simp [hy])]

/-- Words that bytes of zero spell. -/
theorem words_zeros (b : List Byte) (o n : Nat) (h : ((b.drop o).take (8 * n)).all (· == 0) = true) : words b o n = List.replicate n 0 := by
  have hz : ∀ x ∈ (b.drop o).take (8 * n), x = 0 := by simpa using h
  rw [List.eq_replicate_iff]
  refine ⟨by simp [words], fun w hw => ?_⟩
  simp only [words, List.mem_map, List.mem_range] at hw
  obtain ⟨i, hi, rfl⟩ := hw
  have : fieldAt b (o + 8 * i) 8 = 0 := by
    refine leNat_zeros _ fun x hx => hz x ?_
    have e : (b.drop (o + 8 * i)).take 8 = (((b.drop o).take (8 * n)).drop (8 * i)).take 8 := by
      rw [List.drop_take, List.take_take, List.drop_drop]
      congr 1
      omega
    rw [e] at hx
    exact List.mem_of_mem_drop (List.mem_of_mem_take hx)
  simp [this]

theorem words_cons (b : List Byte) (o n : Nat) : words b o (n + 1) = BitVec.ofNat 64 (fieldAt b o 8) :: words b (o + 8) n := by
  simp only [words, List.range_succ_eq_map, List.map_cons, List.map_map, Nat.mul_zero, Nat.add_zero, List.cons.injEq, true_and]
  refine List.map_congr_left fun i _ => ?_
  simp only [Function.comp_apply]
  congr 2
  omega

theorem site_trigs : words site1 24 32 = List.replicate 32 0 := words_zeros _ _ _ (by decide +kernel)
theorem site_desc : words site1 280 176 = 8192 :: List.replicate 175 0 := by
  rw [words_cons _ _ 175, words_zeros site1 288 175 (by decide +kernel)]
  congr 1
theorem site_queues : words site1 280 64 = 8192 :: List.replicate 63 0 := by
  rw [words_cons _ _ 63, words_zeros site1 288 63 (by decide +kernel)]
  congr 1
theorem site_routes : words site1 1176 64 = List.replicate 64 0 := words_zeros _ _ _ (by decide +kernel)

theorem sec2 : sectionBytes planImg 2 = site1 := by decide +kernel
theorem sec8 : sectionBytes planImg 8 = guard1 := by decide +kernel
theorem sec_none : ∀ k ∈ [3, 4, 5, 6, 7, 0xA, 0xB, 0xC, 0xD, 0xE], sectionBytes planImg k = [] := by decide +kernel
theorem plan_sites : siteRecs planImg = [siteR] := by
  have h1 : site1.length / 1696 + 1 = 1 := by decide +kernel
  have h2 : ¬ site1.length ≤ 0 := by decide +kernel
  have h3 : fieldAt site1 (0 + 6) 2 = 1 := by decide +kernel
  have h4 : fieldAt site1 (0 + 8) 2 = 0 := by decide +kernel
  have h5 : fieldAt site1 0 2 = 0 ∧ fieldAt site1 (0 + 2) 2 = 0 ∧ fieldAt site1 (0 + 4) 1 = 0 ∧ fieldAt site1 (0 + 5) 1 = 0 := by decide +kernel
  have h6 : words site1 (0 + 16) 1 = [576460752303423488] := by decide +kernel
  rw [siteRecs, sec2, h1, readSites, if_neg h2]
  simp only [h3, h4, h5, h6, readExtents, readSites, site_trigs, site_desc, Nat.zero_add, Nat.mul_one, Nat.reduceAdd]

theorem plan_guards : guardRecs planImg = [guardR] := by rw [guardRecs, sec8]; decide +kernel
theorem plan_stages : stageRecs planImg = [stageR] := by decide +kernel
theorem plan_bud : budRecs planImg = [budR] := by decide +kernel

theorem sec3 : sectionBytes planImg 3 = [] := sec_none 3 (by simp)
theorem sec4 : sectionBytes planImg 4 = [] := sec_none 4 (by simp)
theorem sec5 : sectionBytes planImg 5 = [] := sec_none 5 (by simp)
theorem sec6 : sectionBytes planImg 6 = [] := sec_none 6 (by simp)
theorem sec7 : sectionBytes planImg 7 = [] := sec_none 7 (by simp)
theorem secA : sectionBytes planImg 0xA = [] := sec_none 0xA (by simp)
theorem secB : sectionBytes planImg 0xB = [] := sec_none 0xB (by simp)
theorem secC : sectionBytes planImg 0xC = [] := sec_none 0xC (by simp)
theorem secD : sectionBytes planImg 0xD = [] := sec_none 0xD (by simp)
theorem secE : sectionBytes planImg 0xE = [] := sec_none 0xE (by simp)
theorem plan_reefs : reefRecs planImg = [] := by rw [reefRecs, reefOffs, sec3]; decide +kernel
theorem plan_streams : streamsRecs planImg = [] := by rw [streamsRecs, streamsOffs, sec4]; decide +kernel
theorem plan_map : mapRecs planImg = [] := by rw [mapRecs, sec5]; decide +kernel
theorem plan_sems : semRecs planImg = [] := by rw [semRecs, semOffs, sec6]; decide +kernel
theorem plan_wins : winRecs planImg = [] := by rw [winRecs, sec7]; decide +kernel
theorem plan_links : linkRecs planImg = [] := by rw [linkRecs, secA]; decide +kernel
theorem plan_epochs : epochRecs planImg = [] := by rw [epochRecs, secB]; decide +kernel
theorem plan_cw : cwBytes planImg = [] := by rw [cwBytes, secC]; decide +kernel
theorem plan_srv : srvRec planImg = none := by rw [srvRec, secD]; decide +kernel
theorem plan_coll : collRec planImg = none := by rw [collRec, secE]; decide +kernel

theorem types_distinct : distinct ((sectionTable planImg).map (·.1)) = true := by
  have h : (sectionTable planImg).map (·.1) = [1, 2, 8, 9, 10, 11] := by decide +kernel
  rw [h, distinct, List.mergeSort_of_pairwise (by decide)]
  decide

theorem extents_disjoint : disjoint ((sectionTable planImg).map (·.2)) = true := by
  have h : ((sectionTable planImg).map (·.2)).filter (fun e => decide (0 < e.2)) = [(512, 32), (768, 1688), (2560, 56), (2816, 224)] := by
    decide +kernel
  rw [disjoint, h, List.mergeSort_of_pairwise (by decide)]
  decide

theorem plan_header : headerBad planImg = false := by
  unfold headerBad
  simp only []
  rw [types_distinct, extents_disjoint]
  decide +kernel

theorem site_ok : siteRecBad site1 0 = false := by
  have h3 : fieldAt site1 (0 + 6) 2 = 1 := by decide +kernel
  have h4 : fieldAt site1 (0 + 8) 2 = 0 := by decide +kernel
  simp only [siteRecBad, siteRecSize, h3, h4, Nat.mul_one, Nat.zero_add, Nat.reduceAdd, site_trigs, site_queues, site_routes, extentHeads, readExtents]
  decide +kernel

theorem site_offs : siteOffs site1 = ([0], 1688) := by
  have h3 : fieldAt site1 (0 + 6) 2 = 1 := by decide +kernel
  have h4 : fieldAt site1 (0 + 8) 2 = 0 := by decide +kernel
  have h5 : siteRecSize site1 0 = 1688 := by rw [siteRecSize, h3, h4]; decide
  have h1 : site1.length = 1688 := by decide +kernel
  rw [siteOffs, h1]
  simp only [Nat.reduceDiv, Nat.reduceAdd, recOffsets, h5]
  decide +kernel

theorem plan_format : checkFormat planImg = none := by
  simp only [checkFormat, plan_header, formatSites, formatReefs, reefOffs, formatStreams, streamsOffs, formatMap, formatSems, semOffs, formatWins,
    formatGuards, formatBudget, formatLinks, formatEpochs, formatCauseway, formatServing, formatColl, sec2, sec3, sec4, sec5, sec6, sec7, sec8, secA,
    secB, secC, secD, secE, plan_sites, plan_reefs, plan_streams, plan_map, plan_sems, plan_wins, plan_epochs, plan_cw, plan_bud, site_offs, badAt,
    List.findIdx?_cons, site_ok]
  decide +kernel

/-- A device that fetches it for job 0 of slot 0, which may hold a reef and has a plan key. -/
abbrev fetchDev : Dev :=
  { dict := [(objKey 0x3000 3, le 4 1), (objKey 0x3002 1, 4 :: zs 96), (objKey 0x4000 1, [0])], jobs := [(0, { state := 1, staged := 3328 })],
    pu := { pcie0 := true, pcie1 := true } }
abbrev planOf : Plan := { image := planImg, rho := 0, shift := [(0, 0), (0, 0), (0, 0), (0, 0)], meas := zs 48 }

theorem no_reefs (j : Nat) : (fetchDev.job j).reefs = [] := by
  rw [Dev.job, mget]
  split <;> simp [mget]

theorem no_regions (j : Nat) : (fetchDev.job j).regions = [] := by
  rw [Dev.job, mget]
  split <;> simp [mget]

theorem sum_zeros (f : Nat → Nat) (h : ∀ x, f x = 0) (l : List Nat) : (l.map f).foldl (· + ·) 0 = 0 := by
  induction l with
  | nil => rfl
  | cons x l ih => rw [List.map_cons, List.foldl_cons, h, ih]

theorem held_none (n j : Nat) : fetchDev.slotReefs n j = 0 := by
  have h (l : List Nat) (a : Nat) : l.foldl (fun a j => if (fetchDev.groupOf j).isNone then a + (fetchDev.job j).reefs.length else a) a = a := by
    induction l generalizing a with
    | nil => rfl
    | cons x l ih =>
      rw [List.foldl_cons, ih]
      simp [no_reefs]
  unfold Dev.slotReefs
  have hf (l : List Nat) : (l.any fun _ => false) = false := by induction l <;> simp_all
  have hg (l : List Nat) : (l.filter fun _ => false) = [] := by induction l <;> simp_all
  simp only [h]
  simp [no_reefs, sumNat, hf, hg]

theorem hbm_none (n : Nat) : fetchDev.slotHbm n = 0 := by
  unfold Dev.slotHbm sumNat
  exact sum_zeros _ (fun j => by rw [no_regions]; rfl) _

theorem plan_partition : fetchDev.checkPartition 0 planImg = none := by
  simp only [Dev.checkPartition, checkIsles, checkStages, checkTeacher, plan_sites, plan_guards, plan_stages, plan_reefs, plan_streams, plan_map,
    plan_sems, plan_wins, plan_links, plan_epochs, plan_cw, plan_bud, plan_srv, plan_coll]
  decide +kernel

theorem plan_place : fetchDev.place 0 planImg = some (0, [(0, 0), (0, 0), (0, 0), (0, 0)]) := by decide +kernel

theorem plan_held : fetchDev.checkHeld 0 planOf = none := by
  simp only [Dev.checkHeld, held_none, Plan.windowIds, Plan.u0Queues, plan_wins, plan_coll]
  decide +kernel

theorem plan_buffers : fetchDev.checkBuffers 0 planOf = none := by
  simp only [Dev.checkBuffers, hbm_none, plan_sites, plan_reefs, plan_streams, plan_map, plan_wins, plan_epochs, plan_cw, plan_srv, plan_coll,
    Plan.maxReq, Plan.icred, Plan.inbound, Dev.allocMap]
  decide +kernel

theorem plan_descriptors : fetchDev.checkDescriptors 0 planOf = none := by
  simp only [Dev.checkDescriptors, plan_sites, plan_wins,]
  decide +kernel

theorem plan_rest : checkAlignment planImg = none ∧ checkCacheable planImg = none ∧ checkCleared planImg = none ∧ checkCounts planImg = none ∧
    checkDepths planImg = none ∧ checkTiles planImg = none ∧ fetchDev.checkRoutes planOf = none ∧ checkGuards planImg = none := by
  simp only [checkAlignment, checkCacheable, checkCleared, checkCounts, checkDepths, firings, checkTiles, Dev.checkRoutes, checkGuards, sec8, plan_sites,
    plan_guards, plan_reefs, plan_streams, plan_map, plan_wins, plan_links, plan_epochs, plan_cw, plan_bud, plan_coll]
  refine ⟨?_, ?_, ?_, ?_, ?_, ?_, ?_, ?_⟩ <;> decide +kernel

/-- The keys that the slot has registered, hashed. -/
theorem plan_keys (hk : Config.sha384 (4 :: zs 96) = zs 48) :
    ((List.range 8).filterMap fun k =>
      let v := fetchDev.obj 0x3002 (k + 1)
      if emptyKey v then none else some (Config.sha384 v)).contains (zs 48) = true := by
  have h4 : fetchDev.obj 0x3002 (0 + 1) = 4 :: zs 96 := by decide +kernel
  have h5 : emptyKey (4 :: zs 96) = false := by decide
  rw [List.contains_iff_mem, List.mem_filterMap]
  exact ⟨0, by decide, by simp only [h4, h5, hk, Bool.false_eq_true, if_false]⟩

theorem plan_hashes : bytesAt planImg (planImg.length - 256) 48 = zs 48 ∧ bytesAt planImg 32 48 = zs 48 ∧ fieldAt planImg 24 1 = 0 := by
  refine ⟨?_, ?_, ?_⟩ <;> decide +kernel

theorem plan_signature (hm : Config.sha384 (signedBytes planImg) = zs 48) (hk : Config.sha384 (4 :: zs 96) = zs 48) :
    fetchDev.checkSignature planImg true = none := by
  have hc := plan_keys hk
  unfold Dev.checkSignature
  rw [plan_hashes.1, plan_hashes.2.1, plan_hashes.2.2, hm]
  simp only [Nat.mul_zero, Nat.add_zero, hc]
  decide

/-- A plan that passes every check is accepted. -/
theorem accepts_of (d : Dev) (j : Nat) (ok : Bool) (img : List Byte) (p : Plan) (h1 : checkFormat img = none) (h2 : d.checkSignature img ok = none)
    (h3 : d.checkPartition j img = none) (h4 : d.place j img = some (p.rho, p.shift)) (h5 : bytesAt img (img.length - 256) 48 = p.meas)
    (h6 : d.checkHeld j { image := img, rho := p.rho, shift := p.shift, meas := p.meas } = none)
    (h7 : d.checkBuffers j { image := img, rho := p.rho, shift := p.shift, meas := p.meas } = none)
    (h8 : checkAlignment img = none) (h9 : d.checkDescriptors j { image := img, rho := p.rho, shift := p.shift, meas := p.meas } = none)
    (h10 : checkCacheable img = none) (h11 : checkCleared img = none) (h12 : checkCounts img = none) (h13 : checkDepths img = none)
    (h14 : checkTiles img = none) (h15 : d.checkRoutes { image := img, rho := p.rho, shift := p.shift, meas := p.meas } = none)
    (h16 : checkGuards img = none) :
    d.checkPlan j img ok = .accept { image := img, rho := p.rho, shift := p.shift, meas := p.meas } := by
  simp only [Dev.checkPlan, h1, h2, h3, h4, h5, h6, h7, h8, h9, h10, h11, h12, h13, h14, h15, h16, Verdict.of]

/-- The plan is accepted where its hashes are right: the job fetches it, its protection is off or its tag is right, and every check passes. -/
theorem test_witness_PlanAccepted (hm : Config.sha384 (signedBytes planImg) = zs 48) (hk : Config.sha384 (4 :: zs 96) = zs 48) :
    (fetchDev.job 0).state = 1 ∧ (fetchDev.job 0).staged ≠ 0 ∧ fetchDev.pcie (fetchDev.objN 0x4000 0x1B) = true ∧
      fieldAt (fetchDev.obj 0x4000 0x1A) 0 1 ≠ 1 ∧ fetchDev.checkPlan 0 planImg true = .accept planOf := by
  refine ⟨by decide, by decide, by decide +kernel, by decide +kernel, ?_⟩
  obtain ⟨a, b, c, d, e, f, g, h⟩ := plan_rest
  exact accepts_of fetchDev 0 true planImg planOf plan_format (plan_signature hm hk) plan_partition plan_place plan_hashes.1 plan_held plan_buffers a plan_descriptors b c d e f
    g h

end Sys2Proof.Tests
end

section
/-! PROOF. How an instruction of a site that issues ends: what the issue, the end of an instruction and the write-back of a run come to,
once for every instruction. -/
namespace Sys2Proof.Machine

/-! ### The end of an instruction -/

@[simp] theorem SOut.atUnit_next (r : SRun) (pc : Nat) (w : Who) (op : Nat) : (SOut.next r pc).atUnit w op = .next r pc := rfl

/-- The next address lies in the program store: the run is written back with it. -/
theorem Dev.siteEnds_next (d : Dev) (t : TimeBase) (i : Nat) (w : Who) (r : SRun) {pc : Nat} (h : pc < 1024) :
    d.siteEnds t i w (.next r pc) = d.writeBack t i w { r with c := { r.c with pc := pc } } := by
  simp only [Dev.siteEnds, if_neg (Nat.not_le.mpr h)]

theorem Dev.siteEnds_illegal (d : Dev) (t : TimeBase) (i : Nat) (w : Who) (r : SRun) :
    d.siteEnds t i w r.illegal = d.siteFault t i 0x200B r.c.tag.toNat r.c.pc := by
  simp [Dev.siteEnds, SRun.illegal]

/-- A run that sends, forwards and reports nothing changes its site alone. -/
theorem Dev.writeBack_of_quiet (d : Dev) (t : TimeBase) (i : Nat) (w : Who) {r : SRun} (hflits : r.flits = []) (hfwd : r.fwd = [])
    (hrep : r.rep = {}) : d.writeBack t i w r = d.leaves i w r r.c.pc := by
  unfold Dev.writeBack Dev.leaves
  rw [hflits, hfwd, hrep]
  cases w <;> rfl

/-- An instruction that only sets a sticky flag, and completes. -/
theorem Dev.siteEnds_flag_done (d d0 : Dev) (t : TimeBase) (i : Nat) (w : Who) {c : Context} (k : Nat) (hpc : c.pc < 1023) :
    d.siteEnds t i w ((d0.runOf i w c).flag k).done = d.leaves i w ((d0.runOf i w c).flag k) (c.pc + 1) := by
  have hnext : ((d0.runOf i w c).flag k).c.pc + 1 < 1024 := Nat.succ_lt_succ hpc
  rw [SRun.done, Dev.siteEnds_next _ _ _ _ _ hnext, Dev.writeBack_of_quiet _ _ _ _ rfl rfl rfl]
  rfl

/-! ### Issue -/

/-- What `Issues` says of the turn of an ordered instruction, as the issue tests it (R100). -/
theorem Dev.Issues.hasTurn {d : Dev} {i : Nat} {k : Fin 4} {c : Context} {op : Nat} (h : d.Issues i (.ctx k) c op) :
    (d.site i).ordered (d.wordAt i c) = true → (d.site i).oldest k.val = true := by
  obtain ⟨-, -, -, -, -, -, hw | hord | ⟨k', hw, hold⟩⟩ := h
  · cases hw
  · simp [hord]
  · cases hw; exact fun _ => hold

/-- An instruction that may issue, with a sound word, runs on what it finds, and its end is what its unit makes of it (R99, R100, R164). -/
theorem Dev.siteInstr_of_issues {d : Dev} {i : Nat} {w : Who} {c : Context} {op : Nat} {t : TimeBase} {e : Ecc} {f : SRun → Nat → SOut}
    (he : e.bad = false) (h : d.Issues i w c op) :
    d.siteInstr t i w e op f = (d.countEcc t i e).siteEnds t i w ((f (d.runOf i w c) (d.wordAt i c)).atUnit w op) := by
  have ⟨hrun, hstop, hctl, hop, ⟨fs, hfs, hres⟩, hunit, _⟩ := h
  unfold Dev.wordAt at hop hres
  unfold Dev.siteInstr
  simp only [hrun]
  rw [if_neg (by simp [hstop, hctl])]
  simp only [hop, hfs]
  rw [if_neg (by simp), if_neg ?turn, if_neg (by simp [hunit]), if_neg (by simp [he]), if_neg (not_not_intro hres)]
  case turn =>
    cases w with
    | setup => simp
    | ctx k => exact fun ⟨_, hord, hold⟩ => hold (h.hasTurn hord)
  rfl

section
variable {s : State} {i : Nat} {w : Who} {c : Context} {op : Nat} {e : Ecc} {f : SRun → Nat → SOut}

/-- `o` is the instruction's outcome, named so that an equation for it carries over to the command. -/
theorem act_siteInstr_of_issues {o : SOut} (he : e.bad = false) (h : s.dev.Issues i w c op)
    (ho : f (s.dev.runOf i w c) (s.dev.wordAt i c) = o) :
    act s (fun t d => d.siteInstr t i w e op f) = .next (s.withDev ((s.dev.countEcc s.time i e).siteEnds s.time i w (o.atUnit w op))) := by
  rw [act_next, Dev.siteInstr_of_issues he h, ho]

/-- Operands that the instruction does not take stop the site at the word (R170). -/
theorem act_siteInstr_illegal (he : e.bad = false) (h : s.dev.Issues i w c op)
    (ho : f (s.dev.runOf i w c) (s.dev.wordAt i c) = (s.dev.runOf i w c).illegal) :
    act s (fun t d => d.siteInstr t i w e op f) = .next (s.withDev (s.dev.illegalAt s.time i e c)) := by
  rw [act_siteInstr_of_issues he h ho]
  exact congrArg (fun d => Host.Outcome.next (s.withDev d)) (Dev.siteEnds_illegal ..)

/-- An instruction that only sets a sticky flag sends and reports nothing: it leaves its site alone changed. -/
theorem act_siteInstr_flag_done {k : Nat} (he : e.bad = false) (h : s.dev.Issues i w c op) (hpc : c.pc < 1023)
    (ho : f (s.dev.runOf i w c) (s.dev.wordAt i c) = ((s.dev.runOf i w c).flag k).done) :
    act s (fun t d => d.siteInstr t i w e op f) =
      .next (s.withDev ((s.dev.countEcc s.time i e).leaves i w ((s.dev.runOf i w c).flag k) (c.pc + 1))) := by
  rw [act_siteInstr_of_issues he h ho]
  exact congrArg (fun d => Host.Outcome.next (s.withDev d)) (Dev.siteEnds_flag_done _ _ _ _ _ _ hpc)

/-- An instruction that completes before the last word of the program store: its run is written back at the next address. -/
theorem act_siteInstr_next {r : SRun} (he : e.bad = false) (h : s.dev.Issues i w c op) (hpc : r.c.pc < 1023)
    (ho : f (s.dev.runOf i w c) (s.dev.wordAt i c) = .next r (r.c.pc + 1)) :
    act s (fun t d => d.siteInstr t i w e op f) =
      .next (s.withDev ((s.dev.countEcc s.time i e).writeBack s.time i w { r with c := { r.c with pc := r.c.pc + 1 } })) := by
  rw [act_siteInstr_of_issues he h ho, SOut.atUnit_next, Dev.siteEnds_next _ _ _ _ _ (Nat.succ_lt_succ hpc)]

end

end Sys2Proof.Machine
end

section
/-! PROOF. `mma` and `send`: an equation for each way they end (R117 to R119, R134, R157, R166, R167). -/
namespace Sys2Proof.Machine

/-! ### mma -/

theorem exec_mma (s : State) (i : SiteId) (w : Who) (e : Ecc) :
    exec (.mma i w e) s = act s fun t d => d.siteInstr t i.val w e 0x20 iMma := rfl

/-- Both sources of `mma` are of a kind that R617 and R143 allow. -/
def SRun.MmaSound (r : SRun) (W : Nat) : Prop :=
  (r.x.srcOk (bits W 51 44) = true ∨ selFwd (bits W 51 44) = true) ∧ (r.x.srcOk (bits W 43 36) = true ∨ selFwd (bits W 43 36) = true)

section
variable {r : SRun} {W : Nat}

theorem iMma_illegal (h : ¬ r.MmaSound W) : iMma r W = r.illegal :=
  if_pos (Classical.not_and_iff_not_or_not.mp h)

/-- Sources of the right kinds pass the first check of `mma`. -/
theorem SRun.MmaSound.passes (h : r.MmaSound W) :
    ¬ (¬ (r.x.srcOk (bits W 51 44) = true ∨ selFwd (bits W 51 44) = true) ∨
       ¬ (r.x.srcOk (bits W 43 36) = true ∨ selFwd (bits W 43 36) = true)) :=
  not_or.mpr ⟨not_not_intro h.1, not_not_intro h.2⟩

theorem iMma_unpaired (h : r.MmaSound W) (hcl : cubeClass (bits W 35 31) (bits W 30 26) = none) : iMma r W = (r.flag fCvNan).done := by
  simp only [iMma, if_neg h.passes, hcl]

theorem iMma_noPlane {cl : CubeClass} (h : r.MmaSound W) (hcl : cubeClass (bits W 35 31) (bits W 30 26) = some cl)
    (hfwd : selFwd (bits W 51 44) = true ∨ selFwd (bits W 43 36) = true) (hplane : r.env.plane = none) : iMma r W = (r.flag fCvNan).done := by
  simp only [iMma, if_neg h.passes, hcl, if_pos (And.intro hfwd hplane)]

/-- Without the forwarding path, or in plane mode, `mma` runs the beats that it has not done yet. -/
theorem iMma_beats {cl : CubeClass} (h : r.MmaSound W) (hcl : cubeClass (bits W 35 31) (bits W 30 26) = some cl)
    (hreach : (selFwd (bits W 51 44) = false ∧ selFwd (bits W 43 36) = false) ∨ r.env.plane ≠ none) :
    iMma r W = SRun.mmaBeats W cl (bits W 25 16 + 1 - r.c.beats) r := by
  have hpath : ¬ ((selFwd (bits W 51 44) = true ∨ selFwd (bits W 43 36) = true) ∧ r.env.plane = none) := by
    rintro ⟨hfwd, hplane⟩
    rcases hreach with ⟨ha, hb⟩ | hp
    · simp [ha, hb] at hfwd
    · exact hp hplane
  simp only [iMma, if_neg h.passes, hcl, if_neg hpath]

end

/-! ### send -/

theorem exec_send (s : State) (i : SiteId) (w : Who) (e : Ecc) :
    exec (.send i w e) s = act s fun t d => d.siteInstr t i.val w e 0x30 iSend := rfl

/-- The token of `send` is of a kind that a site makes, and its source one that the kind takes (R157, R617). -/
def SRun.SendSound (r : SRun) (W : Nat) : Prop :=
  bits W 57 54 = 4 ∨ bits W 57 54 = 3 ∧ selAA (bits W 53 46) = true ∨
    (bits W 57 54 = 0 ∨ bits W 57 54 = 1 ∨ bits W 57 54 = 5) ∧ (selReg (bits W 53 46) = true ∨ r.x.srcOk (bits W 53 46) = true)

/-- The route entry of `send` is valid, and of a multicast group exactly where the token is a multicast token (R134). -/
def SRun.SendRoute (r : SRun) (W : Nat) : Prop :=
  bit (mget 0 r.x.work (112 + bits W 45 40)).toNat 23 = true ∧
    bit (mget 0 r.x.work (112 + bits W 45 40)).toNat 22 = decide (bits W 57 54 = 1)

section
variable {r : SRun} {W : Nat}

/-- Soundness as `send` checks it: the kind, then the source of each kind. -/
theorem SRun.sendSound_iff : r.SendSound W ↔
    (bits W 57 54 = 0 ∨ bits W 57 54 = 1 ∨ bits W 57 54 = 3 ∨ bits W 57 54 = 4 ∨ bits W 57 54 = 5) ∧
    ¬ (bits W 57 54 = 3 ∧ ¬ selAA (bits W 53 46) = true) ∧
    ¬ (bits W 57 54 ≠ 3 ∧ bits W 57 54 ≠ 4 ∧ ¬ (selReg (bits W 53 46) = true ∨ r.x.srcOk (bits W 53 46) = true)) := by
  unfold SRun.SendSound
  by_cases hempty : bits W 57 54 = 4
  · simp [hempty]
  by_cases hword : bits W 57 54 = 3
  · simp [hword]
  · simp [hempty, hword, Classical.or_iff_not_imp_left]

theorem iSend_illegal (h : ¬ r.SendSound W) : iSend r W = r.illegal := by
  rw [SRun.sendSound_iff] at h
  by_cases hkind : bits W 57 54 = 0 ∨ bits W 57 54 = 1 ∨ bits W 57 54 = 3 ∨ bits W 57 54 = 4 ∨ bits W 57 54 = 5
  · by_cases hword : bits W 57 54 = 3 ∧ ¬ selAA (bits W 53 46) = true
    · simp only [iSend, if_neg (not_not_intro hkind), if_pos hword]
    · have hsrc := Classical.not_not.mp fun hsrc => h ⟨hkind, hword, hsrc⟩
      simp only [iSend, if_neg (not_not_intro hkind), if_neg hword, if_pos hsrc]
  · exact if_pos hkind

theorem iSend_routeOff (h : r.SendSound W) (hroute : ¬ r.SendRoute W) : iSend r W = (r.flag fRouteOff).done := by
  obtain ⟨hkind, hword, hsrc⟩ := SRun.sendSound_iff.mp h
  have hoff := Classical.not_and_iff_not_or_not.mp hroute
  simp only [iSend, if_neg (not_not_intro hkind), if_neg hword, if_neg hsrc, if_pos hoff]

theorem iSend_portFull (h : r.SendSound W) (hroute : r.SendRoute W) (hport : r.env.canSend = false) : iSend r W = .keep r := by
  obtain ⟨hkind, hword, hsrc⟩ := SRun.sendSound_iff.mp h
  have hon := not_or.mpr ⟨not_not_intro hroute.1, not_not_intro hroute.2⟩
  have hfull : ¬ r.env.canSend = true := by simp [hport]
  simp only [iSend, if_neg (not_not_intro hkind), if_neg hword, if_neg hsrc, if_neg hon, if_pos hfull]

end

/-- What `send` needs beyond its operands: a kind and a source that fit, a route, and room at the local port. -/
def SRun.SendReady (r : SRun) (W : Nat) : Prop := r.SendSound W ∧ r.SendRoute W ∧ r.env.canSend = true

section
variable {r : SRun} {W : Nat}

/-- A token that is ready passes the five checks of `send`. -/
theorem SRun.SendReady.passes (h : r.SendReady W) :
    ¬ ¬ (bits W 57 54 = 0 ∨ bits W 57 54 = 1 ∨ bits W 57 54 = 3 ∨ bits W 57 54 = 4 ∨ bits W 57 54 = 5) ∧
    ¬ (bits W 57 54 = 3 ∧ ¬ selAA (bits W 53 46) = true) ∧
    ¬ (bits W 57 54 ≠ 3 ∧ bits W 57 54 ≠ 4 ∧ ¬ (selReg (bits W 53 46) = true ∨ r.x.srcOk (bits W 53 46) = true)) ∧
    ¬ (¬ bit (mget 0 r.x.work (112 + bits W 45 40)).toNat 23 = true ∨
       bit (mget 0 r.x.work (112 + bits W 45 40)).toNat 22 ≠ decide (bits W 57 54 = 1)) ∧
    ¬ ¬ r.env.canSend = true := by
  obtain ⟨hsound, ⟨hvalid, hmulti⟩, hport⟩ := h
  obtain ⟨hkind, hword, hsrc⟩ := SRun.sendSound_iff.mp hsound
  exact ⟨not_not_intro hkind, hword, hsrc, not_or.mpr ⟨not_not_intro hvalid, not_not_intro hmulti⟩, not_not_intro hport⟩

theorem iSend_empty (h : r.SendReady W) (hk : bits W 57 54 = 4) : iSend r W = r.emitTok W 0 := by
  obtain ⟨hkind, hword, hsrc, hon, hfree⟩ := h.passes
  simp only [iSend, if_neg hkind, if_neg hword, if_neg hsrc, if_neg hon, if_neg hfree, if_pos hk]

theorem iSend_word (h : r.SendReady W) (hk : bits W 57 54 = 3) :
    iSend r W = (r.readWord (bits W 12 7) (bits W 6 6)).2.emitTok W (r.readWord (bits W 12 7) (bits W 6 6)).1 := by
  obtain ⟨hkind, hword, hsrc, hon, hfree⟩ := h.passes
  have hk4 : ¬ bits W 57 54 = 4 := by omega
  simp only [iSend, if_neg hkind, if_neg hword, if_neg hsrc, if_neg hon, if_neg hfree, if_neg hk4, if_pos hk]

theorem iSend_reg (h : r.SendReady W) (hk4 : bits W 57 54 ≠ 4) (hk3 : bits W 57 54 ≠ 3) (hreg : selReg (bits W 53 46) = true) :
    iSend r W = r.emitTok W (payOf ((List.range 4).map fun j =>
      (r.lane (bits W 53 46) (8 * bits W 5 5 + 2 * j)).toNat + (r.lane (bits W 53 46) (8 * bits W 5 5 + 2 * j + 1)).toNat * 2 ^ 32)) := by
  obtain ⟨hkind, hword, hsrc, hon, hfree⟩ := h.passes
  simp only [iSend, if_neg hkind, if_neg hword, if_neg hsrc, if_neg hon, if_neg hfree, if_neg hk4, if_neg hk3, if_pos hreg]

/-- What `send` makes of one beat of a source other than a register. -/
def SRun.sendBeat (r : SRun) (W : Nat) : Beat → SOut
  | .wait => .keep r
  | .stop code q => .stop r code (some q)
  | .ok v _ r1 => r1.emitTok W v

theorem iSend_beat (h : r.SendReady W) (hk4 : bits W 57 54 ≠ 4) (hk3 : bits W 57 54 ≠ 3) (hreg : selReg (bits W 53 46) = false) :
    iSend r W = r.sendBeat W (r.beat 0 (bits W 53 46) {}) := by
  obtain ⟨hkind, hword, hsrc, hon, hfree⟩ := h.passes
  simp only [iSend, if_neg hkind, if_neg hword, if_neg hsrc, if_neg hon, if_neg hfree, if_neg hk4, if_neg hk3, if_neg (Bool.eq_false_iff.mp hreg)]
  cases r.beat 0 (bits W 53 46) {} <;> rfl

end

/-- The token of `send` goes to the local port behind what the run has sent, and the instruction completes (R134, R157). -/
theorem SRun.emitTok_eq (r : SRun) (W : Nat) (pay : W256) :
    ∃ f : Flit, r.emitTok W pay = .next { r with flits := r.flits ++ [(f, false)] } (r.c.pc + 1) ∧ f.payload = pay ∧
      ∃ low, f.hdr = routeHdr (mget 0 r.x.work (112 + bits W 45 40)) r.x.epoch.toNat
        (toTwos 20 (((if r.setup then 0 else r.c.tag.toNat : Nat) : Int) + ofTwos 8 (bits W 39 32))) (bits W 57 54) low :=
  ⟨_, rfl, rfl, _, rfl⟩

/-- Settles O27: each clause is one way in which `mma` or `send` ends, carried through issue and write-back. -/
theorem siteCubeAndSendInstructions : Obligations.SiteCubeAndSendInstructions := by
  unfold Obligations.SiteCubeAndSendInstructions
  refine ⟨⟨?mma, ?send⟩, SRun.emitTok_eq, ?others⟩
  case mma =>
    intro s i w e c he hi hpc r W sa sb ha hb
    have hs : r.MmaSound W := ⟨ha, hb⟩
    rw [exec_mma]
    refine ⟨fun hcl => ?_, fun cl r2 hcl hreach hbeats hpc2 => ?_, fun cl r2 hcl hreach hbeats => ?_⟩
    · exact act_siteInstr_flag_done he hi hpc (iMma_unpaired hs hcl)
    · exact act_siteInstr_next he hi hpc2 ((iMma_beats hs hcl hreach).trans hbeats)
    · exact act_siteInstr_of_issues he hi ((iMma_beats hs hcl hreach).trans hbeats)
  case send =>
    intro s i w e c he hi hpc r W kind src rt lanes
    rw [exec_send]
    have plain {k : Nat} (hk : k = 0 ∨ k = 1 ∨ k = 5) : k ≠ 4 ∧ k ≠ 3 := by omega
    have not_decide {b : Bool} {k : Nat} (hb : b = false) (hk : k ≠ 1) : b = decide (k = 1) := by simp [hb, hk]
    refine ⟨fun hk hsrc hoff => ?_, fun hk hreg hvalid hmulti hport => ?_, fun hk hvalid hmulti hport => ?_, fun hk haa hvalid hmulti hport => ?_,
      fun v l r1 hk hreg hsrc hvalid hmulti hport hbeat => ?_, fun hk hreg hvalid hmulti hport => ?_⟩
    · have hroute : ¬ r.SendRoute W := fun ⟨hvalid, hmulti⟩ => hoff.elim (fun h => Bool.eq_false_iff.mp h hvalid) (absurd hmulti)
      exact act_siteInstr_flag_done he hi hpc (iSend_routeOff (.inr (.inr ⟨hk, hsrc⟩)) hroute)
    · have hready : r.SendReady W := ⟨.inr (.inr ⟨hk, .inl hreg⟩), ⟨hvalid, hmulti⟩, hport⟩
      exact act_siteInstr_of_issues he hi (iSend_reg hready (plain hk).1 (plain hk).2 hreg)
    · have hready : r.SendReady W := ⟨.inl hk, ⟨hvalid, not_decide hmulti (by omega)⟩, hport⟩
      exact act_siteInstr_of_issues he hi (iSend_empty hready hk)
    · have hready : r.SendReady W := ⟨.inr (.inl ⟨hk, haa⟩), ⟨hvalid, not_decide hmulti (by omega)⟩, hport⟩
      exact act_siteInstr_of_issues he hi (iSend_word hready hk)
    · have hready : r.SendReady W := ⟨.inr (.inr ⟨hk, .inr hsrc⟩), ⟨hvalid, hmulti⟩, hport⟩
      exact act_siteInstr_of_issues he hi ((iSend_beat hready (plain hk).1 (plain hk).2 hreg).trans (congrArg (r.sendBeat W) hbeat))
    · exact act_siteInstr_of_issues he hi (iSend_portFull (.inr (.inr ⟨hk, .inl hreg⟩)) ⟨hvalid, hmulti⟩ hport)
  case others =>
    intro s i w e c he r W ill ends sa sb mma sound
    rw [exec_mma]
    refine ⟨fun hi hbad => ?_, fun cl hi hs hcl hfwd hplane => ?_, fun cl code q r1 hi hs hcl hreach hbeats => ?_, ?_⟩
    · exact act_siteInstr_illegal he hi (iMma_illegal hbad)
    · exact act_siteInstr_of_issues he hi (iMma_noPlane hs hcl hfwd hplane)
    · exact act_siteInstr_of_issues he hi ((iMma_beats hs hcl hreach).trans hbeats)
    · intro kind src rt snd good route
      rw [exec_send]
      refine ⟨fun hi hbad => ?_, fun hi hs hoff => ?_, fun hi hs hroute hport => ?_, fun hi hs hroute hport hk3 hk4 hreg hbeat => ?_,
        fun code q hi hs hroute hport hk3 hk4 hreg hbeat => ?_⟩
      · exact act_siteInstr_illegal he hi (iSend_illegal hbad)
      · exact act_siteInstr_of_issues he hi (iSend_routeOff hs hoff)
      · exact act_siteInstr_of_issues he hi (iSend_portFull hs hroute hport)
      · exact act_siteInstr_of_issues he hi ((iSend_beat ⟨hs, hroute, hport⟩ hk4 hk3 hreg).trans (congrArg (r.sendBeat W) hbeat))
      · exact act_siteInstr_of_issues he hi ((iSend_beat ⟨hs, hroute, hport⟩ hk4 hk3 hreg).trans (congrArg (r.sendBeat W) hbeat))

end Sys2Proof.Machine
end

section
/-! PROOF. The instructions of a site that stay in it: their run sends, forwards and reports nothing, so that they change their site alone. -/
namespace Sys2Proof.Machine

/-- The run has sent, forwarded and reported nothing, and stands at `pc`. -/
def SRun.QuietAt (r : SRun) (pc : Nat) : Prop := r.flits = [] ∧ r.fwd = [] ∧ r.rep = {} ∧ r.c.pc = pc

theorem Dev.runOf_quietAt (d : Dev) (i : Nat) (w : Who) (c : Context) : (d.runOf i w c).QuietAt c.pc := ⟨rfl, rfl, rfl, rfl⟩

theorem SRun.QuietAt.flag {r : SRun} {pc : Nat} (h : r.QuietAt pc) (k : Nat) : (r.flag k).QuietAt pc := h

theorem SRun.QuietAt.setS {r : SRun} {pc : Nat} (h : r.QuietAt pc) (k : Nat) (v : W32) : (r.setS k v).QuietAt pc := by
  unfold SRun.setS
  split
  · split
    · exact h
    · exact h.flag fOwnRefused
  · exact h

theorem SRun.QuietAt.putWalk {r : SRun} {pc : Nat} (h : r.QuietAt pc) (k : Nat) (v : Walk) : (r.putWalk k v).QuietAt pc := by
  unfold SRun.putWalk
  split <;> exact h

theorem SRun.QuietAt.goTo {r : SRun} {pc : Nat} (h : r.QuietAt pc) (pc' : Nat) :
    SRun.QuietAt { r with c := { r.c with pc := pc' } } pc' := by
  obtain ⟨hflits, hfwd, hrep, -⟩ := h
  exact ⟨hflits, hfwd, hrep, rfl⟩

theorem SRun.QuietAt.writeBack {r : SRun} {pc : Nat} (h : r.QuietAt pc) (d : Dev) (t : TimeBase) (i : Nat) (w : Who) :
    d.writeBack t i w r = d.leaves i w r pc := by
  obtain ⟨hflits, hfwd, hrep, rfl⟩ := h
  exact Dev.writeBack_of_quiet d t i w hflits hfwd hrep

section
variable {s : State} {i : Nat} {w : Who} {c : Context} {op : Nat} {e : Ecc} {f : SRun → Nat → SOut} {r : SRun}

/-- The instruction leaves its site alone changed, and its stream goes on at `pc`. -/
theorem act_siteInstr_goesTo {pc : Nat} (he : e.bad = false) (h : s.dev.Issues i w c op) (hr : r.QuietAt c.pc) (hpc : pc < 1024)
    (ho : f (s.dev.runOf i w c) (s.dev.wordAt i c) = .next r pc) :
    act s (fun t d => d.siteInstr t i w e op f) = .next (s.withDev ((s.dev.countEcc s.time i e).leaves i w r pc)) := by
  rw [act_siteInstr_of_issues he h ho, SOut.atUnit_next, Dev.siteEnds_next _ _ _ _ _ hpc, (hr.goTo pc).writeBack]
  rfl

/-- The instruction leaves its site alone changed, and its stream goes on with the next word. -/
theorem act_siteInstr_done (he : e.bad = false) (h : s.dev.Issues i w c op) (hpc : c.pc < 1023) (hr : r.QuietAt c.pc)
    (ho : f (s.dev.runOf i w c) (s.dev.wordAt i c) = r.done) :
    act s (fun t d => d.siteInstr t i w e op f) = .next (s.withDev ((s.dev.countEcc s.time i e).leaves i w r (c.pc + 1))) := by
  have ⟨_, _, _, hat⟩ := hr
  exact act_siteInstr_goesTo he h hr (Nat.succ_lt_succ hpc) (by rw [ho, SRun.done, hat])

end

end Sys2Proof.Machine
end

section
/-! PROOF. Control flow: an equation for each way `br`, `dbnz`, `end` and `arm` end (R149, R150). -/
namespace Sys2Proof.Machine

theorem exec_br (s : State) (i : SiteId) (w : Who) (e : Ecc) :
    exec (.br i w e) s = act s fun t d => d.siteInstr t i.val w e 0x03 iBr := rfl
theorem exec_dbnz (s : State) (i : SiteId) (w : Who) (e : Ecc) :
    exec (.dbnz i w e) s = act s fun t d => d.siteInstr t i.val w e 0x04 iDbnz := rfl
theorem exec_end (s : State) (i : SiteId) (w : Who) (e : Ecc) :
    exec (.end_ i w e) s = act s fun t d => d.siteInstr t i.val w e 0x01 iEnd := rfl
theorem exec_arm (s : State) (i : SiteId) (w : Who) (e : Ecc) :
    exec (.arm i w e) s = act s fun t d => d.siteInstr t i.val w e 0x02 iArm := rfl

/-- A field of `n` bits lies below `2 ^ n`. -/
theorem bits_lt (x hi lo : Nat) : bits x hi lo < 2 ^ (hi + 1 - lo) := Nat.mod_lt _ (Nat.two_pow_pos _)

section
variable {r : SRun} {W : Nat}

theorem iBr_taken (h : brCond (bits W 49 47) (r.sreg (bits W 57 54)) (r.sreg (bits W 53 50)) = some true) :
    iBr r W = .next r (bits W 9 0) := by
  simp only [iBr, h]

theorem iBr_notTaken (h : brCond (bits W 49 47) (r.sreg (bits W 57 54)) (r.sreg (bits W 53 50)) = some false) :
    iBr r W = r.done := by
  simp only [iBr, h]

/-- Condition 7 is reserved. -/
theorem iBr_reserved (h : bits W 49 47 = 7) : iBr r W = r.illegal := by
  simp only [iBr, h, brCond]

theorem iDbnz_taken (h : r.sreg (bits W 57 54) ≠ 1) :
    iDbnz r W = .next (r.setS (bits W 57 54) (r.sreg (bits W 57 54) - 1)) (bits W 9 0) :=
  if_pos fun hzero => h (by bv_omega)

theorem iDbnz_notTaken (h : r.sreg (bits W 57 54) = 1) : iDbnz r W = (r.setS (bits W 57 54) 0).done := by
  have hzero : r.sreg (bits W 57 54) - 1 = 0 := by rw [h]; exact BitVec.sub_self 1
  simp only [iDbnz, hzero, ne_eq, not_true_eq_false, if_false]

theorem iEnd_context (h : r.setup = false) : iEnd r W = .close r := if_neg (Bool.eq_false_iff.mp h)
theorem iEnd_setup (h : r.setup = true) : iEnd r W = r.illegal := if_pos h
theorem iArm_setup (h : r.setup = true) : iArm r W = .armed r := if_pos h
theorem iArm_context (h : r.setup = false) : iArm r W = (r.flag fOwnRefused).done :=
  if_neg (Bool.eq_false_iff.mp h)

end

theorem Dev.runOf_setup_of_ne (d : Dev) (i : Nat) {w : Who} (c : Context) (h : w ≠ .setup) : (d.runOf i w c).setup = false := by
  cases w with
  | setup => exact absurd rfl h
  | ctx k => rfl

/-- A context that ends is written back, then closed; its site is checked for a FIFO head out of sequence (R149). -/
theorem Dev.siteEnds_close (d d0 : Dev) (t : TimeBase) (i : Nat) (k : Fin 4) (c : Context) :
    d.siteEnds t i (.ctx k) (.close (d0.runOf i (.ctx k) c)) =
      (let d1 := d.leaves i (.ctx k) (d0.runOf i (.ctx k) c) c.pc
       let y := (d1.site i).closeCtx k.val
       (d1.setSite i y).tagStop t i y.fifoBad) := by
  simp only [Dev.siteEnds, (Dev.runOf_quietAt ..).writeBack]

/-- Setup code that arms is written back, then ended; its site is checked for a token held late, then for a FIFO head out of sequence
(R149), and forced mode ends. -/
theorem Dev.siteEnds_armed (d d0 : Dev) (t : TimeBase) (i : Nat) (c : Context) :
    d.siteEnds t i .setup (.armed (d0.runOf i .setup c)) =
      (let d1 := d.leaves i .setup (d0.runOf i .setup c) c.pc
       let y := (d1.site i).arm
       ((d1.setSite i y).tagStop t i (y.heldLate.orElse fun _ => y.fifoBad)).forcedEnd t i) := by
  simp only [Dev.siteEnds, (Dev.runOf_quietAt ..).writeBack]

/-- Settles O23: each clause is one way in which `br`, `dbnz`, `end` or `arm` ends. -/
theorem siteControlFlowInstructions : Obligations.SiteControlFlowInstructions := by
  unfold Obligations.SiteControlFlowInstructions
  have target (W : Nat) : bits W 9 0 < 1024 := bits_lt W 9 0
  refine ⟨?br, ?dbnz, ?end_, ?arm, ?armContext, ?illegal⟩
  case br =>
    intro s i w e c he hi hpc r W
    have hr : r.QuietAt c.pc := Dev.runOf_quietAt ..
    exact ⟨fun hcond => act_siteInstr_goesTo he hi hr (target W) (iBr_taken hcond),
      fun hcond => act_siteInstr_done he hi hpc hr (iBr_notTaken hcond)⟩
  case dbnz =>
    intro s i w e c he hi hpc r W
    have hr : r.QuietAt c.pc := Dev.runOf_quietAt ..
    exact ⟨fun hne => act_siteInstr_goesTo he hi (hr.setS _ _) (target W) (iDbnz_taken hne),
      fun heq => act_siteInstr_done he hi hpc (hr.setS _ _) (iDbnz_notTaken heq)⟩
  case end_ =>
    intro s i k e c he hi d y
    rw [exec_end, act_siteInstr_of_issues he hi (iEnd_context rfl)]
    exact congrArg (fun d => Host.Outcome.next (s.withDev d)) (Dev.siteEnds_close ..)
  case arm =>
    intro s i e c he hi d y
    refine ⟨rfl, rfl, ?_⟩
    rw [exec_arm, act_siteInstr_of_issues he hi (iArm_setup rfl)]
    exact congrArg (fun d => Host.Outcome.next (s.withDev d)) (Dev.siteEnds_armed ..)
  case armContext =>
    intro s i w e c he hi hpc r hw
    exact act_siteInstr_flag_done he hi hpc (iArm_context (Dev.runOf_setup_of_ne _ _ _ hw))
  case illegal =>
    intro s i w e c he
    exact ⟨fun hi hcond => act_siteInstr_illegal he hi (iBr_reserved hcond),
      fun hi => act_siteInstr_illegal he hi (iEnd_setup rfl)⟩

end Sys2Proof.Machine
end

section
/-! PROOF. Loads, stores and `agrst`: the forms of the address, and an equation for each end (R105, R152, R155, R165). -/
namespace Sys2Proof.Machine

theorem exec_ld (s : State) (i : SiteId) (w : Who) (e : Ecc) :
    exec (.ld i w e) s = act s fun t d => d.siteInstr t i.val w e 0x0C iLd := rfl
theorem exec_st (s : State) (i : SiteId) (w : Who) (e : Ecc) :
    exec (.st i w e) s = act s fun t d => d.siteInstr t i.val w e 0x0D iSt := rfl
theorem exec_agrst (s : State) (i : SiteId) (w : Who) (e : Ecc) :
    exec (.agrst i w e) s = act s fun t d => d.siteInstr t i.val w e 0x0E iAgrst := rfl

section
variable {r : SRun} {W : Nat} {write : Bool}

theorem SRun.ldstAddr_register (hform : bit W 45 = true) (hsetup : r.setup = true) :
    r.ldstAddr W write = .ok (((r.sreg (bits W 53 50)).toNat + bits W 15 0) % 2 ^ 32) := by
  simp only [SRun.ldstAddr, if_pos hform, if_pos hsetup]

theorem SRun.ldstAddr_register_refused (hform : bit W 45 = true) (hsetup : r.setup = false) :
    r.ldstAddr W write = .error (r.flag fOwnRefused) := by
  simp only [SRun.ldstAddr, if_pos hform, if_neg (Bool.eq_false_iff.mp hsetup)]

/-- Through a descriptor: refused where an ordered one is another trigger's, or its mode does not allow the access. -/
theorem SRun.ldstAddr_descriptor (hform : bit W 45 = false) :
    r.ldstAddr W write =
      (let g := r.x.ag (bits W 49 46)
       if g.mode = 2 ∧ ¬ r.ownsAG g then .error (r.flag fOwnRefused)
       else if g.mode = 3 ∨ (write ∧ g.mode = 1) then .error (r.flag fAgOob)
       else .ok ((g.base + (if g.mode = 0 then r.c.tag.toNat % 4 * g.pitch else 0) + (r.sreg (bits W 53 50)).toNat + bits W 15 0) % 2 ^ 32)) := by
  simp only [SRun.ldstAddr, if_neg (Bool.eq_false_iff.mp hform)]

/-- A refused address sets one sticky flag and nothing else. -/
theorem SRun.flag_of_ldstAddr_error {r1 : SRun} (h : r.ldstAddr W write = .error r1) : ∃ k, r1 = r.flag k := by
  cases hform : bit W 45 with
  | true =>
    cases hsetup : r.setup with
    | true => rw [ldstAddr_register hform hsetup] at h; cases h
    | false => rw [ldstAddr_register_refused hform hsetup] at h; exact ⟨_, (Except.error.inj h).symm⟩
  | false =>
    rw [ldstAddr_descriptor hform] at h
    dsimp only at h
    split at h
    · exact ⟨_, (Except.error.inj h).symm⟩
    · split at h
      · exact ⟨_, (Except.error.inj h).symm⟩
      · cases h

theorem iLd_word {a : Nat} (haddr : r.ldstAddr W false = .ok a) (hok : a % 4 = 0 ∧ a + 4 ≤ 0xC000) :
    iLd r W = (r.setS (bits W 57 54) (BitVec.ofNat 32 (r.x.rd a 4))).done := by
  simp only [iLd, haddr, if_pos hok]

theorem iLd_outside {a : Nat} (haddr : r.ldstAddr W false = .ok a) (hout : ¬ (a % 4 = 0 ∧ a + 4 ≤ 0xC000)) :
    iLd r W = ((r.flag fAgOob).setS (bits W 57 54) 0).done := by
  simp only [iLd, haddr, if_neg hout]

theorem iLd_refused {r1 : SRun} (haddr : r.ldstAddr W false = .error r1) : iLd r W = (r1.setS (bits W 57 54) 0).done := by
  simp only [iLd, haddr]

theorem iSt_word {a : Nat} (haddr : r.ldstAddr W true = .ok a) (hok : a % 4 = 0 ∧ a + 4 ≤ 0xBA80) :
    iSt r W = SRun.done { r with x := r.x.wr a (le 4 (r.sreg (bits W 57 54)).toNat) } := by
  simp only [iSt, haddr, if_pos hok]

theorem iSt_outside {a : Nat} (haddr : r.ldstAddr W true = .ok a) (hout : ¬ (a % 4 = 0 ∧ a + 4 ≤ 0xBA80)) :
    iSt r W = (r.flag fAgOob).done := by
  simp only [iSt, haddr, if_neg hout]

theorem iSt_refused {r1 : SRun} (haddr : r.ldstAddr W true = .error r1) : iSt r W = r1.done := by
  simp only [iSt, haddr]

theorem iAgrst_reset (h : (r.x.ag (bits W 49 46)).mode ≠ 2 ∨ r.ownsAG (r.x.ag (bits W 49 46)) = true) :
    iAgrst r W = (r.putWalk (bits W 49 46) {}).done :=
  if_neg fun ⟨hmode, hown⟩ => h.elim (absurd hmode) hown

theorem iAgrst_refused (hmode : (r.x.ag (bits W 49 46)).mode = 2) (hown : r.ownsAG (r.x.ag (bits W 49 46)) = false) :
    iAgrst r W = (r.flag fOwnRefused).done :=
  if_pos ⟨hmode, Bool.eq_false_iff.mp hown⟩

end

/-- A write within the data SRAM puts every byte that it is given. -/
theorem Site.wr_sram {x : Site} {a : Nat} {b : List Byte} (h : a + b.length ≤ 0xC000) : (x.wr a b).sram = mputs 0 x.sram a b := by
  rw [Site.wr, List.take_of_length_le (Nat.le_sub_of_add_le' h)]

/-- Settles O24: each clause is one way in which `ld`, `st` or `agrst` ends, one form of the address, or one law of a store. -/
theorem siteMemoryInstructions : Obligations.SiteMemoryInstructions := by
  unfold Obligations.SiteMemoryInstructions
  refine ⟨⟨?ld, ?st, ?agrst, ?addr⟩, ?store⟩
  case ld =>
    intro s i w e c he hi hpc r W
    have hr : r.QuietAt c.pc := Dev.runOf_quietAt ..
    rw [exec_ld]
    refine ⟨fun a haddr halign hfits => ?_, fun a haddr hout => ?_, fun r1 haddr => ?_⟩
    · exact act_siteInstr_done he hi hpc (hr.setS _ _) (iLd_word haddr ⟨halign, hfits⟩)
    · exact act_siteInstr_done he hi hpc ((hr.flag _).setS _ _) (iLd_outside haddr (by omega))
    · obtain ⟨k, rfl⟩ := SRun.flag_of_ldstAddr_error haddr
      exact act_siteInstr_done he hi hpc ((hr.flag k).setS _ _) (iLd_refused haddr)
  case st =>
    intro s i w e c he hi hpc r W
    have hr : r.QuietAt c.pc := Dev.runOf_quietAt ..
    rw [exec_st]
    refine ⟨fun a haddr halign hfits => ?_, fun a haddr hout => ?_, fun r1 haddr => ?_⟩
    · exact act_siteInstr_done he hi hpc hr (iSt_word haddr ⟨halign, hfits⟩)
    · exact act_siteInstr_flag_done he hi hpc (iSt_outside haddr (by omega))
    · obtain ⟨k, rfl⟩ := SRun.flag_of_ldstAddr_error haddr
      exact act_siteInstr_flag_done he hi hpc (iSt_refused haddr)
  case agrst =>
    intro s i w e c he hi hpc r W
    have hr : r.QuietAt c.pc := Dev.runOf_quietAt ..
    exact ⟨fun h => act_siteInstr_done he hi hpc (hr.putWalk _ _) (iAgrst_reset h),
      fun hmode hown => act_siteInstr_flag_done he hi hpc (iAgrst_refused hmode hown)⟩
  case addr =>
    intro r W write ra ofs g
    refine ⟨SRun.ldstAddr_register, SRun.ldstAddr_register_refused, fun hform hmode hown => ?_, fun hform hmode => ?_, fun hform hmode => ?_,
      fun hform hmode => ?_⟩
    all_goals rw [SRun.ldstAddr_descriptor hform]
    · exact if_pos ⟨hmode, Bool.eq_false_iff.mp hown⟩
    · have hnot2 : ¬ (g.mode = 2 ∧ ¬ r.ownsAG g) := by omega
      exact (if_neg hnot2).trans (if_pos hmode)
    · have hnot2 : ¬ (g.mode = 2 ∧ ¬ r.ownsAG g) := by omega
      have hmay : ¬ (g.mode = 3 ∨ write ∧ g.mode = 1) := by omega
      simp only [g] at hnot2 hmay hmode
      simp only [if_neg hnot2, if_neg hmay, if_pos hmode, ra, ofs, g]
    · have hnot2 : ¬ (g.mode = 2 ∧ ¬ r.ownsAG g) := by
        rcases hmode with ⟨hmode, -⟩ | ⟨-, hown⟩
        · omega
        · exact fun h => h.2 hown
      have hmay : ¬ (g.mode = 3 ∨ write ∧ g.mode = 1) := by
        rcases hmode with ⟨hmode, rfl⟩ | ⟨hmode, -⟩
        · simp only [hmode, Bool.false_eq_true, false_and, or_false]
          omega
        · omega
      have hmode0 : ¬ g.mode = 0 := by omega
      simp only [g] at hnot2 hmay hmode0
      simp only [if_neg hnot2, if_neg hmay, if_neg hmode0, Nat.add_zero, ra, ofs, g]
  case store =>
    intro x a b hfits
    rw [Site.wr_sram hfits]
    exact ⟨fun k hk => mget_mputs_outside _ _ _ _ _ hk, fun k hk => mget_mputs_inside _ _ _ _ _ hk, by rw [← Site.wr_sram hfits]; rfl⟩

end Sys2Proof.Machine
end

section
/-! PROOF. The trigger that fires, and what its firing leaves (R95, R97, R148, R149). -/
namespace Sys2Proof.Machine

/-! ### The ends of TRIGGER_FIRE -/

section
variable {s : State} {i : SiteId}

theorem exec_triggerFire_fires {k c : Nat} (hseq : (s.dev.site i.val).fifoBad = none) (hk : (s.dev.site i.val).choice = some k)
    (hc : (s.dev.site i.val).freeCtx = some c) :
    exec (.triggerFire i) s = .next (s.withDev (s.dev.setSite i.val ((s.dev.site i.val).fire k c))) := by
  change execTriggerFire i s = _
  simp only [execTriggerFire, act_next, hseq, hk, hc]

theorem exec_triggerFire_stops {f : Nat × BitVec 20} (hseq : (s.dev.site i.val).fifoBad = some f)
    (hruns : (s.dev.site i.val).stopped = none) :
    exec (.triggerFire i) s = .next (s.withDev (s.dev.tagStop s.time i.val (some f))) := by
  change execTriggerFire i s = _
  simp only [execTriggerFire, act_next, hseq, hruns, Option.isNone_none, if_true]

/-- A site that has stopped does not stop again for a queue out of sequence. -/
theorem exec_triggerFire_stopped {f : Nat × BitVec 20} (hseq : (s.dev.site i.val).fifoBad = some f)
    (hstop : (s.dev.site i.val).stopped.isSome = true) : exec (.triggerFire i) s = .next s := by
  have hnot : ¬ (s.dev.site i.val).stopped.isNone = true := fun hnone =>
    Option.isSome_iff_ne_none.mp hstop (Option.isNone_iff_eq_none.mp hnone)
  change execTriggerFire i s = _
  simp only [execTriggerFire, act_next, hseq, if_neg hnot]

theorem exec_triggerFire_idle (hseq : (s.dev.site i.val).fifoBad = none)
    (hidle : (s.dev.site i.val).choice = none ∨ (s.dev.site i.val).freeCtx = none) : exec (.triggerFire i) s = .next s := by
  change execTriggerFire i s = _
  rcases hidle with hk | hc
  · simp only [execTriggerFire, act_next, hseq, hk]
  · cases hk : (s.dev.site i.val).choice <;> simp only [execTriggerFire, act_next, hseq, hk, hc]

end

/-! ### The choice -/

/-- Trigger `k` does not fire after `j`: it has the lower start counter, or the same one and not the later entry (R97). -/
def Site.NotAfter (x : Site) (k j : Nat) : Prop :=
  (x.trig k).counter.toNat < (x.trig j).counter.toNat ∨ (x.trig k).counter = (x.trig j).counter ∧ k ≤ j

theorem Site.NotAfter.refl (x : Site) (k : Nat) : x.NotAfter k k := .inr ⟨rfl, Nat.le_refl k⟩

theorem Site.NotAfter.trans {x : Site} {k j m : Nat} (hkj : x.NotAfter k j) (hjm : x.NotAfter j m) : x.NotAfter k m := by
  rcases hkj with hlt | ⟨heq, hle⟩
  · rcases hjm with hlt' | ⟨heq', -⟩
    · exact .inl (Nat.lt_trans hlt hlt')
    · exact .inl (heq' ▸ hlt)
  · rcases hjm with hlt' | ⟨heq', hle'⟩
    · exact .inl (heq ▸ hlt')
    · exact .inr ⟨heq.trans heq', Nat.le_trans hle hle'⟩

/-- Of two entries in order, the first does not fire after the second unless its counter is the higher one. -/
theorem Site.notAfter_of_not_lt {x : Site} {j k : Nat} (h : j < k) (hlt : ¬ (x.trig k).counter.toNat < (x.trig j).counter.toNat) :
    x.NotAfter j k := by
  rcases Nat.lt_or_eq_of_le (Nat.le_of_not_lt hlt) with hless | hsame
  · exact .inl hless
  · exact .inr ⟨BitVec.eq_of_toNat_eq hsame, Nat.le_of_lt h⟩

/-- The earlier of the trigger chosen so far and the next ready one. -/
def Site.earlier (x : Site) (a : Option Nat) (k : Nat) : Option Nat :=
  match a with
  | none => some k
  | some j => if (x.trig k).counter.toNat < (x.trig j).counter.toNat then some k else some j

theorem Site.choice_eq (x : Site) : x.choice = ((List.range 32).filter x.ready).foldl x.earlier none := rfl

/-- Of two triggers in the order of their entries, `earlier` keeps one, and neither fires before it. -/
theorem Site.earlier_some (x : Site) {j k : Nat} (h : j < k) :
    ∃ m, x.earlier (some j) k = some m ∧ (m = j ∨ m = k) ∧ x.NotAfter m j ∧ x.NotAfter m k := by
  by_cases hlt : (x.trig k).counter.toNat < (x.trig j).counter.toNat
  · exact ⟨k, if_pos hlt, .inr rfl, .inl hlt, .refl x k⟩
  · exact ⟨j, if_neg hlt, .inl rfl, .refl x j, Site.notAfter_of_not_lt h hlt⟩

/-- Over triggers in the order of their entries, what `earlier` leaves is one of them, and none fires before it. -/
theorem Site.foldl_earlier {x : Site} {l : List Nat} {j k : Nat} (hsorted : (j :: l).Pairwise (· < ·))
    (h : l.foldl x.earlier (some j) = some k) : k ∈ j :: l ∧ ∀ m ∈ j :: l, x.NotAfter k m := by
  induction l generalizing j with
  | nil =>
    obtain rfl : j = k := Option.some.inj h
    exact ⟨List.mem_cons_self, fun m hm => List.mem_singleton.mp hm ▸ .refl x j⟩
  | cons n l ih =>
    have hjn : j < n := List.rel_of_pairwise_cons hsorted List.mem_cons_self
    obtain ⟨m, hm, hmem, hmj, hmn⟩ := x.earlier_some hjn
    have hml : (m :: l).Pairwise (· < ·) := by
      rcases hmem with rfl | rfl
      · exact hsorted.sublist ((List.sublist_cons_self n l).cons_cons m)
      · exact hsorted.of_cons
    rw [List.foldl_cons, hm] at h
    obtain ⟨hk, hmin⟩ := ih hml h
    obtain ⟨hkm, hkl⟩ := List.forall_mem_cons.mp hmin
    refine ⟨?_, List.forall_mem_cons.mpr ⟨hkm.trans hmj, List.forall_mem_cons.mpr ⟨hkm.trans hmn, hkl⟩⟩⟩
    rw [List.mem_cons] at hk
    simp only [List.mem_cons]
    rcases hmem with rfl | rfl
    · exact hk.imp_right .inr
    · exact .inr hk

/-- The trigger chosen is ready, and no ready one fires before it (R97). -/
theorem Site.choice_spec {x : Site} {k : Nat} (h : x.choice = some k) :
    x.ready k = true ∧ ∀ j, j < 32 → x.ready j = true → x.NotAfter k j := by
  rw [Site.choice_eq] at h
  have hsorted : ((List.range 32).filter x.ready).Pairwise (· < ·) := List.Pairwise.filter _ List.pairwise_lt_range
  have hmem {j : Nat} : j ∈ (List.range 32).filter x.ready ↔ j < 32 ∧ x.ready j = true := by rw [List.mem_filter, List.mem_range]
  cases hl : (List.range 32).filter x.ready with
  | nil => rw [hl] at h; cases h
  | cons a l =>
    rw [hl] at h hsorted hmem
    obtain ⟨hk, hmin⟩ := Site.foldl_earlier hsorted h
    exact ⟨(hmem.mp hk).2, fun j hj hready => hmin j (hmem.mpr ⟨hj, hready⟩)⟩

/-! ### The firing -/

@[simp] theorem Site.fire_trig (x : Site) (k c j : Nat) :
    (x.fire k c).trig j =
      if j = k then { x.trig k with counter := (x.trig k).counter + BitVec.ofNat 20 (x.trigD k).step } else x.trig j := mget_mput ..

@[simp] theorem Site.fire_ctx (x : Site) (k c : Nat) :
    mget none (x.fire k c).ctxs c = some
      { trig := k, tag := (x.trig k).counter,
        pc := if (x.trigD k).opq.any (fun q => x.firstPresent q (x.trig k).counter = some true) then (x.trigD k).epc else (x.trigD k).pc } := by
  simp only [Site.fire, mget_mput_same]

/-- Settles O29: the choice is the first by `NotAfter`, and the firing changes the contexts, their order and the counter alone. -/
theorem triggerFires : Obligations.TriggerFires := by
  unfold Obligations.TriggerFires
  refine ⟨?fires, ?other⟩
  case fires =>
    intro s i k c x hseq hk hc
    obtain ⟨hready, hmin⟩ := Site.choice_spec hk
    refine ⟨_, exec_triggerFire_fires hseq hk hc, ?_⟩
    rw [Dev.setSite_site, if_pos rfl]
    exact ⟨rfl, hready, hmin, ⟨_, Site.fire_ctx .., rfl, rfl, rfl⟩, rfl, congrArg Trigger.counter ((Site.fire_trig ..).trans (if_pos rfl)),
      fun j hj => (Site.fire_trig ..).trans (if_neg hj), rfl⟩
  case other =>
    intro s i x
    refine ⟨fun f => exec_triggerFire_stops, exec_triggerFire_idle, fun hstop hk => ?_⟩
    cases hseq : x.fifoBad with
    | none => exact exec_triggerFire_idle hseq (.inl hk)
    | some f => exact exec_triggerFire_stopped hseq hstop

end Sys2Proof.Machine
end

section
/-! PROOF. The ends of FLIT_HOP, what a hop and `passOn` do, and the header of two combined flits (R28, R176, R183, R184). -/
namespace Sys2Proof.Machine

/-! ### The ends of FLIT_HOP -/

/-- What FLIT_HOP does with a flit that its check has let through: the hop where it is ready, else nothing, and `passOn` where there is none. -/
def Dev.hopOn (d : Dev) (t : TimeBase) (n : Node) (p : Port) (c : Cls) (x : Transit) : Dev :=
  match d.nextHop n x c with
  | none => d.passOn n p c x
  | some h => if d.hopReady h ∧ d.heldBack n p c x h = false then d.doHop t n p c x h else d

theorem exec_flitHop (s : State) (n : Node) (p : Port) (c : Cls) (e : FlitEcc) :
    exec (.flitHop n p c e) s = .next (s.withDev (s.dev.flitHop s.time n p c e)) := rfl

section
variable {d : Dev} {t : TimeBase} {n : Node} {p : Port} {c : Cls} {x : Transit}

theorem Dev.flitHop_empty (e : FlitEcc) (hhead : d.head n p c = none) : d.flitHop t n p c e = d := by
  simp only [Dev.flitHop, hhead]

theorem Dev.flitHop_header (hhead : d.head n p c = some x) :
    d.flitHop t n p c .header = (d.takeFlit n p c).flitUncorrectable t n := by
  simp only [Dev.flitHop, hhead, if_true]

/-- A flit with a sound header makes its hop from the device with its payload's mark, if it makes one (R183). -/
theorem Dev.flitHop_checked {e : FlitEcc} (hhead : d.head n p c = some x) (he : e ≠ .header) :
    d.flitHop t n p c e = (d.checkedAt n p c x e).hopOn t n p c (x.checked e) := by
  cases e with
  | header => exact absurd rfl he
  | clean => simp only [Dev.flitHop, hhead]; rfl
  | payload => simp only [Dev.flitHop, hhead]; rfl

theorem Dev.hopOn_hops {h : Hop} (hnext : d.nextHop n x c = some h) (hready : d.hopReady h = true)
    (hfree : d.heldBack n p c x h = false) : d.hopOn t n p c x = d.doHop t n p c x h := by
  simp only [Dev.hopOn, hnext, if_pos (And.intro hready hfree)]

theorem Dev.hopOn_waits {h : Hop} (hnext : d.nextHop n x c = some h) (hwait : d.hopReady h = false ∨ d.heldBack n p c x h = true) :
    d.hopOn t n p c x = d := by
  have hnot : ¬ (d.hopReady h = true ∧ d.heldBack n p c x h = false) := by
    rcases hwait with hwait | hwait <;> simp [hwait]
  simp only [Dev.hopOn, hnext, if_neg hnot]

theorem Dev.hopOn_passes (hnext : d.nextHop n x c = none) : d.hopOn t n p c x = d.passOn n p c x := by
  simp only [Dev.hopOn, hnext]

/-! ### A flit that no hop leads on -/

theorem Dev.passOn_elsewhere (hstop : ∀ i, n ≠ .stop i 8) (hring : ∀ k, n ≠ .ring k) : d.passOn n p c x = d := by
  cases n with
  | stop i k =>
    have hk : k.val ≠ 8 := fun h => hstop i (congrArg (Node.stop i) (Fin.ext h))
    simp only [Dev.passOn, hk, false_and, and_false, if_false]
  | ring k => exact absurd rfl (hring k)
  | site _ | tap _ _ | reef _ | bypass _ _ _ => rfl

theorem Dev.passOn_control_stays {i : Fin 4}
    (h : x.answer = false ∨ x.dst ≠ .header ∨ d.canInject (.stop i 8) x.flit.kind = false) : d.passOn (.stop i 8) p c x = d := by
  refine if_neg fun ⟨hans, _, hdst, hroom⟩ => ?_
  rcases h with h | h | h
  · rw [h] at hans; cases hans
  · exact h hdst
  · rw [h] at hroom; cases hroom

theorem Dev.passOn_control {i : Fin 4} (hans : x.answer = true) (hdst : x.dst = .header)
    (hroom : d.canInject (.stop i 8) x.flit.kind = true) :
    d.passOn (.stop i 8) p c x = (d.takeFlit (.stop i 8) p c).putFlit (.stop i 8) .loc (clsOf x.flit.kind)
      { x with dst := .die (Fin.ofNat 8 (nearTrust i.val)), express := false } :=
  if_pos ⟨hans, rfl, hdst, hroom⟩

theorem Dev.passOn_ring {k : Fin 8} (hcargo : x.cargo = none) : d.passOn (.ring k) p c x = d := by
  simp only [Dev.passOn, hcargo, Option.elim_none]

/-! ### The hop -/

/-- What `takeFlit` does to the input buffers: its own loses the head. -/
theorem Dev.takeFlit_buf (k : Nat) :
    (d.takeFlit n p c).buf k = if k = bufKey n p c then (d.buf (bufKey n p c)).tail else d.buf k := mget_mput ..

theorem Dev.doHop_alone {h : Hop} (hkind : x.flit.kind ≠ 3) : d.doHop t n p c x h = (d.takeFlit n p c).hopTo h x := by
  simp [Dev.doHop, hkind]

/-- A reduce-AA flit that is among those that combine at its router leaves with them as one (R184). -/
theorem Dev.doHop_combined {h : Hop} (hkind : x.flit.kind = 3) (hrouter : (∃ k, n = .site k) ∨ ∃ k, n = .reef k)
    (htwo : 2 ≤ (d.combineSet n h x).length)
    (hmine : ((d.combineSet n h x).any fun e => decide (e.1 = p ∧ e.2.1 = c)) = true) :
    d.doHop t n p c x h =
      ((((d.combineSet n h x).foldl (fun d e => d.takeFlit n e.1 e.2.1) d).hopTo h
        (combineFlits ((d.combineSet n h x).map (·.2.2)) x).1).aaReport t ((nodeReef n).bind d.jobAt) (nodeDie n) (nodeUnit n) (nodeWh n)
        x.flit.tag (combineFlits ((d.combineSet n h x).map (·.2.2)) x).2) := by
  rcases hrouter with ⟨k, rfl⟩ | ⟨k, rfl⟩ <;> simp only [Dev.doHop, hkind, and_self, if_true, htwo, hmine]

end

/-! ### Two flits combined -/

/-- A header whose `CONTRIB` is replaced by a sum within 1,023: the sum is read back, and the other fields are kept. -/
theorem Flit.contrib_replaced (f : Flit) (q : W256) {m : Nat} (hm : m ≤ 1023) :
    let g : Flit := { hdr := BitVec.ofNat 64 (f.hdr.toNat - f.contrib * 16 + m * 16), payload := q }
    g.contrib = m ∧ g.h 63 14 = f.h 63 14 ∧ g.aaSeq = f.aaSeq := by
  have hlt : f.hdr.toNat < 2 ^ 64 := f.hdr.isLt
  simp only [Flit.contrib, Flit.aaSeq, Flit.h, bits, BitVec.toNat_ofNat]
  omega

theorem combineFlits_pair (x y : Transit) :
    (combineFlits [x, y] x).1 = { x with
      flit := { hdr := BitVec.ofNat 64 (x.flit.hdr.toNat - x.flit.contrib * 16 + (x.flit.contrib + y.flit.contrib) * 16),
                payload := (aaCombine x.flit.payload y.flit.payload).1 },
      bad := x.bad || y.bad } := by
  simp [combineFlits, sumNat]

/-- Settles O32: each clause is one end of FLIT_HOP, one place where no hop leads on, or one law of a hop. -/
theorem flitHops : Obligations.FlitHops := by
  unfold Obligations.FlitHops
  refine ⟨?empty, ?head, ?stays, ?alone, ?combined, ?pair⟩
  case empty =>
    intro s n p c e hhead
    rw [exec_flitHop, Dev.flitHop_empty e hhead]
  case head =>
    intro s n p c x hhead
    refine ⟨by rw [exec_flitHop, Dev.flitHop_header hhead], ?_⟩
    intro e he y d
    rw [exec_flitHop, Dev.flitHop_checked hhead he]
    refine ⟨fun h hnext hready hfree => ?_, fun h hnext hwait => ?_, fun hnext => ?_⟩
    · rw [Dev.hopOn_hops hnext hready hfree]
    · rw [Dev.hopOn_waits hnext hwait]
    · rw [Dev.hopOn_passes hnext]
  case stays =>
    intro d n p c x
    refine ⟨Dev.passOn_elsewhere, ?_, ?_, ?_⟩
    · rintro i rfl; exact Dev.passOn_control_stays
    · rintro i rfl; exact Dev.passOn_control
    · rintro k rfl; exact Dev.passOn_ring
  case alone =>
    intro d t n p c x h hkind
    exact ⟨Dev.doHop_alone hkind, rfl, rfl, fun k hk => (Dev.takeFlit_buf k).trans (if_neg hk), (Dev.takeFlit_buf _).trans (if_pos rfl)⟩
  case combined =>
    intro d t n p c x h hkind hrouter htwo hmine
    exact Dev.doHop_combined hkind hrouter htwo hmine
  case pair =>
    intro x y hsum
    rw [combineFlits_pair]
    obtain ⟨hcontrib, hhead, hseq⟩ := x.flit.contrib_replaced (aaCombine x.flit.payload y.flit.payload).1 hsum
    exact ⟨rfl, hcontrib, hhead, hseq, rfl⟩

end Sys2Proof.Machine
end

section
/-! PROOF. Where the end of an epoch transition loses the epoch of a lagoon (R188, R310): a store that is not in the canonical form, and a
stop of the job in the middle of the transition. -/
namespace Sys2Proof.Machine

/-- The image of a plan whose one section is a serving section (0x0D) of zeros: the root of its index stands at address 0 of region 0. -/
def servingImage : List Byte :=
  List.replicate 26 0 ++ [1, 0] ++ List.replicate 100 0 ++
    (le 2 0xD ++ List.replicate 6 0 ++ le 8 160 ++ le 8 128 ++ List.replicate 8 0) ++ List.replicate 128 0

/-- Job 0, switched out (state 5), is in its transition on reef 0 and holds no HBM region. The store of lagoons is not canonical: it lists
lagoon 0 twice, the second time with epoch 5. -/
def doubledLagoon : Dev :=
  { jobs := [(0, { state := 5, reefs := [0], trans := 2 })], lagoons := [(0, { discard := 1 }), (0, { epoch := 5 })] }

/-- The transition sets epoch 0 in the first entry for lagoon 0. Then no region holds the root of that index, so that its write is
refused and the job stops (R218, R585); the stop takes the lagoon's discards, which leaves the first entry the default one: it goes, and
the second entry is read. -/
theorem doubledLagoon_epoch : ((doubledLagoon.transitionEnd {} 0 { image := servingImage } []).lag 0).epoch = 5 := by decide +kernel

/-- Refutes O45: its clause on the end of a transition takes any state, and on `doubledLagoon` the next epoch is 0, but lagoon 0 reads
epoch 5 after it. The counterexample turns on the form of the store: each write of a store keeps the canonical form (`mapOk_mput`,
`mapOk_mmap`), which that clause does not ask of the lagoons (nor of the sites). -/
theorem not_epochTransition : ¬ Obligations.EpochTransition := by
  unfold Obligations.EpochTransition
  rintro ⟨-, -, -, -, hend, -, -⟩
  obtain ⟨-, -, -, -, -, hlagoons⟩ := hend { dev := doubledLagoon } 0 { image := servingImage } [] rfl
  have hzero : ((doubledLagoon.transitionEnd {} 0 { image := servingImage } []).lag 0).epoch = 0 := hlagoons 0 List.mem_cons_self
  rw [doubledLagoon_epoch] at hzero
  exact absurd hzero (by decide)

end Sys2Proof.Machine
end
